-- ==== Sys2Proof/Word.lean ====
section
/-! DEFINITION. The word types of the SLD-8816 (R5, R8) and the two's-complement reading of a field (R6). -/

namespace Sys2Proof

/-- A register, a memory word or a sample: 32 bits (R8). -/
abbrev Word := BitVec 32

/-- One byte of memory (R5: multi-byte values are little-endian). -/
abbrev Byte := BitVec 8

/-- A 64-bit tick-engine slot or Indigo bundle (R87, R216). -/
abbrev DWord := BitVec 64

end Sys2Proof
end

