-- ==== Sys2Proof/Syntax.lean ====
section
/-! DEFINITION. The commands the SLD-8816 takes: one constructor of `Instr` for each row of
spec/opcode_table.json, with the operands that its rule names. Operands called `m` name the
requesting master, `cyc` is the ENG_CLK cycle, within the running domain-A tick, in which the
command's effect reaches the ENG_CLK side (R28, R58, R118). -/

namespace Sys2Proof

/-- The masters that the chapters name as writers or readers of registers and memory. -/
inductive Master where
  /-- Host h through host port HPh (R374). -/
  | host (h : Fin 4)
  /-- Indigo core IGn: far reads and writes (R243). -/
  | core (n : Fin 16)
  /-- DMA channel n (R358). -/
  | dma (n : Fin 32)
  /-- The boot sequencer (R424, R431). -/
  | boot
  /-- The CAN listener's signal application (R414). -/
  | listener
  /-- The event-input unit's actions (R418). -/
  | events
  deriving DecidableEq, Repr

/-- A CAN FD or classical CAN frame as the receive logic sees it (R405, R406, R407). -/
structure CanFrame where
  /-- Identifier, 11 or 29 bits. -/
  id : Nat
  /-- The 29-bit (extended) identifier format. -/
  ext : Bool
  /-- The frame is in the CAN FD format. -/
  fd : Bool
  /-- The frame switches to the data rate (BRS = 1). -/
  brs : Bool
  /-- A remote frame of the classical format. -/
  rtr : Bool
  /-- The data-field bytes, first byte first. -/
  data : List Byte
  /-- A stuff-rule violation was seen. -/
  stuffErr : Bool
  /-- A form violation was seen. -/
  formErr : Bool
  /-- The CRC did not match. -/
  crcErr : Bool
  /-- The bit timing did not match the programmed rates. -/
  rateErr : Bool
  deriving DecidableEq, Repr

/-- The bytes of an access, whose number is its size, also where a read answers as many and takes none; and the cycles that its
master waited while others were served (R332, R335). -/
structure Payload where
  bytes : List Byte
  lost : Nat
  deriving DecidableEq, Repr

/-- What a command names, with the cycles that it gives: the ENG_CLK cycle of its effect, or the CORE_CLK cycles that a core
stood still. -/
structure Timed (α : Type) where
  what : α
  cyc : Nat
  deriving DecidableEq, Repr

/-- Words of the frame in execution on a port: the port, how many words are served at most, and the cycle of their effect. -/
structure Serve where
  h : Fin 4
  n : Nat
  cyc : Nat
  deriving DecidableEq, Repr

/-- Another master seen on a port: the bits received by then, and the words that they fill (R400). -/
structure Seen where
  h : Fin 4
  n : Nat
  rx : List Word
  deriving DecidableEq, Repr

/-- The commands: one constructor for each row of spec/opcode_table.json, in the table's order, those without operands last. -/
inductive Instr where
  /-- REGISTER_WRITE (R13): A write to a register that has no row of its own takes effect according to the register's access code and its field rules. -/
  | registerWrite (m : Master) (a : Word) (v : Word) (size : Nat) (cyc : Nat)
  /-- READ_TO_CLEAR (R16): A read of an RC register or counter returns its value and clears it. -/
  | readToClear (m : Master) (a : Word)
  /-- RL_LOW_READ (R17): A read of the low half of an RL pair returns the low half and latches the high half for the reading master. -/
  | rlLowRead (m : Master) (a : Word)
  /-- REEPOCH (R34): A write of SYS_CTRL.REEPOCH by host 0 requests a re-epoch, which drains at the next common boundary. -/
  | reepoch (m : Master)
  /-- ENGINE_START_REQUEST (R50): RUN written from 0 to 1 moves the engine to START_PENDING, or refuses the start with LEN_ERR. -/
  | engineStartRequest (m : Master) (e : Fin 8) (cyc : Nat)
  /-- ENGINE_START (R50): A pending engine starts its first run at the first common boundary that meets the power, clear and length conditions. -/
  | engineStart (e : Fin 8)
  /-- ENGINE_STOP_REQUEST (R51): RUN written from 1 to 0 moves the engine to STOP_PENDING, or cancels a pending start. -/
  | engineStopRequest (m : Master) (e : Fin 8) (cyc : Nat)
  /-- ENGINE_STOP (R51): A stop-pending engine stops at the next tick boundary of its domain, after delivering its final run. -/
  | engineStop (e : Fin 8)
  /-- LIVE_HOLD (R60): Setting or clearing TEn_CTRL.LIVE_HOLD holds pending live words, or releases them together at the next eligible boundary. -/
  | liveHold (m : Master) (e : Fin 8) (on : Bool) (cyc : Nat)
  /-- CLRSTATE (R53): CLRSTATE written while STOPPED zeroes the engine state and delay store over 32,768 cycles, and is ignored otherwise. -/
  | clrstate (m : Master) (e : Fin 8)
  /-- ENGINE_CLEAR_DONE (R53): The engine state clear completes, and CLR_BUSY clears. -/
  | engineClearDone (e : Fin 8)
  /-- PROGRAM_MEMORY_WRITE (R54): A program-memory write lands while the engine is stopped, and is ignored with PMEM_IGN otherwise. -/
  | programMemoryWrite (m : Master) (e : Fin 8) (off : Nat) (v : Word)
  /-- LIVE_WORD_WRITE (R58): A write of TEn_LIVEm sets the pending value for the boundary that the R58 deadline gives. -/
  | liveWordWrite (m : Master) (e : Fin 8) (w : Fin 16) (v : Word) (cyc : Nat)
  /-- DELAY_STORE_FABRIC_ACCESS (R78): A fabric master's access to an engine delay store is served in a store cycle that the engine does not use. -/
  | delayStoreFabricAccess (m : Master) (e : Fin 8) (off : Nat) (wr : Bool) (x : Payload)
  /-- TE_MAC_SLOT (R91): A format-M slot performs up to two multiply-accumulates and one accumulator transfer. -/
  | teMacSlot (e : Fin 8)
  /-- TE_DELAY_READ (R94): A format-D read writes the delay-store word at logical address L to DX. -/
  | teDelayRead (e : Fin 8)
  /-- TE_INTERPOLATED_READ (R75): A format-D interpolated read returns the value interpolated between two adjacent delay words. -/
  | teInterpolatedRead (e : Fin 8)
  /-- TE_DELAY_WRITE (R94): A format-D write stores a source word, or a scaled accumulator, in the delay store. -/
  | teDelayWrite (e : Fin 8)
  /-- TE_ILLEGAL_SLOT (R106): An illegal slot executes as a suppressed slot and sets TEn_STATUS.ILLEGAL. -/
  | teIllegalSlot (e : Fin 8)
  /-- TE_NOP (R96): Format-X NOP does nothing. -/
  | teNop (e : Fin 8)
  /-- TE_LDI (R96): LDI loads the immediate into XD. -/
  | teLdi (e : Fin 8)
  /-- TE_MOV (R96): MOV copies XS1 to XD. -/
  | teMov (e : Fin 8)
  /-- TE_LDC (R96): LDC loads a coefficient word into XD. -/
  | teLdc (e : Fin 8)
  /-- TE_ADD (R96): ADD adds modulo 2^32. -/
  | teAdd (e : Fin 8)
  /-- TE_SUB (R96): SUB subtracts modulo 2^32. -/
  | teSub (e : Fin 8)
  /-- TE_RSB (R96): RSB computes operand 2 minus XS1, modulo 2^32. -/
  | teRsb (e : Fin 8)
  /-- TE_ADDS (R96): ADDS adds with saturation. -/
  | teAdds (e : Fin 8)
  /-- TE_SUBS (R96): SUBS subtracts with saturation. -/
  | teSubs (e : Fin 8)
  /-- TE_AND (R96): AND computes a bitwise AND. -/
  | teAnd (e : Fin 8)
  /-- TE_OR (R96): OR computes a bitwise OR. -/
  | teOr (e : Fin 8)
  /-- TE_XOR (R96): XOR computes a bitwise XOR. -/
  | teXor (e : Fin 8)
  /-- TE_MIN (R96): MIN takes the signed minimum. -/
  | teMin (e : Fin 8)
  /-- TE_MAX (R96): MAX takes the signed maximum. -/
  | teMax (e : Fin 8)
  /-- TE_MINU (R96): MINU takes the unsigned minimum. -/
  | teMinu (e : Fin 8)
  /-- TE_MAXU (R96): MAXU takes the unsigned maximum. -/
  | teMaxu (e : Fin 8)
  /-- TE_ASR (R96): ASR shifts right arithmetically. -/
  | teAsr (e : Fin 8)
  /-- TE_LSR (R96): LSR shifts right logically. -/
  | teLsr (e : Fin 8)
  /-- TE_LSL (R96): LSL shifts left. -/
  | teLsl (e : Fin 8)
  /-- TE_ABS (R96): ABS takes the saturated absolute value. -/
  | teAbs (e : Fin 8)
  /-- TE_NEG (R96): NEG takes the saturated negation. -/
  | teNeg (e : Fin 8)
  /-- TE_CMP (R96): CMP sets a flag from a comparison of XS1 and operand 2. -/
  | teCmp (e : Fin 8)
  /-- TE_FOP (R96): FOP sets a flag from a logical operation on flags. -/
  | teFop (e : Fin 8)
  /-- TE_FSET (R96): FSET sets a flag to an immediate value. -/
  | teFset (e : Fin 8)
  /-- TE_AMOV (R98): AMOV loads an address register from a UQ18.14 value. -/
  | teAmov (e : Fin 8)
  /-- TE_AINT (R98): AINT loads the integer part of an address register and clears its fraction. -/
  | teAint (e : Fin 8)
  /-- TE_AADD (R98): AADD adds a signed Q18.14 value to an address register. -/
  | teAadd (e : Fin 8)
  /-- TE_ACCLD (R97): ACCLD loads an accumulator with a value aligned as a product. -/
  | teAccld (e : Fin 8)
  /-- TE_ACCADD (R96): ACCADD adds an aligned value to an accumulator, with saturation. -/
  | teAccadd (e : Fin 8)
  /-- TE_EMIT (R84): EMIT queues a Vat descriptor from a template, or drops it beyond four per run. -/
  | teEmit (e : Fin 8)
  /-- COMMIT_REQUEST (R114): A write of MD_REQ is accepted, refused or denied, and an accepted request merges into the accumulating commit. -/
  | commitRequest (m : Master) (seq : Nat) (mask : Nat) (cyc : Nat)
  /-- SHADOW_WRITE (R111): A write to a committable shadow word sets its dirty bit, or is held while the object is frozen. -/
  | shadowWrite (m : Master) (a : Word) (v : Word)
  /-- ACTIVE_VIEW_WRITE (R136): A write to an active view is ignored, and MD_ERR.ACTIVE_WR is set. -/
  | activeViewWrite (m : Master) (a : Word) (v : Word)
  /-- GLIDE_END (R130): A glide channel reaches run N, holds v_new and becomes idle. -/
  | glideEnd (e : Fin 8) (ch : Fin 64)
  /-- OVERRIDE_WORD_WRITE (R139): A write of OVR_WORDm governs the sink's delivered samples from eight FAB_CLK cycles later. -/
  | overrideWordWrite (m : Master) (i : Fin 32) (v : Word)
  /-- OVERRIDE_SINK_WRITE (R138): A write of OVR_SINKm releases the old sink and binds the new one. -/
  | overrideSinkWrite (m : Master) (i : Fin 32) (v : Word)
  /-- PAIR_START (R144): TWIN_CTRLp.START tests the pair-start conditions and starts the program check, or is refused. -/
  | pairStart (m : Master) (p : Fin 4)
  /-- TWIN_DISABLE (R150): TWIN_CTRLp.EN written to 0 schedules the exit from lockstep, or takes effect at once when the pair is DEGRADED or MUTED. -/
  | twinDisable (m : Master) (p : Fin 4)
  /-- LOCKSTEP_EXIT (R150): At the next tick boundary the pair leaves lockstep, the other member stops, and the pair state becomes OFF. -/
  | lockstepExit (p : Fin 4)
  /-- MIGRATION_MOVE (R152): MIG_CTRL.START with MODE MOVE starts a migration check, or is refused with ERR bits. -/
  | migrationMove (m : Master) (v : Word)
  /-- TWIN_JOIN (R164): MIG_CTRL.START with MODE JOIN starts a join of the stopped partner into lockstep. -/
  | twinJoin (m : Master) (v : Word)
  /-- LATE_START (R165): MIG_CTRL.START with MODE LATE arms an engine to start at an exact tick, optionally replacing a placeholder. -/
  | lateStart (m : Master) (v : Word)
  /-- MIGRATION_ABORT (R166): MIG_CTRL.ABORT before the handover cutoff abandons the migration, join or late start. -/
  | migrationAbort (m : Master)
  /-- MIG_ALIAS_WRITE (R163): A write of MIG_ALIAS becomes pending until the next commit naming ROUTE. -/
  | migAliasWrite (m : Master) (v : Word)
  /-- DOMAIN_APPLY (R173): DOM_CTRL.APPLY classifies the change and schedules a rate-set boundary, a drain, or an immediate change. -/
  | domainApply (m : Master)
  /-- BRIDGE_ENABLE (R179): EN written from 0 to 1 makes the bridge PENDING, or refuses the enable with CFG_ERR. -/
  | bridgeEnable (m : Master) (b : Fin 16) (v : Word)
  /-- BRIDGE_DISABLE (R179): EN written from 1 to 0 makes the bridge STOP_PENDING, or cancels a pending start. -/
  | bridgeDisable (m : Master) (b : Fin 16) (v : Word)
  /-- BRIDGE_START (R179): A pending bridge starts with zero history at its common or rate-set boundary. -/
  | bridgeStart (b : Fin 16)
  /-- BRIDGE_STOP (R179): A stop-pending bridge stops at the next common boundary and reads 0. -/
  | bridgeStop (b : Fin 16)
  /-- TRANSITION_END (R197): A route gain ramp or crossfade reaches sample N, and only the new contribution remains. -/
  | transitionEnd (i : Nat)
  /-- GATE_BLOCK_END (R201): At the end of a gate block, the gate state of each gated input is decided for the next block. -/
  | gateBlockEnd (n : Nat)
  /-- SCALE_RAMP_END (R202): A summing-node scale ramp reaches its target. -/
  | scaleRampEnd (n : Nat)
  /-- TEST_GENERATOR_CONFIG (R210): A TGm_CFG write enables, restarts, moves or stops the generator, or changes its waveform. -/
  | testGeneratorConfig (m : Master) (g : Fin 8) (v : Word)
  /-- TEST_GENERATOR_STEP (R210): A TGm_STEP write sets the phase step from the generator's next sample. -/
  | testGeneratorStep (m : Master) (g : Fin 8) (v : Word)
  /-- VAT_DISPATCH (R257): An eligible core takes a dispatchable item by affinity or by priority. -/
  | vatDispatch (c : Fin 16)
  /-- AFFINITY_WAIT_EXPIRY (R257): An item's affinity wait expires, and any eligible core may take it. -/
  | affinityWaitExpiry (id : Nat)
  /-- IG_NOP (R215): NOP does nothing. -/
  | igNop (c : Fin 16)
  /-- IG_MAC (R217): MAC adds or subtracts one product to an accumulator. -/
  | igMac (c : Fin 16)
  /-- IG_MACP (R217): MACP adds or subtracts the sum of a product pair. -/
  | igMacp (c : Fin 16)
  /-- IG_MAC2 (R217): MAC2 accumulates two products into two accumulators. -/
  | igMac2 (c : Fin 16)
  /-- IG_MACQ (R220): MACQ accumulates four 16-bit products in two lanes. -/
  | igMacq (c : Fin 16)
  /-- IG_MPY (R217): MPY sets an accumulator to a signed product. -/
  | igMpy (c : Fin 16)
  /-- IG_CLR (R215): CLR clears an accumulator. -/
  | igClr (c : Fin 16)
  /-- IG_MOVA (R218): MOVA moves a scaled accumulator to a W register. -/
  | igMova (c : Fin 16)
  /-- IG_MOVAC (R218): MOVAC moves a scaled accumulator and then clears it. -/
  | igMovac (c : Fin 16)
  /-- IG_ADD (R215): ADD adds with wrap. -/
  | igAdd (c : Fin 16)
  /-- IG_SUB (R215): SUB subtracts with wrap. -/
  | igSub (c : Fin 16)
  /-- IG_ADDS (R215): ADDS adds with saturation. -/
  | igAdds (c : Fin 16)
  /-- IG_SUBS (R215): SUBS subtracts with saturation. -/
  | igSubs (c : Fin 16)
  /-- IG_AND (R215): AND computes a bitwise AND. -/
  | igAnd (c : Fin 16)
  /-- IG_OR (R215): OR computes a bitwise OR. -/
  | igOr (c : Fin 16)
  /-- IG_XOR (R215): XOR computes a bitwise XOR. -/
  | igXor (c : Fin 16)
  /-- IG_MIN (R215): MIN takes the signed minimum. -/
  | igMin (c : Fin 16)
  /-- IG_MAX (R215): MAX takes the signed maximum. -/
  | igMax (c : Fin 16)
  /-- IG_MOV (R215): MOV copies a register. -/
  | igMov (c : Fin 16)
  /-- IG_CMP (R215): CMP sets the Z, N and C flags. -/
  | igCmp (c : Fin 16)
  /-- IG_ADDI (R215): ADDI adds a sign-extended immediate. -/
  | igAddi (c : Fin 16)
  /-- IG_ASR (R215): ASR shifts right arithmetically by an immediate. -/
  | igAsr (c : Fin 16)
  /-- IG_LSR (R215): LSR shifts right logically by an immediate. -/
  | igLsr (c : Fin 16)
  /-- IG_LSL (R215): LSL shifts left by an immediate. -/
  | igLsl (c : Fin 16)
  /-- IG_NSB (R215): NSB counts the redundant sign bits. -/
  | igNsb (c : Fin 16)
  /-- IG_AGSET (R221): AGSET writes a field of an address generator. -/
  | igAgset (c : Fin 16)
  /-- IG_AGADD (R221): AGADD advances a generator's IDX by a register value. -/
  | igAgadd (c : Fin 16)
  /-- IG_MTS (R215): MTS writes a special register, for example SCALE, EXP, BEXP, FLAGS or DBELL clear. -/
  | igMts (c : Fin 16)
  /-- IG_MFS (R215): MFS reads a special register. -/
  | igMfs (c : Fin 16)
  /-- IG_LDIW (R215): LDIW loads a 32-bit immediate. -/
  | igLdiw (c : Fin 16)
  /-- IG_BR (R230): BR branches on a condition after two delay slots. -/
  | igBr (c : Fin 16)
  /-- IG_CALL (R230): CALL branches and saves the return address in W31. -/
  | igCall (c : Fin 16)
  /-- IG_RET (R230): RET branches to W31. -/
  | igRet (c : Fin 16)
  /-- IG_RTE (R234): RTE returns from a handler to EPC and restores the flags. -/
  | igRte (c : Fin 16)
  /-- IG_REP (R227): REP opens a repeat block of N iterations. -/
  | igRep (c : Fin 16)
  /-- IG_DONE (R214): DONE ends the work item after its delay slots. -/
  | igDone (c : Fin 16)
  /-- IG_FLD (R243): FLD issues a far read and stalls until it completes. -/
  | igFld (c : Fin 16)
  /-- IG_FST (R243): FST posts a far write, stalling when four are outstanding. -/
  | igFst (c : Fin 16)
  /-- IG_FENCE (R243): FENCE stalls until every posted far write has completed. -/
  | igFence (c : Fin 16)
  /-- IG_SUBMIT (R244): SUBMIT offers a local descriptor to the Vat and sets C from the outcome. -/
  | igSubmit (c : Timed (Fin 16))
  /-- IG_BKPT (R236): BKPT requests a debug halt. -/
  | igBkpt (c : Fin 16)
  /-- IG_LOAD (R224): A memory-operation load reads local memory and writes the register after the next bundle. -/
  | igLoad (c : Fin 16)
  /-- IG_STORE (R225): A memory-operation store writes a register or pair to local memory. -/
  | igStore (c : Fin 16)
  /-- IG_SCALED_STORE (R219): A scaled store writes a scaled accumulator to local memory. -/
  | igScaledStore (c : Fin 16)
  /-- IG_ILLEGAL_BUNDLE (R216): An illegal bundle executes as a NOP, sets ILL and makes an ILL exception pending. -/
  | igIllegalBundle (c : Fin 16)
  /-- FLD_COMPLETE (R243): A far read completes, the destination is written and the core resumes. -/
  | fldComplete (c : Timed (Fin 16)) (n : Nat)
  /-- FST_COMPLETE (R243): A posted far write completes, freeing room and possibly ending a FENCE or DONE wait. -/
  | fstComplete (c : Timed (Fin 16)) (n : Nat)
  /-- REPEAT_ITERATION_END (R227): An iteration of a repeat block ends, looping back or closing the block. -/
  | repeatIterationEnd (c : Fin 16)
  /-- EXCEPTION_TAKE (R234): At a take point, the highest-priority pending exception is taken, saving EPC and flags and entering HANDLER or HALT. -/
  | exceptionTake (c : Fin 16)
  /-- WATCHDOG_EXPIRY (R235): The item cycle count reaches its limit, making WDT pending, or aborting the item in HANDLER. -/
  | watchdogExpiry (c : Fin 16)
  /-- ITEM_COMPLETION (R214): After DONE and the far-write wait, the core signals completion to the Vat and becomes IDLE. -/
  | itemCompletion (c : Timed (Fin 16))
  /-- DEBUG_HALT (R236): IGn_DBG.HALT makes DBG pending. -/
  | debugHalt (m : Master) (c : Fin 16)
  /-- DEBUG_STEP (R236): IGn_DBG.STEP runs a halted core to its next take point. -/
  | debugStep (m : Master) (c : Fin 16)
  /-- DEBUG_RESUME (R236): IGn_DBG.RESUME continues a halted core. -/
  | debugResume (m : Master) (c : Fin 16)
  /-- DOORBELL_WRITE (R231): A write to IGn_DBELL sets doorbell bits, which make DBELL pending when enabled. -/
  | doorbellWrite (m : Master) (c : Fin 16) (v : Word)
  /-- ICINV (R245): IGn_CTRL.ICINV invalidates the instruction cache of an idle core, and is ignored otherwise. -/
  | icinv (m : Master) (c : Fin 16)
  /-- ICACHE_FILL_DONE (R245): The missing bundle of a cache fill arrives and the core resumes, or a fetch error makes ILL pending. -/
  | icacheFillDone (c : Fin 16) (cyc : Nat)
  /-- LOCAL_MEMORY_FABRIC_ACCESS (R241): A fabric master's access to an Indigo local memory through port F, with collisions resolved. -/
  | localMemoryFabricAccess (m : Master) (c : Fin 16) (off : Nat) (wr : Bool) (x : Payload) (same : Bool)
  /-- VAT_SUBMIT (R250): A write of VAT_SUBMIT_W7 submits the writer's staging set and reports the result. -/
  | vatSubmit (m : Master) (w7 : Word)
  /-- ITEM_RELEASE (R260): A completed head item is released with its completed successors, and their completion actions execute in order. -/
  | itemRelease (flow : Nat)
  /-- COMPLETION_RECORD_READ (R263): Host h's read of VAT_CPL_TAGh returns and removes the oldest completion record. -/
  | completionRecordRead (m : Master) (h : Fin 4)
  /-- PARTITION_CONFIG (R254): A VAT_PART_CFGp write defines a partition, or is ignored with CFG_ERR when it overlaps or is misaligned. -/
  | partitionConfig (m : Master) (p : Fin 4) (v : Word)
  /-- FRAME_CLOCK_ENABLE (R265): VAT_FCLKc.EN written from 0 to 1 requests a start, and from 1 to 0 a stop at the next fence. -/
  | frameClockEnable (m : Master) (c : Fin 8) (v : Word)
  /-- FRAME_CLOCK_START (R265): The frame clock starts at its first eligible common or rate-set boundary. -/
  | frameClockStart (c : Fin 8)
  /-- FRAME_FENCE (R268): At a fence, FNUM advances, halves are heard or silenced, and release states are cleared. -/
  | frameFence (c : Fin 8)
  /-- CAPTURE_WINDOW_OPEN (R266): 160 ns after a fence the captured frame is in memory and its window opens for dispatch. -/
  | captureWindowOpen (c : Fin 8)
  /-- FENCE_CUTOFF (R269): At a fence cutoff, incomplete items of the frame become LATE and overrun is recorded. -/
  | fenceCutoff (c : Fin 8)
  /-- PORT_ENABLE (R277): TPn_CTRL.EN written from 0 to 1 requests a port start, or refuses it with CFG_ERR. -/
  | portEnable (m : Master) (n : Fin 6)
  /-- PORT_DISABLE (R290): TPn_CTRL.EN written from 1 to 0 stops the port at the end of the frame, or at once when LOST. -/
  | portDisable (m : Master) (n : Fin 6)
  /-- PORT_RESYNC_REQUEST (R290): TPn_CTRL.RESYNC forces RESYNC, restarts qualification, or is ignored. -/
  | portResyncRequest (m : Master) (n : Fin 6)
  /-- PORT_ENTER_RUN (R282): The port enters RUN, empties and preloads its FIFOs, and waits for L frames before takes begin. -/
  | portEnterRun (n : Fin 6)
  /-- INPUT_FRAME_COMPLETE (R281): A completed input frame enters the IN FIFO, or is discarded for a wrong edge count or a full FIFO. -/
  | inputFrameComplete (n : Fin 6) (edges : Nat) (period : Nat) (words : List Word)
  /-- OUTPUT_FRAME_START (R281): At a frame start the port removes and shifts out the oldest OUT FIFO frame and latches pending masks. -/
  | outputFrameStart (n : Fin 6)
  /-- TAKE_POINT (R281): At cycle 1,024 of a tick the fabric takes the oldest input frame of an unbound port as stamped samples. -/
  | takePoint (n : Fin 6)
  /-- SLOTMASK_WRITE (R279): A slot-mask shadow write becomes pending until it is latched at a frame start. -/
  | slotmaskWrite (m : Master) (n : Fin 6) (out : Bool) (v : Word)
  /-- FSYNC_LOSS (R290): FSYNC is absent for 1.5 frame periods, or a REFIN is lost, and the port enters LOST. -/
  | fsyncLoss (n : Fin 6)
  /-- FSYNC_RETURN (R290): The first FSYNC edge after loss moves the port from LOST to RESYNC. -/
  | fsyncReturn (n : Fin 6)
  /-- ASRC_CONFIG (R284): An ASRC_CFGg or channel-map write enables or maps a group, or is refused or ignored. -/
  | asrcConfig (m : Master) (g : Fin 8) (which : Fin 3) (v : Word)
  /-- ASRC_LOOP_TIMER (R288): After 100 ms at 20 Hz the group switches to its bandwidth and enters LOCKED. -/
  | asrcLoopTimer (g : Fin 8)
  /-- PDM_GROUP_ENABLE (R295): PDM_CLKCFGk.EN requests a clock group, or refuses it with CFG_ERR. -/
  | pdmGroupEnable (m : Master) (k : Fin 3) (v : Word)
  /-- PDM_CLOCK_START (R297): An enabled PDM clock starts at the next domain-A boundary, and the wake hold begins. -/
  | pdmClockStart (k : Fin 3)
  /-- PDM_WAKE_EXPIRY (R297): The wake hold and the 20 samples end, and the channels ramp in. -/
  | pdmWakeExpiry (k : Fin 3)
  /-- PDM_CHANNEL_ENABLE (R297): PDM_CHCFGc.EN enables a channel with a ramp in, or disables it with a ramp out. -/
  | pdmChannelEnable (m : Master) (c : Fin 24) (v : Word)
  /-- MIC_STUCK (R299): A window of identical bits sets MIC_STUCK, and the channel ramps out. -/
  | micStuck (c : Fin 24)
  /-- MIC_STUCK_CLEAR (R299): Eight windows with both bit values clear MIC_STUCK, and the channel ramps in. -/
  | micStuckClear (c : Fin 24)
  /-- PLL_LOCK (R305): A PLL declares lock after LOCK_CNT good cycles, and its enabled outputs start together. -/
  | pllLock (p : Fin 2)
  /-- PLL_LOSS_OF_LOCK (R313): A PLL loses lock, its outputs gate, and the APLL or SPLL consequences follow. -/
  | pllLossOfLock (p : Fin 2)
  /-- PLL_DIVIDER_WRITE (R308): A CORE_CLK or MCLK divider write takes effect at the output's next rising edge, or is refused. -/
  | pllDividerWrite (m : Master) (p : Fin 2) (k : Fin 14) (v : Word)
  /-- PLL_MULTIPLIER_WRITE (R308): A PLL1_MULT write starts or retargets a stepped retune, or is refused or ignored. -/
  | pllMultiplierWrite (m : Master) (v : Word)
  /-- PLL_APPLY (R310): PLL1_CTRL.APPLY in compatibility mode checks the MCLK shadows and schedules the divider change. -/
  | pllApply (m : Master)
  /-- OUTPUT_DELAY_WRITE (R311): A DLY write walks the output delay one step per output cycle toward its target. -/
  | outputDelayWrite (m : Master) (p : Fin 2) (k : Fin 14) (v : Word)
  /-- MCLK_ENABLE (R312): An MCLK EN write requests the output to start at the next tick boundary, or stops it after its cycle. -/
  | mclkEnable (m : Master) (k : Fin 4) (on : Bool)
  /-- MCLK_OUTPUT_START (R312): An enabled MCLK output starts at the first domain-A tick boundary after the write. -/
  | mclkOutputStart (k : Fin 4)
  /-- OCHRE_WINDOW_END (R319): At each 100 ms window, reference offsets are measured, states advance and the selection is evaluated. -/
  | ochreWindowEnd (offs : List Int)
  /-- REFERENCE_LOS (R320): A reference has no edge for 3.5 periods, LOS is declared, and the selection is evaluated at once. -/
  | referenceLos (r : Fin 9)
  /-- REFERENCE_EDGE_RETURN (R320): The first edge after LOS clears LOS. -/
  | referenceEdgeReturn (r : Fin 9)
  /-- PHASE_STEP (R327): A write of OC_PHASE_STEP adds a clamped software phase step to OFS and to the remainder. -/
  | phaseStep (m : Master) (v : Word)
  /-- SHARED_MEMORY_ACCESS (R334): A master's access to shared memory is arbitrated at its bank, with ECC correction or failure. -/
  | sharedMemoryAccess (m : Master) (a : Word) (wr : Bool) (data : List Byte) (ecc : Nat) (lost : Nat)
  /-- BIT_SET_WRITE (R336): A write to the bit-set alias sets the written 1 bits atomically. -/
  | bitSetWrite (m : Master) (a : Word) (data : List Byte) (lost : Nat)
  /-- BIT_CLEAR_WRITE (R336): A write to the bit-clear alias clears the written 1 bits atomically. -/
  | bitClearWrite (m : Master) (a : Word) (data : List Byte) (lost : Nat)
  /-- RETENTION_REQUEST (R339): SMEM_RET.RET[g] written to 1 puts group g into ENTERING, and new accesses fail with RET. -/
  | retentionRequest (m : Master) (g : Fin 12)
  /-- RETENTION_ENTERED (R339): When its outstanding accesses complete, the group drops to retention voltage and enters RET. -/
  | retentionEntered (g : Fin 12)
  /-- WAKE_REQUEST (R340): RET[g] written to 0 moves a retained group to WAKING. -/
  | wakeRequest (m : Master) (g : Fin 12)
  /-- GROUP_WAKE_DONE (R340): 12 µs after the wake, the group is ON and the waiting accesses proceed. -/
  | groupWakeDone (g : Fin 12)
  /-- UNLOCK (R347): VERM_CTRL.UNLOCK compares the token and makes ACCESS UNLOCKED, or counts a failure and possibly a lockout. -/
  | unlock (m : Master)
  /-- LOCK (R347): VERM_CTRL.LOCK returns ACCESS from UNLOCKED to LOCKED. -/
  | lock (m : Master)
  /-- SEAL (R345): VERM_CTRL.SEAL starts copying the sealed page into the MRAM partition, or is refused. -/
  | vermSeal (m : Master)
  /-- WIPE (R348): VERM_CTRL.WIPE from host 0 starts a Vermilion wipe with cause 0x5. -/
  | wipe (m : Master)
  /-- WIPE_DONE (R349): The wipe completes, WIPED and WCAUSE are set, counter 5 increments, and ACCESS is restored or WIPE_FAIL is set. -/
  | wipeDone (ok : Bool)
  /-- MRAM_WRITE (R353): A write to the MRAM store enters the write queue, or is refused with PERM by its region. -/
  | mramWrite (m : Master) (a : Word) (size : Nat) (data : List Byte)
  /-- COUNTER_INCREMENT (R356): An MRAMC_CNT_INC write increments a software persistent counter, or sets PROT. -/
  | counterIncrement (m : Master) (v : Word)
  /-- DMA_START (R359): DMAn_CTRL.START starts a transfer or chain from an idle state, or is ignored or refused. -/
  | dmaStart (m : Master) (n : Fin 32) (v : Word)
  /-- DMA_ABORT (R366): DMAn_CTRL.ABORT stops an active or chain-ended channel and enters ABORTED. -/
  | dmaAbort (m : Master) (n : Fin 32) (v : Word)
  /-- DMA_RESUME (R369): DMAn_CTRL.RESUME rereads the tail link word, or sets RESUME_PEND while active. -/
  | dmaResume (m : Master) (n : Fin 32) (v : Word)
  /-- DMA_ACCESS_COMPLETE (R365): A DMA read or write response returns; a failure ends the set in ERROR, and the last response completes the set. -/
  | dmaAccessComplete (n : Timed (Fin 32))
  /-- DMA_LINK_READ_DONE (R368): The link-word read returns, and the channel loads the next descriptor, enters CHAIN_END, or ends in ERROR. -/
  | dmaLinkReadDone (n : Fin 32)
  /-- DMA_DESCRIPTOR_LOADED (R367): A chain descriptor read completes, and the channel runs it or ends in ERROR with DESC. -/
  | dmaDescriptorLoaded (n : Fin 32)
  /-- FRAME_START (R387): SEL_N falls, and the port shifts the ready reply, or the busy pattern when no reply is ready. -/
  | frameStart (h : Fin 4)
  /-- FRAME_END (R379): SEL_N rises, the port runs the end-of-frame checks, and it executes the command or builds an error reply. -/
  | frameEnd (h : Fin 4) (bits : List Byte) (extra : Nat) (cyc : Nat)
  /-- LINK_NOP (R377): NOP carries filler words and does nothing. -/
  | linkNop (h : Fin 4)
  /-- LINK_READ (R381): READ reads up to 126 words and returns them in the reply. -/
  | linkRead (x : Serve)
  /-- LINK_WRITE (R381): WRITE writes up to 126 words, stopping at the first failure. -/
  | linkWrite (x : Serve)
  /-- LINK_RMW (R382): RMW atomically writes masked bits and returns the old value. -/
  | linkRmw (h : Timed (Fin 4))
  /-- LINK_COMMIT (R383): COMMIT issues a Mordant commit request and replies with its outcome. -/
  | linkCommit (h : Timed (Fin 4))
  /-- LINK_SUBMIT (R384): SUBMIT offers a descriptor to the Vat and replies with the result. -/
  | linkSubmit (h : Fin 4)
  /-- LINK_SNAP_ARM (R385): SNAP with ADDR[0] = 0 arms the snapshot. -/
  | linkSnapArm (h : Fin 4)
  /-- LINK_SNAP_TRIGGER (R385): SNAP with ADDR[0] = 1 fires the snapshot trigger with the host source. -/
  | linkSnapTrigger (h : Fin 4)
  /-- LINK_RESEND (R390): RESEND replies with a copy of the previously shifted reply. -/
  | linkResend (h : Fin 4)
  /-- REPLY_READY (R390): A frame's execution completes, and its reply becomes ready. -/
  | replyReady (h : Fin 4)
  /-- HOST_DOORBELL_WRITE (R397): A write of HPn_HDBELL sets bits from other masters, or clears them from host n. -/
  | hostDoorbellWrite (m : Master) (h : Fin 4) (v : Word)
  /-- MASTER_MODE_CHANGE (R398): A change of HPn_CFG.MASTER takes effect when SEL_N is high, discarding a slave reply in progress. -/
  | masterModeChange (m : Master) (h : Fin 4) (on : Bool)
  /-- GO (R399): HPn_MCTRL.GO starts a master frame, or is ignored with CFG_ERR or CFG_IGN. -/
  | go (m : Master) (h : Fin 4)
  /-- MASTER_FRAME_START (R399): After the idle wait and the sense, the port drives SEL_N low and begins shifting. -/
  | masterFrameStart (h : Fin 4) (sel : Bool)
  /-- MASTER_FRAME_DONE (R399): After the last edge and the lag, SEL_N is released, MBUSY clears and MDONE is set. -/
  | masterFrameDone (h : Fin 4) (rx : List Word)
  /-- MM_FAULT (R400): Another master is detected: the port releases its pins and sets MM_FAULT. -/
  | mmFault (x : Seen)
  /-- CAN_ENABLE (R407): CAN_CTRL.EN enables the listener into INTEGRATE, and every signal becomes STALE. -/
  | canEnable (m : Master) (v : Word)
  /-- CAN_FRAME_RECEIVED (R408): A frame reaches its receive point, is filtered, and updates its signals with a stamp. -/
  | canFrameReceived (f : CanFrame) (cyc : Nat)
  /-- SIGNAL_TIMEOUT (R413): TIMEOUT passes without a frame, and the signal becomes STALE with its fallback value. -/
  | signalTimeout (sg : Fin 48) (cyc : Nat)
  /-- EVENT_PIN_CHANGE (R417): A change of an EVTi raw level feeds the debounce and chatter stages. -/
  | eventPinChange (i : Timed (Fin 8)) (level : Bool)
  /-- DEBOUNCE_EXPIRY (R417): The raw level stays stable for DEB ms, and the debounced and logical levels change. -/
  | debounceExpiry (i : Fin 8) (cyc : Nat)
  /-- CHATTER_WINDOW (R417): The chatter window detects too many changes and freezes the level, or ends a freeze. -/
  | chatterWindow (i : Fin 8) (cyc : Nat)
  /-- STUCK_TIMEOUT (R417): A logical level stays active for MAXACT seconds, sets STUCK, and is released when REL is set. -/
  | stuckTimeout (i : Fin 8) (cyc : Nat)
  /-- TEST (R421): CHIME_CTRL.TEST raises the test chime request. -/
  | test (m : Master) (pat : Fin 4)
  /-- TEST_STOP (R421): CHIME_CTRL.TEST_STOP withdraws the test chime request. -/
  | testStop (m : Master)
  /-- RELOAD (R420): CHIME_CTRL.RELOAD recopies and validates the chime patterns from MRAM. -/
  | reload (m : Master)
  /-- RESET_PIN (R467): RST_N or TMODE asserted for 1 µs holds power-on reset. -/
  | resetPin (asserted : Bool)
  /-- BOOT_READ_DONE (R431): A stage read and its checks complete, and the stage is applied, or the attempt fails. -/
  | bootReadDone (x : Timed (List Byte))
  /-- STAGE_READ_START (R437): Stage k begins its read once epoch 1, the previous stage and the warm-start work allow it. -/
  | stageReadStart (k : Fin 4)
  /-- WARM_VERIFY_DONE (R440): The background comparison of flash with the record ends equal, as a mismatch that re-epochs, or with a flash error. -/
  | warmVerifyDone (cyc : Nat)
  /-- POWER_REQUEST (R443): A PWR_REQ write requests domains on, off or in retention, and power-downs wait on the handshake. -/
  | powerRequest (m : Master) (v : Word)
  /-- POWER_DOMAIN_UP (R443): A domain completes its power-up, with its engine or core clears. -/
  | powerDomainUp (d : Fin 8)
  /-- POWER_DOMAIN_DOWN (R444): The handshake releases a domain, and it powers off or enters retention. -/
  | powerDomainDown (d : Fin 8)
  /-- PD1_FAULT (R445): A PD1 brown-out or power-up timeout switches off PD1–PD7, logs the fault and raises the chime. -/
  | pd1Fault (timeout : Bool)
  /-- SLEEP_RETAIN (R446): PWR_CTRL.SLEEP = RETAIN requests sleep with retention. -/
  | sleepRetain (m : Master)
  /-- SLEEP_AON_ONLY (R446): PWR_CTRL.SLEEP = AON_ONLY requests sleep with only PD0 on. -/
  | sleepAonOnly (m : Master)
  /-- THERMAL_EVALUATION (R447): Every 1 ms, T_max is evaluated for warning, parking and safe-state entry. -/
  | thermalEvaluation (t0 : Int) (t1 : Int) (t2 : Int) (t3 : Int)
  /-- ARM (R450): SNAP_CTRL.ARM arms the snapshot and clears MISSED. -/
  | arm (m : Master)
  /-- TRIG (R450): SNAP_CTRL.TRIG fires the HOST snapshot source. -/
  | trig (m : Master)
  /-- LIFE_CYCLE_REQUEST (R455): A valid OTP_LC_REQ write starts a wipe and the OTP programming of the new state, or sets REQ_ERR. -/
  | lifeCycleRequest (m : Master) (v : Word)
  /-- OUTPUT_DELAY_ARRIVAL (R311): A walking PLL output delay reaches its written DLY target, and PLLp_OUTk_DLY.MOVING clears. -/
  | outputDelayArrival (p : Fin 2) (k : Fin 14)
  /-- HEADER_READ_DONE (R426): The 64-byte image header read, or the warm-start record header read, completes; MAGIC and HCRC are checked, with a retry using a 4-byte address; PDMASK domains are requested; and the stage-0 read with the FLASH settings begins. -/
  | headerReadDone (bytes : List Byte)
  /-- DRAIN_BEGIN (R35): At the boundary chosen by the epoch cause, the data plane stops, outputs carry zero, inputs are discarded and STATE reads DRAIN. -/
  | drainBegin
  /-- DRAIN_CLEAR_DONE (R36): The drain clear completes, so the new epoch can start at the next eligible tick boundary. -/
  | drainClearDone
  /-- EPOCH_START (R37): At the first domain-A boundary after the clear with ENG_CLK running, TSTAMP is set to 0, the epoch number and cause are updated, and engines restart. -/
  | epochStart
  /-- TICK_BOUNDARY (R56): At each tick boundary of a rate domain, every action of Table 02-2 takes place at one ENG_CLK edge. -/
  | tickBoundary
  /-- MIRROR_RING_WRITE (R82): A delay-store write mirrored from a source engine lands in the target store and sets its dirty bit. -/
  | mirrorRingWrite
  /-- COMMIT_CUTOFF (R118): At the cutoff of an eligible common boundary, the accumulating commit freezes, and patches, routes and ranks are resolved and checked. -/
  | commitCutoff
  /-- COMMIT_APPLY (R120): At E_B, the named objects swap shadow and active copies, and the Mordant status registers update. -/
  | commitApply
  /-- RECONCILE_END (R119): The last dirty word is copied, all frozen objects are released, and held writes land in arrival order. -/
  | reconcileEnd
  /-- PAIR_START_CHECK_DONE (R144): The pair-start check ends, and the pair enters LOCKSTEP with both members cleared and start-pending, or the start is refused. -/
  | pairStartCheckDone
  /-- MIGRATION_CHECK_DONE (R154): The program and parameter check ends with a pass, which begins mirroring and the sweep, or with PROG or SET. -/
  | migrationCheckDone
  /-- SWEEP_END (R156): The history sweep completes, and the migration becomes ARMED. -/
  | sweepEnd
  /-- HANDOVER_CUTOFF (R158): The cutoff of the first eligible boundary selects T and reports it in MIG_TACT. -/
  | handoverCutoff
  /-- HANDOVER (R159): At E_T, Y takes X's registers and glide state, starts run T_D, and the alias is set. -/
  | handover
  /-- HANDOVER_VERIFY (R162): At E_{T+1} and E_{T+2} the outputs of X and Y are compared, and at E_{T+2} X stops and DONE is set. -/
  | handoverVerify
  /-- RATE_SET_BOUNDARY (R171): At a rate-set boundary, k changes for domains not in use, domains enter or leave use, and M is recomputed. -/
  | rateSetBoundary
  /-- RETUNE_STEP (R308): After 16 good reference cycles the DCO target moves one further step. -/
  | retuneStep
  /-- MCLK_DIVIDER_BOUNDARY (R310): At the divider boundary, the MCLK outputs gate low and the shadow dividers become active. -/
  | mclkDividerBoundary
  /-- MCLK_RESTART (R310): After the relock interval the MCLK outputs restart together at a tick boundary. -/
  | mclkRestart
  /-- CRYSTAL_LOSS (R315): The crystal monitor declares the crystal lost: PLLs gate, HALT is entered, and clocks switch to the RC oscillator. -/
  | crystalLoss
  /-- CRYSTAL_GOOD (R317): After 10 ms without a loss condition, the SPLL and APLL relock, and a new epoch follows. -/
  | crystalGood
  /-- OCHRE_SECOND (R324): Each second, the mean steering of the selected reference is recorded for holdover. -/
  | ochreSecond
  /-- SLEW_END (R326): The slew reaches the remaining phase 0, and SLEWING clears. -/
  | slewEnd
  /-- SEAL_DONE (R345): The seal sequence writes its state word as SEALED, and SEALING clears. -/
  | sealDone
  /-- TAMPER (R348): TAMPER_N held low for 1 µs triggers a wipe with cause 0x1. -/
  | tamper
  /-- VOLTAGE_GLITCH (R464): A voltage-glitch detector fires and triggers a wipe with cause 0x2. -/
  | voltageGlitch
  /-- CLOCK_GLITCH (R348): A crystal phase shorter than 8 ns triggers a wipe with cause 0x3. -/
  | clockGlitch
  /-- MRAM_WORD_WRITE_DONE (R353): A queued word write completes in the array, and its response returns. -/
  | mramWordWriteDone
  /-- VIN_BROWN_OUT (R464): VIN falls below the brown-out threshold: the MRAM write finishes, PD1–PD7 switch off, and PD0 is held in reset. -/
  | vinBrownOut
  /-- CAN_INTEGRATION_DONE (R407): After 11 recessive bits the listener enters RECEIVE. -/
  | canIntegrationDone
  /-- CHIME_TONE_PERIOD (R419): A chime tone period ends, where source changes and stops take effect. -/
  | chimeTonePeriod
  /-- CHIME_STEP_END (R421): A pattern step's duration expires, and the chime moves to the next step or repeats. -/
  | chimeStepEnd
  /-- CHIME_OVERCURRENT (R477): A chime leg carries over 300 mA for 2 µs, and both legs switch low until the next period. -/
  | chimeOvercurrent
  /-- VIN_VALID (R467): VIN rises through its valid threshold, and the 1 ms reset hold starts. -/
  | vinValid
  /-- POWER_ON_RESET (R424): Reset is released 1 ms after VIN valid and the pins, and the boot sequencer starts at step 2. -/
  | powerOnReset
  /-- CRYSTAL_START_TIMEOUT (R423): The crystal is not good 10 ms after step 2, so it is declared lost and the chime sounds. -/
  | crystalStartTimeout
  /-- BOOT_RETRY_BACKOFF (R427): After a failed read attempt the backoff expires, and the header or stage is read again. -/
  | bootRetryBackoff
  /-- WARM_START_WRITE (R438): After epoch 1 of a flash boot, the boot sequencer writes the warm-start record. -/
  | warmStartWrite
  /-- PD1_FAULT_RETRY (R445): 100 ms after a PD1 fault, the boot runs again from step 4. -/
  | pd1FaultRetry
  /-- SLEEP_ENTRY (R446): At the next common boundary the data plane stops, and the domains go down as sleep requests. -/
  | sleepEntry
  /-- PARK_INTERVAL (R448): Each parking interval, one more Indigo cluster is parked or returned. -/
  | parkInterval
  /-- SAFE_STATE_EXIT (R449): After 10 s below 115 °C the boot runs steps 6–10, and a new epoch starts. -/
  | safeStateExit
  /-- OTP_PROGRAMMING_DONE (R455): OTP programming completes, DONE is set, and PEND_LC holds the target. -/
  | otpProgrammingDone
  deriving DecidableEq, Repr

end Sys2Proof
end

