-- ==== Sys2Proof/Machine/Bits.lean ====
section
/-! DEFINITION. Bit fields, two's complement, rounding, saturation, byte order (R3 to R6) and the accessors of
fixed-length arrays and of sparse stores in canonical form. -/

namespace Sys2Proof.Machine

/-- `fieldOf x lo w`: bits [lo+w-1:lo] of `x` (R4). -/
def fieldOf (x lo w : Nat) : Nat := (x >>> lo) % 2 ^ w

/-- `putField x lo w v`: `x` with bits [lo+w-1:lo] set to the low `w` bits of `v` (R4). -/
def putField (x lo w v : Nat) : Nat := x - (fieldOf x lo w) * 2 ^ lo + (v % 2 ^ w) * 2 ^ lo

/-- Bit `i` of `x`. -/
def bitOf (x i : Nat) : Bool := x.testBit i

/-- A flag as the number it is written as. -/
def b2n (b : Bool) : Nat := if b then 1 else 0

/-- The low `w` bits of `x` read as two's complement (R6). -/
def sx (w x : Nat) : Int :=
  if x % 2 ^ w < 2 ^ (w - 1) then (x % 2 ^ w : Nat) else (x % 2 ^ w : Nat) - (2 ^ w : Nat)

/-- The `w`-bit two's-complement code of `i` (R6). -/
def tc (w : Nat) (i : Int) : Nat := (i % (2 ^ w : Nat)).toNat

/-- `i` held within the `w`-bit signed range, and whether it had to be clipped. -/
def satTo (w : Nat) (i : Int) : Int × Bool :=
  if i > (2 ^ (w - 1) : Nat) - 1 then (((2 ^ (w - 1) : Nat) : Int) - 1, true)
  else if i < -((2 ^ (w - 1) : Nat) : Int) then (-((2 ^ (w - 1) : Nat) : Int), true)
  else (i, false)

/-- A 32-bit word from an integer, modulo 2^32. -/
def wrap32 (i : Int) : Word := BitVec.ofInt 32 i

/-- A 32-bit word from an integer, saturated to [-2^31, 2^31-1], and whether it clipped. -/
def sat32 (i : Int) : Word × Bool := (BitVec.ofInt 32 (satTo 32 i).1, (satTo 32 i).2)

/-- `floor (i / 2^n)`: an arithmetic shift right. -/
def asr (i : Int) (n : Nat) : Int := i / (2 ^ n : Nat)

/-- `i / 2^n` rounded to the nearest integer, ties toward +infinity; `n = 0` leaves `i`. -/
def rnd (i : Int) (n : Nat) : Int := if n = 0 then i else asr (i + (2 ^ (n - 1) : Nat)) n

/-- Round to nearest of `a / b` for `b > 0`, ties toward +infinity. -/
def divRnd (a : Int) (b : Nat) : Int := (2 * a + b) / (2 * b : Nat)

/-- Read element `i` of an array of fixed length; outside it, `d`. -/
def ng {α : Type} {n : Nat} (v : Vector α n) (i : Nat) (d : α) : α := if h : i < n then v[i] else d

/-- The array with element `i` set; outside it, unchanged. -/
def ns {α : Type} {n : Nat} (v : Vector α n) (i : Nat) (x : α) : Vector α n := v.setIfInBounds i x

/-- A sparse store: the value at `k`, where `d` says what an unlisted key reads as. -/
def spGet {α : Type} (d : Nat → α) : List (Nat × α) → Nat → α
  | [], k => d k
  | (j, x) :: l, k => if j = k then x else spGet d l k

/-- Insert or replace the entry at `k` in a list of rising keys. -/
def spPut {α : Type} (k : Nat) (x : α) : List (Nat × α) → List (Nat × α)
  | [] => [(k, x)]
  | (j, y) :: l =>
    if k < j then (k, x) :: (j, y) :: l
    else if k = j then (k, x) :: l
    else (j, y) :: spPut k x l

/-- Remove the entry at `k`. -/
def spDel {α : Type} (k : Nat) (l : List (Nat × α)) : List (Nat × α) := l.filter (fun e => !(e.1 == k))

/-- Set the value at `k`, keeping the canonical form: rising keys, and no entry that equals what an unlisted key reads as. -/
def spSet {α : Type} [DecidableEq α] (d : Nat → α) (l : List (Nat × α)) (k : Nat) (x : α) : List (Nat × α) :=
  if x = d k then spDel k l else spPut k x l

/-- Drop every entry with a key in [lo, hi): those keys then read as unlisted. -/
def spClear {α : Type} (lo hi : Nat) (l : List (Nat × α)) : List (Nat × α) :=
  l.filter (fun e => !(decide (lo ≤ e.1) && decide (e.1 < hi)))

/-- Insert `k` in a rising list without repeats. -/
def setIns (k : Nat) : List Nat → List Nat
  | [] => [k]
  | j :: l => if k < j then k :: j :: l else if k = j then j :: l else j :: setIns k l

/-- The four bytes of a word, least significant first (R5). -/
def wordBytes (v : Word) : List Byte :=
  [v.extractLsb' 0 8, v.extractLsb' 8 8, v.extractLsb' 16 8, v.extractLsb' 24 8]

/-- The word whose bytes, least significant first, are these (R5). -/
def bytesWord (b0 b1 b2 b3 : Byte) : Word :=
  BitVec.ofNat 32 (b0.toNat + 2 ^ 8 * b1.toNat + 2 ^ 16 * b2.toNat + 2 ^ 24 * b3.toNat)

/-- The little-endian number that a list of bytes spells (R5). -/
def leNat : List Byte → Nat
  | [] => 0
  | b :: l => b.toNat + 256 * leNat l

/-- The big-endian number that a list of bytes spells (R375). -/
def beNat (l : List Byte) : Nat := l.foldl (fun a b => a * 256 + b.toNat) 0

/-- The largest `r` with `r * r ≤ n`, by `k` binary digits. -/
def isqrtBits (n : Nat) : Nat → Nat → Nat
  | 0, r => r
  | k + 1, r => if (r + 2 ^ k) * (r + 2 ^ k) ≤ n then isqrtBits n k (r + 2 ^ k) else isqrtBits n k r

/-- The integer square root of a number below 2^128. -/
def isqrt (n : Nat) : Nat := isqrtBits n 64 0

end Sys2Proof.Machine
end

