-- ==== Sys2Proof/Config.lean ====
section
/-! DEFINITION. What the spec leaves open, as opaque constants: no proof can see their values. Each has a row in the
assumption log. -/

namespace Sys2Proof.Config

/-- The `n`-th free word the machine draws (an unstated value that the spec does not bound). -/
opaque freeWord : Nat → Word

/-- R210: which integer within 1 LSB of the exact sine a generator gives, by amplitude and phase. -/
opaque sinePick : Nat → Word → Nat

/-- R206: the error of the fixed-point logarithm in units of 2^-24 dB, clamped by the model to ±0.01 dB. -/
opaque umbLevelErr : (level : Int) → Int

/-- R206: the error of the fixed-point smoothing in units of 2^-24 dB, clamped by the model to ±0.01 dB. -/
opaque umbGainErr : (g : Int) → Int

/-- R206: the error of the fixed-point output gain in units of 2^-24 dB, clamped by the model to ±0.01 dB. -/
opaque umbOutErr : (g : Int) → Int

/-- R206: the level that an RMS detector gives for a mean square of 0, in units of 2^-24 dB: the logarithm of 0. -/
opaque umbLevelZero : Int

/-- Table 07-8: what a KNEE, MAKEUP or RANGE value outside its stated range acts as, by word and value. -/
opaque umbField : (word value : Nat) → Nat

/-- Table 07-8: the value that a VSIG from 48 up gives, which names no signal. -/
opaque noSignal : Nat → Int

/-- R296: the error of a microphone's gain in units of 2^-24 dB, clamped by the model to ±0.01 dB. -/
opaque pdmGainErr : (gain : Nat) → Int

/-- R287: the delay that ASRC_DLYg reports, in units of 2^-16 tick, from the ratio register and the frames in the port's IN FIFO,
clamped by the model to the FIFO's time and 1.2 ms ± 1 / F_low. -/
opaque asrcDelay : (ratio frames : Nat) → Nat

/-- R325: the steering, in units of 2^-32, that the loop moves toward, from BW, the steering before and the offset of the
selected reference; the model holds s within ±2,500 ppm and its change within SLEW_MAX. -/
opaque ochreTrack : (bw : Nat) → (s off : Int) → Int

end Sys2Proof.Config
end

