-- ==== Sys2Proof/Machine/Bands.lean ====
section
/-! DEFINITION. The filters that the spec states by bands and corners and not by coefficients: what a table asks of coefficients, as
a property of them, and the coefficients themselves as constants with no body that carry a proof of it. A constant with no body
must have a type that Lean knows to be inhabited, so each is optional; where it were absent, no coefficients would meet the table,
and the samples that need them are free words. -/

namespace Sys2Proof.Config

/-! ## Frequency responses

A filter is a function of the distance from its centre, `tap`, which makes it linear-phase with one delay at every frequency. It is
heard on the points `off + g m` within `half` of the centre; frequencies are in cycles per unit of distance. -/

/-- The magnitude of the response at the frequency `f` is at most `scale` and `db` decibels. -/
def gainAtMost (tap : Nat → Int) (half g : Nat) (off : Int) (scale : ℝ) (f db : ℝ) : Prop :=
  ‖∑ x ∈ (Finset.Icc (-(half : Int)) half).filter (fun x => (g : Int) ∣ x - off),
      (tap x.natAbs : ℂ) * Complex.exp (2 * Real.pi * f * x * Complex.I)‖ ≤ scale * (10 : ℝ) ^ (db / 20)

/-- The magnitude of the response at the frequency `f` is at least `scale` and `db` decibels. -/
def gainAtLeast (tap : Nat → Int) (half g : Nat) (off : Int) (scale : ℝ) (f db : ℝ) : Prop :=
  scale * (10 : ℝ) ^ (db / 20) ≤ ‖∑ x ∈ (Finset.Icc (-(half : Int)) half).filter (fun x => (g : Int) ∣ x - off),
      (tap x.natAbs : ℂ) * Complex.exp (2 * Real.pi * f * x * Complex.I)‖

/-- At the frequency `f` the points `off + g m` alone give what all points give, but for a remainder of at most `scale` and `db`
decibels. -/
def phaseErrAtMost (tap : Nat → Int) (half g : Nat) (off : Int) (scale : ℝ) (f db : ℝ) : Prop :=
  ‖(∑ x ∈ (Finset.Icc (-(half : Int)) half).filter (fun x => (g : Int) ∣ x - off),
      (g : ℂ) * tap x.natAbs * Complex.exp (2 * Real.pi * f * x * Complex.I)) -
    ∑ x ∈ Finset.Icc (-(half : Int)) half, (tap x.natAbs : ℂ) * Complex.exp (2 * Real.pi * f * x * Complex.I)‖ ≤
  scale * (10 : ℝ) ^ (db / 20)

/-! ## Bridges (Table 06-6) -/

/-- Table 06-6 of a bridge's taps, in units of 2^-48, by the tick lengths of its two sides in quarter ticks and the distance from the
centre in 1/256 of a quarter tick. The response ends 28 samples of F_low on either side of the centre, at every TRIM. -/
def BridgeMask (tap : (pIn pOut dist : Nat) → Int) : Prop :=
  ∀ pi po trim : Nat, 0 < pi → 0 < po → pi ≠ po → trim < 256 → ∀ f : ℝ, 0 ≤ f →
    let low : ℝ := max pi po * 256
    let high : ℝ := min pi po * 256
    let g := Nat.gcd pi po * 256
    let scale : ℝ := 2 ^ 48 * (pi * 256) / g
    let most := gainAtMost (tap pi po) (28 * max pi po * 256) g (trim * po : Nat) scale f
    let least := gainAtLeast (tap pi po) (28 * max pi po * 256) g (trim * po : Nat) scale f
    (f ≤ 0.40 / low → least (-0.005) ∧ most 0.005) ∧
    (0.40 / low ≤ f → f ≤ 0.50 / low → least (-110) ∧ most 0.005) ∧
    (0.50 / low ≤ f → f ≤ 0.50 / high → most (-110))

/-- The taps of a bridge (R180). -/
structure BridgeFir where
  tap : (pIn pOut dist : Nat) → Int
  mask : BridgeMask tap

/-- R180: the taps that every bridge applies. -/
opaque bridge : Option BridgeFir

/-! ## ASRCs (Table 10-3) -/

/-- Table 10-3 of a converter's taps, in units of 2^-48, by the domain's rate in hertz, the ratio register, the direction and the
distance from the centre in 2^-24 input samples, and of its delay in the same units: the pass band, the stop band, the group delay,
and the tone of 1 kHz, whose remainder at any phase of the output among the input samples is distortion and noise. -/
def AsrcMask (tap : (rate ratio dir dist : Nat) → Int) (delay : (rate ratio dir : Nat) → Nat) : Prop :=
  ∀ rate ratio dir : Nat, 0 < rate → 2 ^ 24 ≤ 7 * ratio → ratio ≤ 7 * 2 ^ 24 → dir < 2 →
    let port : ℝ := rate * ratio / 2 ^ 24
    let lowHz : ℝ := min (rate : ℝ) port
    let unit : ℝ := (if dir = 0 then port else rate) * 2 ^ 24
    let low : ℝ := lowHz / unit
    let d := delay rate ratio dir
    let k := tap rate ratio dir
    |(d : ℝ) / unit - 0.0012| ≤ 1 / lowHz ∧
    (∀ f : ℝ, 0 ≤ f → f ≤ 0.45 * low → gainAtLeast k d 1 0 (2 ^ 72) f (-0.005) ∧ gainAtMost k d 1 0 (2 ^ 72) f 0.005) ∧
    (∀ f : ℝ, 0.55 * low ≤ f → f ≤ 0.5 → gainAtMost k d 1 0 (2 ^ 72) f (-120)) ∧
    (1000 ≤ 0.45 * lowHz → ∀ off : Nat, off < 2 ^ 24 → phaseErrAtMost k d (2 ^ 24) off (2 ^ 72) (1000 / unit) (-130))

/-- The taps and the delay of the converters (R287), and where the first output stands among the input samples, in 2^-24 input
samples. -/
structure AsrcFir where
  tap : (rate ratio dir dist : Nat) → Int
  delay : (rate ratio dir : Nat) → Nat
  first : (rate ratio dir : Nat) → Nat
  mask : AsrcMask tap delay

/-- R287: what every ASRC channel applies. -/
opaque asrc : Option AsrcFir

/-- BW of ASRC_CFGg in half hertz; codes 6 and 7 act as 20 Hz. -/
def asrcBw : Nat → Nat
  | 0 => 1
  | 1 => 2
  | 2 => 4
  | 3 => 10
  | 4 => 20
  | _ => 40

/-- Tracking bandwidth of Table 10-3: the tracked period moves by the share `gain`, in units of 2^-48, of its distance from each new
period, which attenuates jitter above the corner at 20 dB per decade; the corner, −3 dB, is BW to one part in 2^20. -/
def LoopMask (gain : (bw engHz trk : Nat) → Nat) : Prop :=
  ∀ bw engHz trk : Nat, 0 < engHz → 2 ^ 12 ≤ trk →
    let w : ℝ := Real.pi * asrcBw bw * (trk / 2 ^ 12) / engHz
    let a : ℝ := gain bw engHz trk / 2 ^ 48
    let denom : ℝ := 1 + (1 - a) ^ 2 - 2 * (1 - a) * Real.cos w
    w ≤ 1 / 8 → a ≤ 1 ∧ |2 * a ^ 2 - denom| ≤ denom / 2 ^ 20

/-- The gain of an estimator's loop (R288, R289). -/
structure LoopGain where
  gain : (bw engHz trk : Nat) → Nat
  mask : LoopMask gain

/-- R289: the loop of every ratio estimator. -/
opaque asrcLoop : Option LoopGain

/-! ## PDM decimators (R296, Table 10-5) -/

/-- Table 10-5 of a decimator's taps, in units of 2^-48, by D and the distance from the centre in half bits: a constant density ρ
gives 2ρ - 1, the bands are those of the table, and the response ends 20 output samples on either side of the centre. -/
def PdmMask (tap : (d dist : Nat) → Int) : Prop :=
  ∀ d : Nat, 8 ∣ d → 32 ≤ d → d ≤ 768 →
    (∑ j ∈ Finset.range (20 * d), 2 * tap d (2 * j + 1)) = 2 ^ 48 ∧
    ∀ f : ℝ, 0 ≤ f →
      (f ≤ 0.40 / (2 * d) → gainAtLeast (tap d) (40 * d) 2 1 (2 ^ 48) f (-0.02) ∧ gainAtMost (tap d) (40 * d) 2 1 (2 ^ 48) f 0.02) ∧
      (0.50 / (2 * d) ≤ f → f ≤ 1 / 4 → gainAtMost (tap d) (40 * d) 2 1 (2 ^ 48) f (-95))

/-- The taps of a decimator (R296). -/
structure PdmFir where
  tap : (d dist : Nat) → Int
  mask : PdmMask tap

/-- R296: the taps of every PDM decimator. -/
opaque pdmFir : Option PdmFir

/-- DCF in hertz. -/
def dcfHz : Nat → Nat
  | 1 => 2
  | 2 => 10
  | _ => 40

/-- The DC filter's gain and pole, in units of 2^-48, by DCF and the output rate in hertz: unit gain at half the output rate to the
last place, and −3 dB at the corner to one part in 2^20 (R296). -/
def DcMask (gain pole : (dcf rate : Nat) → Int) : Prop :=
  ∀ dcf rate : Nat, 0 < dcf → dcf < 4 → 1000 ≤ rate → rate ≤ 96000 →
    let w : ℝ := 2 * Real.pi * dcfHz dcf / rate
    let g : ℝ := gain dcf rate / 2 ^ 48
    let p : ℝ := pole dcf rate / 2 ^ 48
    let denom : ℝ := 1 + p ^ 2 - 2 * p * Real.cos w
    |pole dcf rate| < 2 ^ 48 ∧ |2 * gain dcf rate - (2 ^ 48 + pole dcf rate)| ≤ 1 ∧
    |2 * (g ^ 2 * (2 - 2 * Real.cos w)) - denom| ≤ denom / 2 ^ 20

/-- The DC filter (R296). -/
structure DcFilter where
  gain : (dcf rate : Nat) → Int
  pole : (dcf rate : Nat) → Int
  mask : DcMask gain pole

/-- R296: the DC filter of every microphone. -/
opaque dcFilter : Option DcFilter

end Sys2Proof.Config
end

