-- ==== Sys2Proof/Machine/Math.lean ====
section
/-! DEFINITION. The real functions that the fabric's rules name, in fixed point: sine (R198, R210), logarithm, powers and
exponentials (R206), and the exact amplitude of R210. -/

namespace Sys2Proof.Machine

/-- `k` further terms of the sine series after the term `t`, with `x2` the square of the angle, in units of 2^-96. -/
def sinTerms (x2 : Int) : Nat → Nat → Int → Int
  | 0, _, t => t
  | n + 1, k, t => t + sinTerms x2 n (k + 1) (-(t * x2 / (2 ^ 96 : Nat)) / ((2 * k) * (2 * k + 1) : Nat))

/-- sin(pi/2 × a/b) for 0 ≤ a ≤ b, in units of 2^-96; the constant is pi/2. -/
def sinQ (a b : Nat) : Int :=
  let x : Int := (124451306656115542615260972311 * a / b : Nat)
  sinTerms (x * x / (2 ^ 96 : Nat)) 24 1 x

/-- The equal-power weight of sample `j` of `n`: round(sin(pi j / 2n) × 2^31), ties up (R198). -/
def sinWeight (j n : Nat) : Int := if n ≤ j then (2 ^ 31 : Nat) else rnd (sinQ j n) 65

/-- The weight w_in of sample `j` of `n` (R198). -/
def weightIn (law : Bool) (j n : Nat) : Int := if law then sinWeight j n else (j * 2 ^ 31 / n : Nat)

/-- sin(2 pi × phase / 2^32) in units of 2^-96. -/
def sinPhase (phase : Nat) : Int :=
  let r := phase % 2 ^ 30
  match phase / 2 ^ 30 with
  | 0 => sinQ r (2 ^ 30)
  | 1 => sinQ (2 ^ 30 - r) (2 ^ 30)
  | 2 => -sinQ r (2 ^ 30)
  | _ => -sinQ (2 ^ 30 - r) (2 ^ 30)

/-- The amplitude A for a LEVEL, by `k` binary digits above `a`: the largest A with
(2A - 1)^200 × 10^LEVEL ≤ (2 × 0x7FFFFFFF)^200 (R210). -/
def ampBits (level : Nat) : Nat → Nat → Nat
  | 0, a => a
  | k + 1, a =>
    if (2 * (a + 2 ^ k) - 1) ^ 200 * 10 ^ level ≤ (2 * 0x7FFFFFFF) ^ 200 then ampBits level k (a + 2 ^ k)
    else ampBits level k a

/-- The amplitude of a generator: round(0x7FFFFFFF × 10^(-LEVEL/200)), ties up; LEVEL above 1440 acts as 1440 (R210). -/
def tgAmp (level : Nat) : Nat := ampBits (min level 1440) 31 0

/-- `n` binary digits of a logarithm: `m` is a mantissa in [2^64, 2^65). -/
def logBits : Nat → Nat → Nat → Nat
  | 0, _, r => r
  | n + 1, m, r =>
    let q := m * m / 2 ^ 64
    if 2 ^ 65 ≤ q then logBits n (q / 2) (2 * r + 1) else logBits n q (2 * r)

/-- log2 x in units of 2^-32, for x > 0. -/
def log2Fix (x : Nat) : Int :=
  ((Nat.log2 x * 2 ^ 32 + logBits 32 (x * 2 ^ 64 / 2 ^ Nat.log2 x) 0 : Nat) : Int)

/-- `n` further terms of e^x after the term `t`, in units of 2^-96. -/
def expTerms (x : Int) : Nat → Nat → Int → Int
  | 0, _, t => t
  | n + 1, k, t => t + expTerms x n (k + 1) (t * x / (2 ^ 96 : Nat) / (k : Nat))

/-- e^x in units of 2^-96, for |x| below 4 in the same units. -/
def expFix (x : Int) : Int := expTerms x 48 1 (2 ^ 96 : Nat)

/-- 1 - e^(-a/b) in units of 2^-62, for a/b below 4; 1 for b = 0. -/
def expAlpha (a b : Nat) : Int :=
  if b = 0 then (2 ^ 62 : Nat) else rnd ((2 ^ 96 : Nat) - expFix (-((a * 2 ^ 96 / b : Nat) : Int))) 34

/-- 10^(v/20) for a level `v` in units of 2^-24 dB, in units of 2^-40; levels below -480 dB give 0. -/
def pow20 (v : Int) : Int :=
  let e := v * 3063937869882635622 / (2 ^ 56 : Nat)
  let k := e / (2 ^ 32 : Nat)
  let f := e % (2 ^ 32 : Nat)
  let m := expFix (f * 54916777467707473351141471128 / (2 ^ 32 : Nat))
  if k < -80 then 0
  else if k < 0 then rnd m (56 + (-k).toNat)
  else rnd (m * (2 ^ k.toNat : Nat)) 56

end Sys2Proof.Machine
end

