-- ==== Sys2Proof/Machine/RegTable.lean ====
section
/-! DEFINITION. The registers' layout (R8 to R13): where each register of the field tables stands, its value after
power-on reset, and which of its bits a bus access writes (RW, RWM, RWD), clears by writing 1 (W1C), sets by writing 1
(W1S) or clears by reading (RC). Bits in no mask keep their value on a write: RO, reserved, or acted on by the
register's own rule. -/

namespace Sys2Proof.Machine

/-- One row: `n1` repeats at stride `s1` of `n2` repeats at stride `s2`, from `base`. -/
structure RegDesc where
  base : Nat
  n1 : Nat
  s1 : Nat
  n2 : Nat
  s2 : Nat
  reset : Nat
  rw : Nat
  w1c : Nat
  w1s : Nat
  rc : Nat
  deriving DecidableEq, Repr

/-- The rows of the register blocks Sys. -/
def regRowsSys : List RegDesc := [
  ⟨0x08000000, 1, 4, 1, 4, 0x88161000, 0, 0, 0, 0⟩, -- SYS_ID
  ⟨0x08000004, 1, 4, 1, 4, 0, 0, 0, 0, 0⟩, -- SYS_STATE
  ⟨0x08000008, 1, 4, 1, 4, 0, 0, 0, 0, 0⟩, -- SYS_CTRL
  ⟨0x0800000C, 1, 4, 1, 4, 0, 0, 0, 0, 0⟩, -- SYS_EPOCH
  ⟨0x08000010, 1, 4, 1, 4, 0, 0, 0, 0, 0⟩, -- SYS_TSTAMP_LO
  ⟨0x08000014, 1, 4, 1, 4, 0, 0, 0, 0, 0⟩, -- SYS_TSTAMP_HI
  ⟨0x08001000, 1, 4, 1, 4, 0, 0xCFC, 0, 0, 0⟩, -- PWR_REQ
  ⟨0x08001004, 1, 4, 1, 4, 0x33, 0, 0, 0, 0⟩, -- PWR_STAT
  ⟨0x08001008, 1, 4, 1, 4, 0, 0x10000, 0, 0, 0⟩, -- PWR_CTRL
  ⟨0x0800100C, 1, 4, 1, 4, 0, 0, 0xF, 0, 0⟩, -- PWR_EVT
  ⟨0x08001010, 1, 4, 1, 4, 0, 0, 0, 0, 0⟩, -- BOOT_STATUS
  ⟨0x08001014, 1, 4, 1, 4, 0, 0, 0, 0, 0⟩, -- BOOT_IMAGE_ID
  ⟨0x08001018, 1, 4, 1, 4, 0, 0, 0, 0, 0⟩, -- FLOG_SEQ
  ⟨0x0800101C, 1, 4, 1, 4, 0, 0, 0, 0, 0xFFFF⟩, -- FLOG_DROP
  ⟨0x08002000, 2, 0x100, 1, 4, 0, 0x100, 0, 0, 0⟩, -- PLLp_CTRL
  ⟨0x08002004, 1, 4, 1, 4, 0x82000005, 0, 0, 0, 0⟩, -- PLL0_MULT
  ⟨0x08002008, 1, 4, 1, 4, 0x18, 0, 0, 0, 0⟩, -- PLL0_MDEN
  ⟨0x0800200C, 2, 0x100, 1, 4, 0x1000010, 0xFFFF00FF, 0, 0, 0⟩, -- PLLp_LOCK
  ⟨0x08002010, 2, 0x100, 1, 4, 0, 0, 0xF00, 0, 0⟩, -- PLLp_STATUS
  ⟨0x08002014, 2, 0x100, 1, 4, 0, 0, 0, 0, 0⟩, -- PLLp_PHERR
  ⟨0x08002020, 2, 0x100, 8, 4, 0, 0, 0, 0, 0⟩, -- PLLp_BANDk
  ⟨0x08002040, 1, 4, 1, 4, 0x83280004, 0x3FFFFFF, 0, 0, 0⟩, -- PLL0_OUT0_CFG
  ⟨0x08002044, 4, 8, 1, 4, 0, 0xFFFFF, 0, 0, 0⟩, -- PLL0_OUTk_DLY
  ⟨0x08002048, 1, 4, 1, 4, 0x81940008, 0x3FF0000, 0, 0, 0⟩, -- PLL0_OUT1_CFG
  ⟨0x08002050, 1, 4, 1, 4, 0x80CA0010, 0x3FF0000, 0, 0, 0⟩, -- PLL0_OUT2_CFG
  ⟨0x08002058, 1, 4, 1, 4, 0x80650020, 0x3FF0000, 0, 0, 0⟩, -- PLL0_OUT3_CFG
  ⟨0x08002104, 1, 4, 1, 4, 0x60000000, 0xFFFFFFFF, 0, 0, 0⟩, -- PLL1_MULT
  ⟨0x08002108, 1, 4, 1, 4, 1, 0xFFFFFF, 0, 0, 0⟩, -- PLL1_MDEN
  ⟨0x08002140, 1, 4, 1, 4, 0x2580004, 0x3FF0000, 0, 0, 0⟩, -- PLL1_OUT0_CFG
  ⟨0x08002144, 14, 8, 1, 4, 0, 0xFFFFF, 0, 0, 0⟩, -- PLL1_OUTk_DLY
  ⟨0x08002148, 4, 8, 1, 4, 0x320060, 0x83FFFFFF, 0, 0, 0⟩, -- PLL1_OUT1_CFG to OUT4
  ⟨0x08002168, 6, 8, 1, 4, 0x190000, 0x3FF0000, 0, 0, 0⟩, -- PLL1_OUT5_CFG to OUT10
  ⟨0x08002198, 3, 8, 1, 4, 0x70300, 0x3FF0000, 0, 0, 0⟩, -- PLL1_OUT11_CFG to OUT13
  ⟨0x08002200, 1, 4, 1, 4, 0, 0, 0x100, 0, 0⟩, -- CLK_XTAL
  ⟨0x08003000, 1, 4, 1, 4, 0x80000032, 0xEF000FFF, 0, 0, 0⟩, -- OC_SEL
  ⟨0x08003004, 1, 4, 1, 4, 0x21003, 0xF3F0F, 0, 0, 0⟩, -- OC_LOOP
  ⟨0x08003008, 1, 4, 1, 4, 0x64, 0x1FF, 0, 0, 0⟩, -- OC_SLEW_MAX
  ⟨0x0800300C, 1, 4, 1, 4, 0, 0, 0, 0, 0⟩, -- OC_PHASE_STEP
  ⟨0x08003010, 1, 4, 1, 4, 0x3F, 0, 0xF0000, 0, 0⟩, -- OC_STATE
  ⟨0x08003014, 1, 4, 1, 4, 0, 0, 0, 0, 0⟩, -- OC_FREQ
  ⟨0x08003018, 1, 4, 1, 4, 0, 0, 0, 0, 0⟩, -- OC_HOFREQ
  ⟨0x0800301C, 1, 4, 1, 4, 0, 0, 0, 0, 0⟩, -- OC_PHASE_REM
  ⟨0x08003040, 8, 8, 1, 4, 0x64000A, 0xF7FF00FF, 0, 0, 0⟩, -- OC_REF_CFG0 to 7
  ⟨0x08003044, 9, 8, 1, 4, 0, 0xFFF, 0, 0, 0⟩, -- OC_REF_WTRr
  ⟨0x08003080, 1, 4, 1, 4, 0xF0000000, 0xF7FF00FF, 0, 0, 0⟩, -- OC_REF_CFG8
  ⟨0x080030C0, 9, 4, 1, 4, 0, 0, 0, 0, 0⟩, -- OC_REF_STATr
  ⟨0x080030F0, 1, 4, 1, 4, 0, 0, 0x1FF01FF, 0, 0⟩, -- OC_REF_EVT
  ⟨0x08003100, 2, 4, 1, 4, 0xBB8000, 0x1FFFFFF, 0, 0, 0⟩, -- OC_REFIN_FNOMi
  ⟨0x08004000, 1, 4, 1, 4, 0x7F, 0x7F, 0, 0, 0⟩, -- SNAP_CTRL
  ⟨0x08004004, 1, 4, 1, 4, 0, 0, 0, 0, 0⟩, -- SNAP_SEQ
  ⟨0x08004100, 160, 4, 1, 4, 0, 0, 0, 0, 0⟩ -- SNAP_DATAi
  ]

/-- The rows of the register blocks Te. -/
def regRowsTe : List RegDesc := [
  ⟨0x08010000, 8, 0x1000, 1, 4, 0, 0x1031, 0, 0, 0⟩, -- TEn_CTRL
  ⟨0x08010004, 8, 0x1000, 1, 4, 0, 0, 0x3F00, 0, 0⟩, -- TEn_STATUS
  ⟨0x08010008, 8, 0x1000, 1, 4, 0, 0x3FFF, 0, 0, 0⟩, -- TEn_PROG_LEN
  ⟨0x0801000C, 8, 0x1000, 1, 4, 0, 0x30F, 0, 0, 0⟩, -- TEn_SCALE
  ⟨0x08010010, 8, 0x1000, 1, 4, 0, 0, 0, 0, 0⟩, -- TEn_SCALE_ACT
  ⟨0x08010014, 8, 0x1000, 1, 4, 0, 0, 0, 0, 0xFFFFFFFF⟩, -- TEn_SAT_CNT
  ⟨0x08010018, 8, 0x1000, 1, 4, 0, 0, 0, 0, 0⟩, -- TEn_WP
  ⟨0x0801001C, 8, 0x1000, 1, 4, 0, 0, 0, 0, 0xFFFFFFFF⟩, -- TEn_EMIT_CNT
  ⟨0x08010020, 8, 0x1000, 1, 4, 0, 0, 0, 0, 0⟩, -- TEn_FLAGS
  ⟨0x08010040, 8, 0x1000, 16, 4, 0, 0xFFFFFFFF, 0, 0, 0⟩, -- TEn_LIVEm
  ⟨0x08010080, 8, 0x1000, 32, 4, 0, 0, 0, 0, 0⟩, -- TEn_DREGm
  ⟨0x08010100, 8, 0x1000, 8, 8, 0, 0, 0, 0, 0⟩, -- TEn_AINTm
  ⟨0x08010104, 8, 0x1000, 8, 8, 0, 0, 0, 0, 0⟩, -- TEn_AFRACm
  ⟨0x08010200, 8, 0x1000, 128, 4, 0, 0xFFFFFFFF, 0, 0, 0⟩ -- TEn_EMIT_TPL
  ]

/-- The rows of the register blocks Md. -/
def regRowsMd : List RegDesc := [
  ⟨0x08020000, 1, 4, 1, 4, 0, 0, 0, 0, 0⟩, -- MD_REQ
  ⟨0x08020004, 1, 4, 1, 4, 0, 0, 0, 0, 0⟩, -- MD_STATUS
  ⟨0x08020008, 1, 4, 1, 4, 0, 0, 0, 0, 0⟩, -- MD_APPLIED_LO
  ⟨0x0802000C, 1, 4, 1, 4, 0, 0, 0, 0, 0⟩, -- MD_APPLIED_HI
  ⟨0x08020010, 1, 4, 1, 4, 0, 0, 0, 0, 0⟩, -- MD_PEND
  ⟨0x08020014, 1, 4, 1, 4, 0xF000000, 0, 0, 0, 0⟩, -- MD_RECON
  ⟨0x08020018, 1, 4, 1, 4, 0, 0, 0x1F, 0, 0⟩, -- MD_ERR
  ⟨0x08020020, 5, 4, 1, 4, 0, 0, 0, 0, 0⟩, -- MD_HOSTh
  ⟨0x08020400, 8, 0x100, 64, 4, 0, 0x800F1FFF, 0, 0, 0⟩, -- MD_GLIDE_CFGn_m
  ⟨0x08020C00, 8, 8, 1, 4, 0, 0, 0, 0, 0⟩, -- MD_GLIDE_BUSYn_LO
  ⟨0x08020C04, 8, 8, 1, 4, 0, 0, 0, 0, 0⟩, -- MD_GLIDE_BUSYn_HI
  ⟨0x08021000, 1, 4, 1, 4, 0, 0x33707, 0, 0, 0⟩, -- MIG_CTRL
  ⟨0x08021004, 1, 4, 1, 4, 0, 0x7FFFF, 0, 0, 0⟩, -- MIG_SWEEP
  ⟨0x08021008, 1, 4, 1, 4, 0, 0xFFFFFFFF, 0, 0, 0⟩, -- MIG_TREQ_LO
  ⟨0x0802100C, 1, 4, 1, 4, 0, 0xFFFF, 0, 0, 0⟩, -- MIG_TREQ_HI
  ⟨0x08021010, 1, 4, 1, 4, 0, 0, 0x7FF00, 0, 0⟩, -- MIG_STATUS
  ⟨0x08021014, 1, 4, 1, 4, 0, 0, 0, 0, 0⟩, -- MIG_REMAIN
  ⟨0x08021018, 1, 4, 1, 4, 0, 0, 0, 0, 0⟩, -- MIG_TACT_LO
  ⟨0x0802101C, 1, 4, 1, 4, 0, 0, 0, 0, 0⟩, -- MIG_TACT_HI
  ⟨0x08021020, 1, 4, 1, 4, 0, 0xFFFFFFFF, 0, 0, 0⟩, -- MIG_ALIAS
  ⟨0x08021100, 4, 0x10, 1, 4, 0, 0x37, 0, 0, 0⟩, -- TWIN_CTRLp
  ⟨0x08021104, 4, 0x10, 1, 4, 0, 0xFFFFFFFF, 0, 0, 0⟩, -- TWIN_TAP_LOp
  ⟨0x08021108, 4, 0x10, 1, 4, 0, 0xFFFFFFFF, 0, 0, 0⟩, -- TWIN_TAP_HIp
  ⟨0x08021140, 1, 4, 1, 4, 0, 0, 0x8080808, 0, 0⟩, -- TWIN_STATUS
  ⟨0x08021150, 4, 8, 1, 4, 0, 0, 0, 0, 0⟩, -- TWIN_MIS_STAMPp
  ⟨0x08021154, 4, 8, 1, 4, 0, 0, 0, 0, 0⟩, -- TWIN_MIS_INFOp
  ⟨0x08022000, 1, 4, 1, 4, 0x4401, 0x7707, 0, 0, 0⟩, -- DOM_CFG
  ⟨0x08022004, 1, 4, 1, 4, 0, 0, 0, 0, 0⟩, -- DOM_CTRL
  ⟨0x08022008, 1, 4, 1, 4, 0x4401, 0, 0, 0, 0⟩, -- DOM_ACT
  ⟨0x0802200C, 1, 4, 1, 4, 1, 0, 0x60000, 0, 0⟩, -- DOM_STATUS
  ⟨0x08022010, 1, 4, 1, 4, 0, 0, 0, 0, 0⟩, -- DOM_DTICKB_LO
  ⟨0x08022014, 1, 4, 1, 4, 0, 0, 0, 0, 0⟩, -- DOM_DTICKB_HI
  ⟨0x08022018, 1, 4, 1, 4, 0, 0, 0, 0, 0⟩, -- DOM_DTICKC_LO
  ⟨0x0802201C, 1, 4, 1, 4, 0, 0, 0, 0, 0⟩, -- DOM_DTICKC_HI
  ⟨0x08022100, 16, 0x10, 1, 4, 0, 0xFF0331, 0, 0, 0⟩, -- BRn_CFG
  ⟨0x08022104, 16, 0x10, 1, 4, 0, 0, 0, 0, 0⟩, -- BRn_LAT
  ⟨0x08022108, 16, 0x10, 1, 4, 0, 0, 0x1C, 0, 0⟩ -- BRn_STATUS
  ]

/-- The rows of the register blocks Rt. -/
def regRowsRt : List RegDesc := [
  ⟨0x08030000, 8192, 4, 1, 4, 0, 0xFFFFFFFF, 0, 0, 0⟩, -- Route table, shadow
  ⟨0x08038000, 8192, 4, 1, 4, 0, 0, 0, 0, 0⟩, -- Route table, active view
  ⟨0x08040000, 256, 0x40, 1, 4, 0, 0xB30F0000, 0, 0, 0⟩, -- Summing nodes, shadow, word 0
  ⟨0x08040004, 256, 0x40, 1, 4, 0, 0xFFFFFFFF, 0, 0, 0⟩, -- Summing nodes, shadow, word 1
  ⟨0x08040008, 256, 0x40, 6, 4, 0, 0, 0, 0, 0⟩, -- Summing nodes, shadow, words 2 to 7
  ⟨0x08040020, 256, 0x40, 8, 4, 0, 0xFFFFFFFF, 0, 0, 0⟩, -- Summing nodes, shadow, words 8 to 15
  ⟨0x08044000, 4096, 4, 1, 4, 0, 0, 0, 0, 0⟩, -- Summing nodes, active view
  ⟨0x08048000, 512, 0x10, 1, 4, 0, 0xC01FF70D, 0, 0, 0⟩, -- Patch table, shadow, word 0
  ⟨0x08048004, 512, 0x10, 1, 4, 0, 0xFFFFFFFF, 0, 0, 0⟩, -- Patch table, shadow, word 1
  ⟨0x08048008, 512, 0x10, 2, 4, 0, 0, 0, 0, 0⟩, -- Patch table, shadow, words 2 and 3
  ⟨0x0804A000, 2048, 4, 1, 4, 0, 0, 0, 0, 0⟩, -- Patch table, active view
  ⟨0x0804C000, 1, 4, 1, 4, 0, 0, 0xFF, 0, 0⟩, -- RT_STATUS
  ⟨0x0804C004, 1, 4, 1, 4, 0, 0, 0, 0, 0⟩, -- RT_LOAD
  ⟨0x0804C008, 1, 4, 1, 4, 0, 0, 0, 0, 0⟩, -- RT_ERR_ENTRY
  ⟨0x0804C00C, 1, 4, 1, 4, 0, 0, 0, 0, 0xFFFFFFFF⟩, -- RT_SAT_CNT
  ⟨0x0804C010, 1, 4, 1, 4, 0, 0, 0, 0, 0⟩, -- RT_SAT_SINK
  ⟨0x0804C014, 1, 4, 1, 4, 0, 0, 0, 0, 0⟩, -- RT_XF_BUSY
  ⟨0x0804C100, 16, 8, 1, 4, 0, 0x8001FFFF, 0, 0, 0⟩, -- RT_MTR_CFGm
  ⟨0x0804C104, 16, 8, 1, 4, 0, 0, 0, 0, 0x7FFFFFFF⟩, -- RT_MTR_PKm
  ⟨0x0804C400, 256, 4, 1, 4, 0, 0, 0x200, 0, 0⟩, -- SUM_STATn
  ⟨0x0804C800, 8, 8, 1, 4, 0, 0xB30007FF, 0, 0, 0⟩, -- TGm_CFG
  ⟨0x0804C804, 8, 8, 1, 4, 0, 0xFFFFFFFF, 0, 0, 0⟩, -- TGm_STEP
  ⟨0x08050000, 32, 0x40, 1, 4, 0, 0xFF0F0FFF, 0, 0, 0⟩, -- Umber sets, shadow, word 0
  ⟨0x08050004, 32, 0x40, 1, 4, 0, 0x3FFFFFF, 0, 0, 0⟩, -- Umber sets, shadow, word 1
  ⟨0x08050008, 32, 0x40, 1, 4, 0, 0xFF00FF, 0, 0, 0⟩, -- Umber sets, shadow, word 2
  ⟨0x0805000C, 32, 0x40, 1, 4, 0, 0x7FFFF, 0, 0, 0⟩, -- Umber sets, shadow, word 3
  ⟨0x08050010, 32, 0x40, 1, 4, 0, 0xFFFF, 0, 0, 0⟩, -- Umber sets, shadow, word 4
  ⟨0x08050014, 32, 0x40, 1, 4, 0, 0x1FFF, 0, 0, 0⟩, -- Umber sets, shadow, word 5
  ⟨0x08050018, 32, 0x40, 1, 4, 0, 0xFF03FF, 0, 0, 0⟩, -- Umber sets, shadow, word 6
  ⟨0x0805001C, 32, 0x40, 1, 4, 0, 0x803FFFFF, 0, 0, 0⟩, -- Umber sets, shadow, word 7
  ⟨0x08050020, 32, 0x40, 8, 4, 0, 0, 0, 0, 0⟩, -- Umber sets, shadow, words 8 to 15
  ⟨0x08050800, 512, 4, 1, 4, 0, 0, 0, 0, 0⟩, -- Umber sets, active view
  ⟨0x08051000, 32, 4, 1, 4, 0, 0, 0, 0, 0⟩, -- UMB_GRu
  ⟨0x08051080, 32, 4, 1, 4, 0, 0, 0, 0, 0x3FFF⟩, -- UMB_GRMAXu
  ⟨0x08051100, 1, 4, 1, 4, 0, 0, 7, 0, 0⟩, -- UMB_STATUS
  ⟨0x08058000, 32, 4, 1, 4, 0, 0xC0FFFFFF, 0, 0, 0⟩, -- OVR_WORDm
  ⟨0x08058080, 32, 4, 1, 4, 0, 0x801F0FFF, 0, 0, 0⟩ -- OVR_SINKm
  ]

/-- The rows of the register blocks Ig. -/
def regRowsIg : List RegDesc := [
  ⟨0x08060000, 16, 0x1000, 1, 4, 0, 0x70, 0, 0, 0⟩, -- IGn_CTRL
  ⟨0x08060004, 16, 0x1000, 1, 4, 0, 0, 0xFF0, 0, 0⟩, -- IGn_STATUS
  ⟨0x08060008, 16, 0x1000, 1, 4, 0, 0xB300001F, 0, 0, 0⟩, -- IGn_SCALE
  ⟨0x0806000C, 16, 0x1000, 1, 4, 0, 0, 0, 0, 0⟩, -- IGn_EXP
  ⟨0x08060010, 16, 0x1000, 1, 4, 0, 0, 0, 0, 0xFFFFFFFF⟩, -- IGn_COLLIDE_CNT
  ⟨0x08060014, 16, 0x1000, 1, 4, 0, 0, 0, 0, 0xFFFFFFFF⟩, -- IGn_BANK_STALL
  ⟨0x08060018, 16, 0x1000, 1, 4, 0, 0, 0, 0, 0xFFFFFFFF⟩, -- IGn_SAT_CNT
  ⟨0x0806001C, 16, 0x1000, 1, 4, 0, 0, 0, 0, 0xFFFFFFFF⟩, -- IGn_ICMISS
  ⟨0x08060020, 16, 0x1000, 1, 4, 0, 0xFFFF00, 0, 0, 0⟩, -- IGn_VECBASE
  ⟨0x08060024, 16, 0x1000, 1, 4, 0, 0xFFFFFF, 0, 0, 0⟩, -- IGn_WDT
  ⟨0x08060028, 16, 0x1000, 1, 4, 0, 0, 0, 0xFFFF, 0⟩, -- IGn_DBELL
  ⟨0x0806002C, 16, 0x1000, 1, 4, 0, 0, 0, 0, 0⟩, -- IGn_DBG
  ⟨0x08060030, 16, 0x1000, 1, 4, 0, 0, 0, 0, 0⟩, -- IGn_PC
  ⟨0x08060034, 16, 0x1000, 1, 4, 0, 0, 0, 0, 0⟩, -- IGn_EPC
  ⟨0x08060038, 16, 0x1000, 1, 4, 0, 0, 0, 0, 0⟩, -- IGn_ESTAT
  ⟨0x08060040, 16, 0x1000, 1, 4, 0, 0, 0, 0, 0⟩, -- IGn_CYC_LO
  ⟨0x08060044, 16, 0x1000, 1, 4, 0, 0, 0, 0, 0⟩, -- IGn_CYC_HI
  ⟨0x08060100, 16, 0x1000, 32, 4, 0, 0, 0, 0, 0⟩ -- IGn_DBG_Wm
  ]

/-- The rows of the register blocks Vat. -/
def regRowsVat : List RegDesc := [
  ⟨0x08070000, 8, 4, 1, 4, 0, 0, 0, 0, 0⟩, -- VAT_SUBMIT_Ww
  ⟨0x08070020, 1, 4, 1, 4, 0, 0, 0, 0, 0⟩, -- VAT_SUBMIT_RES
  ⟨0x08070024, 1, 4, 1, 4, 0, 0, 0x1F, 0, 0⟩, -- VAT_EVT
  ⟨0x08070028, 1, 4, 1, 4, 0, 0, 0xFFFFFFFE, 0, 0⟩, -- VAT_OVR_LO
  ⟨0x0807002C, 1, 4, 1, 4, 0, 0, 0xFFFFFFFF, 0, 0⟩, -- VAT_OVR_HI
  ⟨0x08070030, 1, 4, 1, 4, 0, 0, 0, 0, 0xFFFFFFFF⟩, -- VAT_REFUSE_CNT
  ⟨0x08070040, 4, 4, 1, 4, 0, 0xFFF3FFFF, 0, 0, 0⟩, -- VAT_PART_CFGp
  ⟨0x08070060, 8, 4, 1, 4, 0, 0x80000037, 0, 0, 0⟩, -- VAT_FCLKc
  ⟨0x08070080, 8, 4, 1, 4, 0xFFFFFFFF, 0, 0, 0, 0⟩, -- VAT_FNUMc
  ⟨0x080700A0, 4, 8, 1, 4, 0, 0, 0, 0, 0xFFFFFFFF⟩, -- VAT_CPL_TAGh
  ⟨0x080700A4, 4, 8, 1, 4, 0, 0x80000000, 0x40000000, 0, 0⟩, -- VAT_CPL_STATh
  ⟨0x08070104, 63, 4, 1, 4, 0, 0x80000073, 0, 0, 0⟩, -- VAT_FLOW_CFGf
  ⟨0x08070204, 63, 4, 1, 4, 0, 0, 0, 0, 0xFFFFFFFF⟩, -- VAT_OVR_CNTf
  ⟨0x08070400, 128, 8, 1, 4, 0, 0xFFFFFFFF, 0, 0, 0⟩, -- VAT_BUF_ADDRb
  ⟨0x08070404, 128, 8, 1, 4, 0, 0x33F, 0, 0, 0⟩ -- VAT_BUF_CFGb
  ]

/-- The rows of the register blocks Tp. -/
def regRowsTp : List RegDesc := [
  ⟨0x08080000, 6, 0x1000, 1, 4, 0, 1, 0, 0, 0⟩, -- TPn_CTRL
  ⟨0x08080004, 6, 0x1000, 1, 4, 0x8180, 0xFF3FF3C0, 0, 0, 0⟩, -- TPn_CFG
  ⟨0x08080008, 6, 0x1000, 1, 4, 1, 0x3F, 0, 0, 0⟩, -- TPn_CLK
  ⟨0x0808000C, 6, 0x1000, 1, 4, 0, 0xFFFF, 0, 0, 0⟩, -- TPn_SLOTMASK_IN
  ⟨0x08080010, 6, 0x1000, 1, 4, 0, 0xFFFF, 0, 0, 0⟩, -- TPn_SLOTMASK_OUT
  ⟨0x08080014, 6, 0x1000, 1, 4, 0, 0, 0x3FF00, 0, 0⟩, -- TPn_STATUS
  ⟨0x08080018, 6, 0x1000, 1, 4, 0, 0, 0, 0, 0xFFFFFFFF⟩, -- TPn_SLIP_CNT
  ⟨0x0808001C, 6, 0x1000, 1, 4, 0, 0, 0, 0, 0xFFFFFFFF⟩, -- TPn_ERR_CNT
  ⟨0x08080020, 6, 0x1000, 1, 4, 0, 0, 0, 0, 0⟩, -- TPn_PERIOD
  ⟨0x08088000, 1, 4, 1, 4, 0x14, 0x800000FF, 0, 0, 0⟩, -- PDM_CTRL
  ⟨0x08088004, 1, 4, 1, 4, 0, 0, 0x700, 0, 0⟩, -- PDM_STATUS
  ⟨0x08088008, 1, 4, 1, 4, 0, 0, 0, 0, 0⟩, -- PDM_STUCK
  ⟨0x0808800C, 1, 4, 1, 4, 0, 0, 0xFFFFFF, 0, 0⟩, -- PDM_STUCK_EVT
  ⟨0x08088010, 1, 4, 1, 4, 0, 0, 0, 0, 0xFFFFFFFF⟩, -- PDM_SAT_CNT
  ⟨0x08088020, 3, 4, 1, 4, 0xC0, 0xB00003FF, 0, 0, 0⟩, -- PDM_CLKCFGk
  ⟨0x08088100, 24, 4, 1, 4, 0, 0x830000FF, 0, 0, 0⟩, -- PDM_CHCFGc
  ⟨0x08090000, 8, 0x20, 1, 4, 0x2000, 0x87373000, 0, 0, 0⟩, -- ASRC_CFGg
  ⟨0x08090004, 8, 0x20, 1, 4, 0, 0xCFCFCFCF, 0, 0, 0⟩, -- ASRC_CHMAP_LOg
  ⟨0x08090008, 8, 0x20, 1, 4, 0, 0xCFCFCFCF, 0, 0, 0⟩, -- ASRC_CHMAP_HIg
  ⟨0x0809000C, 8, 0x20, 1, 4, 0, 0, 0, 0, 0⟩, -- ASRC_RATIOg
  ⟨0x08090010, 8, 0x20, 1, 4, 0, 0, 0, 0, 0⟩, -- ASRC_DLYg
  ⟨0x08090014, 8, 0x20, 1, 4, 0, 0, 0x1F0, 0, 0⟩ -- ASRC_STATUSg
  ]

/-- The rows of the register blocks Mem. -/
def regRowsMem : List RegDesc := [
  ⟨0x080A0000, 32, 0x100, 1, 4, 0, 0xFFFFFFFF, 0, 0, 0⟩, -- DMAn_SRC
  ⟨0x080A0004, 32, 0x100, 1, 4, 0, 0xFFFFFFFF, 0, 0, 0⟩, -- DMAn_DST
  ⟨0x080A0008, 32, 0x100, 1, 4, 0, 0xFFFFFF, 0, 0, 0⟩, -- DMAn_COUNT
  ⟨0x080A000C, 32, 0x100, 1, 4, 0, 0xBFF00, 0, 0, 0⟩, -- DMAn_CTRL
  ⟨0x080A0010, 32, 0x100, 1, 4, 0, 0, 0x38000, 0, 0⟩, -- DMAn_STATUS
  ⟨0x080A0014, 32, 0x100, 1, 4, 0, 0xFFFFFFFF, 0, 0, 0⟩, -- DMAn_LINK
  ⟨0x080A0018, 32, 0x100, 1, 4, 0, 0, 0, 0, 0⟩, -- DMAn_TAIL
  ⟨0x080A001C, 32, 0x100, 1, 4, 0, 0, 0, 0, 0⟩, -- DMAn_ERRADDR
  ⟨0x080A0020, 32, 0x100, 1, 4, 0, 0xFFFFFFE0, 0, 0, 0⟩, -- DMAn_VDESC
  ⟨0x080A0024, 32, 0x100, 1, 4, 0, 7, 0, 0, 0⟩, -- DMAn_OWN
  ⟨0x080A2000, 1, 4, 1, 4, 0, 0, 0xFFFFFFFF, 0, 0⟩, -- DMA_EVT
  ⟨0x080A2004, 1, 4, 1, 4, 0, 0, 0, 0, 0⟩, -- DMA_ACTIVE
  ⟨0x080B0000, 1, 4, 1, 4, 0, 0xFFF, 0, 0, 0⟩, -- SMEM_RET
  ⟨0x080B0004, 1, 4, 1, 4, 0, 0, 0, 0, 0⟩, -- SMEM_RET_STAT
  ⟨0x080B0008, 1, 4, 1, 4, 0, 0, 0x1F, 0, 0⟩, -- SMEM_ERR
  ⟨0x080B000C, 1, 4, 1, 4, 0, 0, 0, 0, 0xFFFFFFFF⟩, -- SMEM_CE_CNT
  ⟨0x080B0010, 1, 4, 1, 4, 0, 0, 0, 0, 0⟩, -- SMEM_UE_ADDR
  ⟨0x080B0100, 24, 4, 1, 4, 0, 0, 0, 0, 0xFFFFFFFF⟩, -- SMEM_CONFm
  ⟨0x080B1000, 1, 4, 1, 4, 0, 1, 0, 0, 0⟩, -- MRAMC_CTRL
  ⟨0x080B1004, 1, 4, 1, 4, 0, 0, 0x600, 0, 0xFFFF0000⟩, -- MRAMC_STATUS
  ⟨0x080B1008, 1, 4, 1, 4, 0, 0, 0, 0, 0⟩, -- MRAMC_ERRADDR
  ⟨0x080B100C, 1, 4, 1, 4, 0, 0, 0, 0, 0⟩, -- MRAMC_CNT_INC
  ⟨0x080B2000, 1, 4, 1, 4, 0, 0, 0, 0, 0⟩, -- VERM_CTRL
  ⟨0x080B2004, 1, 4, 1, 4, 3, 0, 0x8080, 0, 0⟩, -- VERM_STATUS
  ⟨0x080B2020, 8, 4, 1, 4, 0, 0, 0, 0, 0⟩ -- VERM_TOKENw
  ]

/-- The rows of the register blocks Hp. -/
def regRowsHp : List RegDesc := [
  ⟨0x080C0000, 4, 0x1000, 1, 4, 0x20001, 0x98FF0007, 0, 0, 0⟩, -- HPn_CFG
  ⟨0x080C0004, 4, 0x1000, 1, 4, 8, 0x1FFF, 0, 0, 0⟩, -- HPn_LEN
  ⟨0x080C0008, 4, 0x1000, 1, 4, 0, 0xFFFFFF, 0, 0, 0⟩, -- HPn_DLY
  ⟨0x080C000C, 4, 0x1000, 1, 4, 0, 0, 0xFF800, 0, 0⟩, -- HPn_STATUS
  ⟨0x080C0010, 4, 0x1000, 1, 4, 0, 0, 0, 0, 0xFFFFFFFF⟩, -- HPn_ERR_CNT
  ⟨0x080C0014, 4, 0x1000, 1, 4, 0, 0, 0, 0, 0⟩, -- HPn_MCTRL
  ⟨0x080C0018, 4, 0x1000, 1, 4, 0, 0x7FF, 0, 0, 0⟩, -- HPn_IRQ_EN
  ⟨0x080C001C, 4, 0x1000, 1, 4, 0, 0, 0, 0, 0⟩, -- HPn_IRQ_STAT
  ⟨0x080C0020, 4, 0x1000, 1, 4, 0, 0, 0, 0, 0⟩, -- HPn_HDBELL
  ⟨0x080C0200, 4, 0x1000, 128, 4, 0, 0xFFFFFFFF, 0, 0, 0⟩, -- HPn_MTXw
  ⟨0x080C0800, 4, 0x1000, 128, 4, 0, 0, 0, 0, 0⟩, -- HPn_MRXw
  ⟨0x080C0C00, 64, 0x10, 1, 4, 0, 0, 0, 0, 0⟩, -- PERM_BASEw
  ⟨0x080C0C04, 64, 0x10, 1, 4, 0, 0, 0, 0, 0⟩, -- PERM_LIMITw
  ⟨0x080C0C08, 64, 0x10, 1, 4, 0, 0, 0, 0, 0⟩, -- PERM_RIGHTSw
  ⟨0x080D0000, 1, 4, 1, 4, 0x48004B50, 0xFC00FFFF, 0, 0, 0⟩, -- CAN_CTRL
  ⟨0x080D0004, 1, 4, 1, 4, 0, 0, 0xF00, 0, 0⟩, -- CAN_STATUS
  ⟨0x080D0008, 1, 4, 1, 4, 0, 0, 0, 0, 0xFFFFFFFF⟩, -- CAN_RX_CNT
  ⟨0x080D000C, 1, 4, 1, 4, 0, 0, 0, 0, 0xFFFFFFFF⟩, -- CAN_ERR_CNT
  ⟨0x080D0010, 1, 4, 1, 4, 0, 0, 0xFFFFFFFF, 0, 0⟩, -- CAN_TO_EVT_LO
  ⟨0x080D0014, 1, 4, 1, 4, 0, 0, 0xFFFFFFFF, 0, 0⟩, -- CAN_TO_EVT_HI
  ⟨0x080D0100, 48, 4, 1, 4, 0, 0, 0, 0, 0⟩, -- CAN_SIGVALs
  ⟨0x080D0200, 48, 4, 1, 4, 0, 0, 0, 0, 0⟩, -- CAN_SIGSTs
  ⟨0x080D0300, 48, 4, 1, 4, 0, 0, 0, 0, 0⟩, -- CAN_SIGTSs
  ⟨0x080D0400, 128, 4, 1, 4, 0, 0xDFFFFFFF, 0, 0, 0⟩, -- CAN filter memory
  ⟨0x080D0800, 48, 0x20, 1, 4, 0, 0xE01FFFFF, 0, 0, 0⟩, -- CAN signal memory, word 0
  ⟨0x080D0804, 48, 0x20, 1, 4, 0, 0xFFFFFFFF, 0, 0, 0⟩, -- CAN signal memory, word 1
  ⟨0x080D0808, 48, 0x20, 1, 4, 0, 0xFFFFFFFF, 0, 0, 0⟩, -- CAN signal memory, word 2
  ⟨0x080D080C, 48, 0x20, 1, 4, 0, 0xFFFF, 0, 0, 0⟩, -- CAN signal memory, word 3
  ⟨0x080D0810, 48, 0x20, 1, 4, 0, 0xFFFFFFFF, 0, 0, 0⟩, -- CAN signal memory, word 4
  ⟨0x080D0814, 48, 0x20, 1, 4, 0, 0x870F9F87, 0, 0, 0⟩, -- CAN signal memory, word 5
  ⟨0x080D0818, 48, 0x20, 1, 4, 0, 0xF8FFFFFF, 0, 0, 0⟩, -- CAN signal memory, word 6
  ⟨0x080D081C, 48, 0x20, 1, 4, 0, 0xFFFFFFFF, 0, 0, 0⟩, -- CAN signal memory, word 7
  ⟨0x080D1000, 8, 4, 1, 4, 0, 0xF0FFFFFF, 0, 0, 0⟩, -- EVT_CFGi
  ⟨0x080D1020, 8, 4, 1, 4, 0, 0xFFFFFFFF, 0, 0, 0⟩, -- EVT_DESTi
  ⟨0x080D1040, 8, 4, 1, 4, 0, 0xFF00CF00, 0, 0, 0⟩, -- EVT_ACTi
  ⟨0x080D1060, 1, 4, 1, 4, 0, 0, 0, 0, 0⟩, -- EVT_LEVEL
  ⟨0x080D1064, 1, 4, 1, 4, 0, 0, 0xFFFF, 0, 0⟩, -- EVT_STATUS
  ⟨0x080D1080, 8, 4, 1, 4, 0, 0, 0, 0, 0xFFFFFFFF⟩, -- VEH_CNTk
  ⟨0x080D2000, 1, 4, 1, 4, 0x80000000, 0x80003330, 0, 0, 0⟩, -- CHIME_CFG
  ⟨0x080D2004, 1, 4, 1, 4, 0, 0, 0, 0, 0⟩, -- CHIME_CTRL
  ⟨0x080D2008, 1, 4, 1, 4, 0, 0, 0x8000, 0, 0⟩, -- CHIME_STATUS
  ⟨0x080D3000, 4, 4, 1, 4, 0, 0, 0, 0, 0⟩, -- THERM_TEMPs
  ⟨0x080D3010, 1, 4, 1, 4, 0x1B15786E, 0xFFFFFFFF, 0, 0, 0⟩, -- THERM_CFG
  ⟨0x080D3014, 1, 4, 1, 4, 0, 0, 0xE0000, 0, 0⟩, -- THERM_STATUS
  ⟨0x080D4000, 1, 4, 1, 4, 0, 0, 0, 0, 0⟩, -- OTP_LC_REQ
  ⟨0x080D4004, 1, 4, 1, 4, 0, 0, 6, 0, 0⟩ -- OTP_STATUS
  ]

/-- The rows of the register block that address `a` lies in (Table 01-10). -/
def regRows (a : Nat) : List RegDesc :=
  if a < 0x08010000 then regRowsSys
  else if a < 0x08020000 then regRowsTe
  else if a < 0x08030000 then regRowsMd
  else if a < 0x08060000 then regRowsRt
  else if a < 0x08070000 then regRowsIg
  else if a < 0x08080000 then regRowsVat
  else if a < 0x080A0000 then regRowsTp
  else if a < 0x080C0000 then regRowsMem
  else regRowsHp

/-- `d` holds a register at address `a`. -/
def RegDesc.covers (d : RegDesc) (a : Nat) : Bool :=
  decide (d.base ≤ a) && decide ((a - d.base) / d.s1 < d.n1) &&
    decide ((a - d.base) % d.s1 / d.s2 < d.n2) && decide ((a - d.base) % d.s1 % d.s2 = 0)

/-- The register row of address `a`; none where no register stands (R10). -/
def regDesc (a : Nat) : Option RegDesc := (regRows a).find? (·.covers a)

/-- The value of the register at `a` after power-on reset (R12); 0 where no register stands (R10). -/
def regReset (a : Nat) : Word :=
  match regDesc a with
  | some d => BitVec.ofNat 32 d.reset
  | none => 0#32

end Sys2Proof.Machine
end

