-- ==== Sys2Proof/Machine/State.lean ====
section
/-! DEFINITION. The state of the SLD-8816 as plain data: the register store, the memories, the run-time state of every
block, and the queue of the commands that wait. -/

namespace Sys2Proof.Machine

/-- A field of a register: the register's address, the field's lowest bit and its width (R4, R8). -/
structure Fld where
  addr : Nat
  lo : Nat
  w : Nat
  deriving DecidableEq, Repr

/-- A tick engine's registers, buffers and run position (Table 02-4, R45 to R62). -/
structure Engine where
  /-- D0 to D31. -/
  d : Vector Word 32
  /-- A0 to A7: AI in bits [33:16], AF in bits [15:0]. -/
  a : Vector (BitVec 34) 8
  /-- F3 to F0. -/
  f : BitVec 4
  /-- ACC0 to ACC3. -/
  acc : Vector (BitVec 72) 4
  /-- The input words of the running run. -/
  inp : Vector Word 64
  /-- The pending input buffer that the fabric fills (R61). -/
  pend : Vector Word 64
  /-- The output words. -/
  out : Vector Word 64
  /-- The fabric's read buffer: the output words as last captured (R56). -/
  cap : Vector Word 64
  /-- The inspection copy of D0 to D31. -/
  insD : Vector Word 32
  /-- The inspection copy of A0 to A7. -/
  insA : Vector (BitVec 34) 8
  /-- The live words in force. -/
  live : Vector Word 16
  /-- Live words pending for the boundary that ends this run (R58). -/
  lpend : Vector (Option Word) 16
  /-- Live words that arrived after the deadline: pending for the boundary after (R58). -/
  lnext : Vector (Option Word) 16
  /-- LIVE_HOLD as it meets the deadline of R58 for the next boundary (R60). -/
  hold : Bool
  /-- The slot that executes next in the run. -/
  slot : Nat
  /-- A run is in progress. -/
  active : Bool
  /-- EMIT descriptors queued by the run: template and argument, in slot order (R83, R84). -/
  emits : List (Nat × Word)
  /-- The physical words whose dirty bit is set, rising (R81). -/
  dirty : List Nat
  /-- The first tick (counted from the epoch start) at which a pending start may take effect (R171). -/
  startNb : Nat
  deriving DecidableEq, Repr

/-- An engine with nothing in it (R36, R53, R55). -/
def Engine.zero : Engine where
  d := Vector.replicate 32 0#32
  a := Vector.replicate 8 0#34
  f := 0#4
  acc := Vector.replicate 4 0#72
  inp := Vector.replicate 64 0#32
  pend := Vector.replicate 64 0#32
  out := Vector.replicate 64 0#32
  cap := Vector.replicate 64 0#32
  insD := Vector.replicate 32 0#32
  insA := Vector.replicate 8 0#34
  live := Vector.replicate 16 0#32
  lpend := Vector.replicate 16 none
  lnext := Vector.replicate 16 none
  hold := false
  slot := 0
  active := false
  emits := []
  dirty := []
  startNb := 0

/-- One commit that Mordant holds (R116). -/
structure Commit where
  mask : Nat
  seq : Nat
  /-- Requester of the latest merged request: hosts 0 to 3, boot sequencer 4. -/
  src : Nat
  /-- The latest SEQ of every merged requester. -/
  reqs : List (Nat × Nat)
  deriving DecidableEq, Repr

/-- A glide channel in progress (R130). -/
structure Glide where
  eng : Nat
  ch : Nat
  addr : Nat
  vOld : Int
  vNew : Int
  g : Nat
  /-- The run after the commit, 1 for the first. -/
  j : Nat
  deriving DecidableEq, Repr

/-- A write held at a frozen object (R126). -/
structure Held where
  m : Master
  addr : Nat
  val : Word
  deriving DecidableEq, Repr

/-- What an override register held before a write that samples may still stand in front of (R139). -/
structure OvrOld where
  addr : Nat
  old : Word
  /-- The ENG_CLK cycle, counted from the epoch start, from which the write governs. -/
  at_ : Nat
  deriving DecidableEq, Repr

/-- Mordant's own state beside its registers (R111, R116, R119, R125, R126, R130, R139). -/
structure Mord where
  /-- The accumulating commit. -/
  acc : Option Commit
  /-- The frozen commit. -/
  frz : Option Commit
  /-- The tick of the boundary that the frozen commit applies at. -/
  frzAt : Nat
  /-- The frozen commit waits for the first tick of the next epoch (R40). -/
  frzEpoch : Bool
  /-- The reconciles in progress, oldest first: the commit mask of each (R119, R125). -/
  recons : List Nat
  /-- Addresses of the shadow words whose dirty bit is set, rising. -/
  dirty : List Nat
  /-- Held writes in order of arrival. -/
  held : List Held
  /-- Glide channels in progress. -/
  glides : List Glide
  /-- The active copies of MD_GLIDE_CFGn_m, by 64 n + m; unlisted: 0. -/
  gcfg : List (Nat × Word)
  /-- Override writes of the last ticks, newest first (R139). -/
  ovr : List OvrOld
  deriving DecidableEq, Repr

/-- A delay-store write on its way round the mirror ring (R82, R155). -/
structure Mirror where
  dst : Nat
  word : Nat
  val : Word
  /-- X made it in run T_D - 1 or before (R160). -/
  early : Bool
  deriving DecidableEq, Repr

/-- Migration, twin join, late start and pair-start progress (R144 to R166). -/
structure Mig where
  /-- 0 none, 1 MOVE, 2 JOIN, 3 LATE, 4 the check of a pair start. -/
  kind : Nat
  /-- Engine X, or the primary of a pair start. -/
  x : Nat
  /-- Engine Y, or the secondary of a pair start. -/
  y : Nat
  /-- LATE: SRC names a placeholder (R165). -/
  srcEn : Bool
  /-- T has been selected at its cutoff (R158). -/
  armed : Bool
  /-- T, the tick of the handover. -/
  t : Nat
  /-- The first tick whose cutoff is not before the end of the sweep (R158). -/
  nb : Nat
  /-- Write pointer in the first cycle of the sweep, and the words that it sweeps (R156). -/
  wp0 : Nat
  n : Nat
  /-- Mirror writes in flight, oldest first. -/
  ring : List Mirror
  /-- The alias word that waits for a commit naming ROUTE (R163). -/
  aliasPend : Option Word
  /-- Runs compared since the handover (R162). -/
  cmp : Nat
  /-- A compare of R162 differed. -/
  bad : Bool
  /-- Pairs whose exit from lockstep is scheduled (R150), as a mask. -/
  exits : Nat
  /-- Pairs whose exit falls at the boundary just passed, as a mask. -/
  exitDue : Nat
  /-- Pairs started but whose members have not run yet (R144), as a mask. -/
  fresh : Nat
  /-- Pairs whose mismatch asks for the fallback chime (R147, R149), as a mask. -/
  chimeReq : Nat
  /-- The pattern that each pair's latest mismatch asked for (R150). -/
  chimePat : Vector Nat 4
  deriving DecidableEq, Repr

/-- Rate-domain changes on their way (R171 to R175). -/
structure Dom where
  /-- An accepted APPLY that has not taken effect, with the configuration it carries. -/
  apply : Option Word
  /-- The rate configuration of the epoch that a drain ends. -/
  oldAct : Word
  /-- The first tick at which a pending re-base of an unused domain may take effect. -/
  applyNb : Nat
  /-- The first tick at which each bridge's pending start may take effect. -/
  brNb : Vector Nat 16
  deriving DecidableEq, Repr

/-- The resolved state of one route entry (R188 to R198, R204). -/
structure REnt where
  idx : Nat
  src : Nat
  sink : Nat
  inp : Nat
  delay : Nat
  /-- The entry is ON (R194). -/
  on : Bool
  /-- Resolved gain in Q3.29 (R194). -/
  gain : Int
  /-- The entry's error: 0 none, else 1 + the REASON code of RT_ERR_ENTRY. -/
  err : Nat
  /-- The entry is off through an ancestor with EN = 0 (R190). -/
  dis : Bool
  /-- Delayed by R204, or a late source into an engine input word (R62). -/
  late : Bool
  deriving DecidableEq, Repr

/-- What one route entry contributes now, and the ramp or crossfade it is in (R189, R196, R197). An entry whose identity or
ON state changed may have two records: the old contribution that fades out and the new one. -/
structure RRun where
  idx : Nat
  /-- The entry as resolved. -/
  cur : REnt
  /-- The source samples before the latest stamp, newest first, since the compensation history began (R189). -/
  hist : List Word
  /-- 0 steady, 1 gain ramp, 2 fading in, 3 fading out. -/
  mode : Nat
  /-- The gain that a gain ramp started from. -/
  gFrom : Int
  /-- Ramp length N. -/
  n : Nat
  /-- Equal-power law. -/
  law : Bool
  /-- The sample of the transition, 1 for the first; 0 before it. -/
  j : Nat
  /-- An old contribution that would close a cycle with the links of the table in force reads one sample earlier. -/
  back : Bool
  deriving DecidableEq, Repr

/-- The activity gate of one summing-node input (R201). -/
structure Gate where
  key : Nat
  opened : Bool
  /-- Sum of squares of the running block. -/
  acc : Nat
  /-- The running block is whole. -/
  whole : Bool
  /-- Sum of squares of the completed block that is still to be decided. -/
  last : Option Nat
  deriving DecidableEq, Repr

/-- A summing node's run-time state (R201, R202). -/
structure Node where
  nact : Nat
  /-- The scale in force, Q1.31. -/
  scale : Nat
  sFrom : Nat
  sTo : Nat
  /-- Ramp length exponent; the ramp has run `j` of 2^k samples. -/
  k : Nat
  j : Nat
  /-- The node has had its first sample since the epoch start or its enable. -/
  live : Bool
  deriving DecidableEq, Repr

/-- An Umber unit's envelopes and delay line (R206, R207). -/
structure Umb where
  /-- The RMS envelope m, Q0.96. -/
  m : Nat
  /-- The gain g of the formula in units of 2^-40 dB. -/
  g : Int
  /-- The input samples of the look-ahead line, newest first. -/
  line : List Word
  /-- The line before a change of LOOKAHEAD and its delay, while the output fades (R207). -/
  old : Option (List Word × Nat)
  /-- Samples of that fade so far. -/
  j : Nat
  /-- The look-ahead delay in force, and the LOOKAHEAD value that gave it. -/
  dly : Nat
  look : Nat
  /-- The level L of the latest sample in units of 2^-24 dB. -/
  lev : Int
  /-- The unit was running in its latest sample (Table 07-2). -/
  run : Bool
  deriving DecidableEq, Repr

/-- A test generator (R210). -/
structure Tg where
  phase : Word
  lfsr : Word
  /-- Producing samples in its domain. -/
  running : Bool
  /-- The sample of the current tick. -/
  cur : Word
  /-- The first tick at which its enable may bring its domain into use (R171). -/
  nb : Nat
  deriving DecidableEq, Repr

/-- A bridge's input histories since its start, newest first, one for each channel (R180). -/
structure Br where
  hist : Vector (List Word) 8
  deriving DecidableEq, Repr

/-- What the ranking and the table check found (R188, R203, R204). -/
structure Check where
  ents : List REnt
  /-- The ranked units, by endpoint ID, each with its place in the evaluation order. -/
  order : List (Nat × Nat)
  /-- Umber units whose sidechain link is delayed. -/
  scLate : List Nat
  /-- Entries removed by the budgets (R190). -/
  removed : List Nat
  deriving DecidableEq, Repr

/-- The route fabric's run-time state. -/
structure Rt where
  chk : Check
  /-- The check staged at a cutoff for the commit it belongs to. -/
  next : Option Check
  run : List RRun
  /-- Source samples of the latest stamp, by endpoint ID. -/
  now : List (Nat × Word)
  /-- Source samples of the stamp before. -/
  prev : List (Nat × Word)
  gates : List Gate
  nodes : List (Nat × Node)
  umbs : List (Nat × Umb)
  /-- The samples that ports, PDM channels, ASRC channels and playback buffers supply in this tick, by endpoint ID. -/
  inj : List (Nat × Word)
  /-- The last value delivered to each sink outside the nodes and units, by endpoint ID. -/
  sinks : List (Nat × Word)
  tg : Vector Tg 8
  br : Vector Br 16
  deriving DecidableEq, Repr

/-- A mute or unmute ramp of 32 samples (R292, R297, R299). -/
structure Ramp where
  /-- 0 silent, 1 ramping in, 2 at full level, 3 ramping out. -/
  ph : Nat
  /-- The position j of the next sample in a ramp. -/
  j : Nat
  /-- The sample that a ramp out starts from. -/
  p : Word
  /-- The last sample delivered. -/
  last : Word
  deriving DecidableEq, Repr

/-- A PDM channel's run-time state (R296 to R299). -/
structure PdmCh where
  ramp : Ramp
  /-- Output samples to pass before the ramp in starts (R297). -/
  wait : Nat
  /-- The first tick at which its enable may bring its domain into use (R171). -/
  nb : Nat
  /-- PDM_CHCFGc.EN as it is in force since the last domain-A boundary (Table 01-2a). -/
  on : Bool
  /-- The last input of the DC filter, and its last output in units of 2^-47 (R296). -/
  dcX : Word
  dcY : Int
  /-- The bits that the decimator holds, newest first (R296). -/
  bits : List Bool
  deriving DecidableEq, Repr

/-- The PDM bank's run-time state. -/
structure Pdm where
  ch : Vector PdmCh 24
  /-- PDM_CLKCFGk as it is in force since the last domain-A boundary (Table 01-2a). -/
  cfg : Vector Word 3
  /-- The clock group's hold of R297 has ended. -/
  ready : Vector Bool 3
  /-- The D that each group decimates by, and its f in units of ENG_CLK / PDIV: the values of its last start. -/
  d : Vector Nat 3
  deriving DecidableEq, Repr

/-- A TDM port's run-time state (R279 to R292). -/
structure Tp where
  /-- The IN FIFO, oldest frame first: Q1.31 slot samples. -/
  inF : List (List Word)
  /-- The OUT FIFO, oldest frame first: Q1.31 slot samples. -/
  outF : List (List Word)
  /-- The last frame that each FIFO gave. -/
  inLast : List Word
  outLast : List Word
  /-- Takes, or ASRC reads, have begun (R282). -/
  taking : Bool
  /-- A start waits for its domain-A boundary (Table 10-4). -/
  startPend : Bool
  /-- A stop waits for the end of the frame in progress (Table 10-4). -/
  stopPend : Bool
  /-- RESYNC's step (R292): 2 qualify, 3 acquire, 4 resume at the next frame start. -/
  step : Nat
  /-- Consecutive good frames. -/
  good : Nat
  /-- The last frame periods, newest first, at most 16, in 2^-12 ENG_CLK cycles. -/
  pers : List Nat
  /-- Sum and count of the periods of the running block of 256 frames. -/
  psum : Nat
  pcnt : Nat
  /-- Output ramp: 0 zeros, 1 in, 2 full, 3 out; and its position. -/
  oph : Nat
  oj : Nat
  /-- The input slots' ramps. -/
  slots : Vector Ramp 16
  /-- The W-bit words that SDOUT carries in the running frame; `none` is high impedance (R280). -/
  wire : List (Option Nat)
  deriving DecidableEq, Repr

/-- An ASRC group's run-time state (R284 to R289). -/
structure Asrc where
  /-- ACQUIRE's step (R288): 0 none, 1 measuring, 2 the 20 Hz loop. -/
  step : Nat
  /-- Sum and count of the frame periods measured. -/
  sum : Nat
  cnt : Nat
  /-- The frame period that the loop tracks, in 2^-12 ENG_CLK cycles. -/
  trk : Nat
  /-- Samples that each channel has taken in since lock, newest first. -/
  hist : Vector (List Word) 8
  /-- Where each channel's next output stands among its input samples since lock, in units of 2^-24 of them. -/
  outs : Vector Nat 8
  /-- The first tick at which its enable may bring its domain into use (R171). -/
  nb : Nat
  deriving DecidableEq, Repr

/-- A memory access that waits for a group's wake (R340): 0 read, 1 write, 2 bit-set, 3 bit-clear; its master, or none for
the frame-buffer engine. -/
structure MemWait where
  m : Option Master
  addr : Nat
  kind : Nat
  size : Nat
  data : List Byte
  deriving DecidableEq, Repr

/-- A word write that the MRAM array has not taken (R353): its address and bytes within one 64-bit word, and the master that
waits for its response; none for the counters and the fault logger. -/
structure MramOp where
  addr : Nat
  data : List Byte
  own : Option Master
  deriving DecidableEq, Repr

/-- The stores' state beside their words and registers (R331 to R357). -/
structure Stores where
  /-- Addresses of the words that hold an uncorrectable error, rising (R337, R357). -/
  ue : List Nat
  /-- Accesses that wait for a group in WAKING, oldest first. -/
  waits : List MemWait
  /-- Word writes in arrival order: the first 8 stand in the MRAM write queue, the others wait to enter it (R353). -/
  wq : List MramOp
  /-- The seal partition: page, CRC and state word (R344). -/
  page : List Host.Cell
  pageCrc : Word
  pageSt : Word
  /-- Writes to the sealed page that a seal in progress holds (R345). -/
  heldSeal : List (Nat × List Byte)
  /-- A wipe abandoned the seal that held a write of host 0 (R349). -/
  sealLost : Bool
  /-- A word of the seal partition holds an uncorrectable error (R344). -/
  pageUe : Bool
  /-- The cause of the wipe in progress (Table 12-5). -/
  wcause : Nat
  /-- A life-cycle transition: 0 none, 1 its wipe, 2 the OTP programming (R351). -/
  lcPhase : Nat
  /-- The life-cycle state that the OTP holds, read at the next boot (R351). -/
  otp : Nat
  /-- The life-cycle state that the request under way asks for. -/
  lcTgt : Nat
  /-- VIN is below its brown-out threshold (R465). -/
  brown : Bool
  deriving DecidableEq, Repr

/-- A work item (R247). -/
structure Item where
  id : Nat
  entry : Nat
  arg : Word
  part : Nat
  prio : Nat
  flow : Nat
  frame : Nat
  act : Nat
  tgt : Nat
  tag : Word
  /-- The frame clock of its flow at acceptance. -/
  clk : Nat
  /-- Its affinity wait has expired (R257). -/
  expired : Bool
  deriving DecidableEq, Repr

/-- A frame clock's state beside its registers (R265 to R271). -/
structure FClk where
  /-- The first tick at which a pending start may take effect. -/
  startNb : Nat
  /-- First frame number of the epoch, from its drain on (R271). -/
  first : Nat
  /-- The frame whose fence cutoff passed last. -/
  cut : Option Nat
  /-- The frame whose window opened last. -/
  opened : Option Nat
  /-- TSTAMP of the last fence processed in this epoch. -/
  at_ : Option Nat
  deriving DecidableEq, Repr

/-- A playback buffer's state (R268, R270). -/
structure PBuf where
  rel0 : Bool
  rel1 : Bool
  /-- The frame in progress: 0 nothing, 1 heard, 2 silenced, 3 heard with a ramp in. -/
  mode : Nat
  /-- The last sample of the previous frame. -/
  p : Word
  /-- The last sample delivered. -/
  last : Word
  deriving DecidableEq, Repr

/-- The Vat (R247 to R273). -/
structure VatS where
  /-- Pending items in submission order. -/
  pend : List Item
  /-- Running items by core. -/
  run : List (Nat × Item)
  /-- Items that have completed and are not released, with their status: 0 OK, 1 LATE, 2 ABORTED. -/
  done : List (Item × Nat)
  nextId : Nat
  /-- The core that last started an item of each flow. -/
  aff : List (Nat × Nat)
  /-- The core that last started each ENTRY of FLOW 0, by partition, newest first. -/
  ent : Vector (List (Nat × Nat)) 4
  /-- Staged words by 8 × master + word (R250). -/
  stage : List (Nat × Word)
  /-- Results by master: VAT_SUBMIT_RES (R250). -/
  res : List (Nat × Word)
  /-- Completion queues: TAG and status, oldest first (R263). -/
  cpl : Vector (List (Word × Nat)) 4
  clk : Vector FClk 8
  /-- Playback buffers by number; an unlisted one holds nothing. -/
  buf : List (Nat × PBuf)
  deriving DecidableEq, Repr

/-- An address generator (Table 08-1, R221). -/
structure AddrGen where
  base : Nat
  idx : Nat
  step : Nat
  len : Nat
  mode : Nat
  deriving DecidableEq, Repr

/-- One level of the repeat stack (R227). -/
structure RepLvl where
  /-- Address of the body's first bundle. -/
  first : Nat
  /-- Address of the body's last bundle. -/
  last : Nat
  /-- Iterations left, the running one included. -/
  left : Nat
  deriving DecidableEq, Repr

/-- A line of an instruction cache: its number (byte address ÷ 64), its way, its 8 bundles (R245). -/
structure IcLine where
  line : Nat
  way : Nat
  data : List DWord
  deriving DecidableEq, Repr

/-- A posted far write (R243): its address and word; it was issued before its group refused accesses (R339); it stands in the
MRAM write queue (R353). -/
structure FarWrite where
  addr : Nat
  val : Word
  ok : Bool
  queued : Bool
  deriving DecidableEq, Repr

/-- An Indigo core (Table 08-1, R213 to R246). -/
structure Core where
  w : Vector Word 32
  acc : Vector (BitVec 72) 8
  ag : Vector AddrGen 8
  z : Bool
  n : Bool
  c : Bool
  /-- The repeat stack, innermost level first. -/
  rep : List RepLvl
  scale : Word
  exp : Int
  bexp : Int
  /-- The detector's n (R238). -/
  det : Nat
  /-- EXP at the start of the last bundle, and whether that bundle held an MTS to EXP or to BEXP (R239). -/
  expIn : Int
  mtsExp : Bool
  mtsBexp : Bool
  pc : Nat
  /-- Delay slots still to execute, and what follows them: 0 sequence, 1 branch, 2 DONE, 3 RTE (R230). -/
  dly : Nat
  after_ : Nat
  tgt : Nat
  /-- Loads that write their registers after the next bundle (R224). -/
  ld : List (Nat × Word)
  /-- The core stands at a take point, or at one where only DBG is taken (R232). -/
  take : Bool
  /-- The last bundle was a delay slot. -/
  slotEnd : Bool
  /-- An iteration of the innermost block has ended (R227). -/
  iterEnd : Bool
  /-- In HANDLER, also while halted there. -/
  inH : Bool
  pDbg : Bool
  pWdt : Bool
  pIll : Bool
  pFetch : Bool
  pOvf : Bool
  pDbell : Bool
  /-- The bundle at `pc` could not be fetched (R245). -/
  ferr : Bool
  /-- What the core waits for: 0 nothing, 1 FLD, 2 FENCE, 3 a fifth FST, 4 the Vat at completion (R226). -/
  stall : Nat
  fldReg : Nat
  fldAddr : Nat
  /-- The pending FLD was issued before its group refused accesses (R339). -/
  fldOk : Bool
  /-- Posted far writes in flight, oldest first (R243). -/
  fst_ : List FarWrite
  /-- The cache miss under way was issued before its group refused accesses (R339). -/
  fillOld : Bool
  /-- The words that the last bundle stored: local byte address, the word before, the word after (R241). -/
  st : List (Nat × Word × Word)
  /-- The ENG_CLK cycle, from the epoch start, of that bundle. -/
  stAt : Nat
  /-- 0 running, 1 DONE reached, 2 aborted: waiting for far writes and the Vat (R214, R235). -/
  fin : Nat
  /-- A STEP (2) or RESUME (1) written while CORE_CLK was gated: it acts when the clock is back (R236, R316). -/
  dbgReq : Nat
  wdt : Nat
  limit : Nat
  cyc : Nat
  /-- Cache lines, most recently used first. -/
  ic : List IcLine
  deriving DecidableEq, Repr

/-- A core with nothing in it (R242). -/
def Core.zero : Core where
  w := Vector.replicate 32 0#32
  acc := Vector.replicate 8 0#72
  ag := Vector.replicate 8 ⟨0, 0, 0, 0, 0⟩
  z := false
  n := false
  c := false
  rep := []
  scale := 0#32
  exp := 0
  bexp := 0
  det := 31
  expIn := 0
  mtsExp := false
  mtsBexp := false
  pc := 0
  dly := 0
  after_ := 0
  tgt := 0
  ld := []
  take := false
  slotEnd := false
  iterEnd := false
  inH := false
  pDbg := false
  pWdt := false
  pIll := false
  pFetch := false
  pOvf := false
  pDbell := false
  ferr := false
  stall := 0
  fldReg := 0
  fldAddr := 0
  fldOk := false
  fst_ := []
  fillOld := false
  st := []
  stAt := 0
  fin := 0
  dbgReq := 0
  wdt := 0
  limit := 0
  cyc := 0
  ic := []

/-- The fallback chime's state beside its registers (R419 to R421, R477). -/
structure Chime where
  /-- The buffered patterns: steps of frequency in Hz, level, and duration in 10 ms. -/
  pat : Vector (List (Nat × Nat × Nat)) 4
  /-- The step that sounds, 1 for the first. -/
  step : Nat
  /-- The pair whose request sounds, where the source is a twin pair (Table 14-4). -/
  pair : Nat
  /-- The test request and its pattern. -/
  test : Option Nat
  /-- The requests of a PD1 fault and of a crystal loss (Table 14-4). -/
  pd1 : Bool
  xtal : Bool
  /-- Both legs are low until the next tone period (R477). -/
  oc : Bool
  /-- A recopy waits for the end of the tone period. -/
  reload : Bool
  deriving DecidableEq, Repr

/-- An event input's conditioning chain (R417). -/
structure Evt where
  /-- The pin level. -/
  pin : Bool
  /-- The debounced level. -/
  deb : Bool
  /-- Chatter holds the logical level at FRZ_LVL. -/
  frz : Bool
  /-- A stuck input is released until the debounced level goes inactive. -/
  rel : Bool
  /-- The milliseconds of the latest raw-level changes, latest first (R417). -/
  chg : List Nat
  deriving DecidableEq, Repr

/-- The vehicle blocks: the conditions of the CAN signals (R415), as a mask, and the event inputs. -/
structure Veh where
  cond : Nat
  evt : Vector Evt 8
  deriving DecidableEq, Repr

/-- A reference of Ochre (R321). -/
structure OcRef where
  /-- LOS at any time in the running window (R319). -/
  losWin : Bool
  /-- Consecutive good windows. -/
  cnt : Nat
  /-- Qualified since its enable or since Ochre restarted. -/
  quald : Bool
  deriving DecidableEq, Repr

/-- Ochre (R318 to R329). -/
structure Ochre where
  ref : Vector OcRef 8
  /-- s without the slew, in units of 2^-32. -/
  s0 : Int
  /-- The holdover frequency in force, in units of 2^-32. -/
  hold : Int
  /-- OFS, in units of 2^-16 of a domain-A period (R327). -/
  ofs : Int
  /-- The alignment and step parts of the remaining phase. -/
  remA : Int
  remS : Int
  /-- Means of s over the last seconds with a reference selected, newest first, at most 80, each with the whole seconds that have
  passed since its end, up to 15, the longest HOLD_GUARD (R324). -/
  means : List (Int × Nat)
  /-- Sum of s over the windows of the running second, and their number. -/
  sum : Int
  n : Nat
  /-- One of references 0 to 7 has been selected all through the running second (R324). -/
  whole : Bool
  /-- What the slew has added to the output's phase in the running window (R324, R326). -/
  moved : Int
  /-- s and the remainder are kept until an epoch starts (R329). -/
  held : Bool
  /-- Consecutive windows in which the tied candidates agreed (R323). -/
  agree : Nat
  deriving DecidableEq, Repr

/-- The PLLs' state beside their registers (R302 to R313). -/
structure Clk where
  /-- The APLL multiplier that the DCO follows, in units of 2^-40. -/
  cur : Nat
  /-- DEN in force (R309). -/
  den : Nat
  /-- Shadow DIV of MCLK0 to MCLK3 (R310). -/
  sh : Vector (Option Nat) 4
  /-- An APPLY: 0 none, 1 waits for its divider boundary, 2 the outputs are held low, 3 the same and another APPLY waits. -/
  apply : Nat
  /-- The delay in force of each output, APLL output k at 4 + k (R311). -/
  dly : Vector Nat 18
  /-- The least and the greatest delay that an output's delay has been sent to or from since it last stood still (R311). -/
  swing : Vector (Nat × Nat) 18
  /-- Band-memory entries of each PLL, most recently used first (R304). -/
  lru : Vector (List Nat) 2
  deriving DecidableEq, Repr

/-- An entry of the overlay policy (R442). -/
structure Policy where
  id : Nat
  stage : Nat
  base : Nat
  limit : Nat
  deriving DecidableEq, Repr

/-- A section: TYPE, DEST and payload (R430). -/
structure Sect where
  ty : Nat
  dest : Nat
  pay : List Byte
  deriving DecidableEq, Repr

/-- The boot sequencer, the power sequencer and the thermal policy (R423 to R449). -/
structure Boot where
  /-- Step of Table 15-1 in progress, 2 to 10; 11: boot complete; 0: power-on reset holds. -/
  step : Nat
  /-- Step 3 has taken effect. -/
  otpDone : Bool
  /-- RST_N or TMODE is asserted; VIN is valid. -/
  pin : Bool
  vin : Bool
  /-- What the sequencer reads: 0 nothing, 1 header, 2 header with a 4-byte address, 3 a stage; 4: it applies one that has been read. -/
  ph : Nat
  /-- A failed read waits for its backoff: the `ph` to take up again; 0: none. -/
  back : Nat
  /-- Failed attempts of the read in progress. -/
  tries : Nat
  /-- The stage that is read, or whose commit is awaited. -/
  stage : Nat
  /-- Stages that have run their start lists or held no bytes: stages below this one. -/
  done : Nat
  /-- A stage k ≥ 1 waits for its commit. -/
  wait : Bool
  /-- A stage was abandoned, or there is no image: no later stage is read. -/
  ended : Bool
  /-- The header in use, and the image's tags. -/
  hdr : List Byte
  tags : List Byte
  /-- Sections met so far. -/
  sects : Nat
  /-- The boot runs from the warm-start record. -/
  warm : Bool
  /-- The record is not used: the boot follows a mismatch (R440). -/
  noWarm : Bool
  /-- The background verification runs (R440). -/
  verify : Bool
  /-- What it has found of the flash: 0 nothing yet, 1 equal, 2 a valid image that differs, 3 no usable image. -/
  cmp : Nat
  /-- Work on the warm-start record waits for the first epoch (R438). -/
  wsTodo : Bool
  wsEn : Bool
  /-- Writes of the record are under way: 1 the record, 2 its invalidation alone, 0 none; and those that have not entered the MRAM
  queue (R353, R438). -/
  wsGo : Nat
  wsRest : List (Nat × List Byte)
  pol : List Policy
  /-- The image holds a permissions section (R394). -/
  perms : Bool
  /-- Committable objects whose shadow the stage wrote. -/
  mask : Nat
  /-- Start lists of the stage in progress. -/
  starts : List (Nat × Word)
  /-- Sections of the stage that the apply, which waits for a domain (`ph` 4), has not come to (R432). -/
  todo : List Sect
  /-- The zero-fill and the restore of this power-up of PD1 have run (R338). -/
  filled : Bool
  /-- Groups at which an access of the sequencer waits, or waited, for the wake (R340). -/
  memOld : Nat
  /-- A sleep request: 0 none, 1 RETAIN, 2 AON_ONLY; and the part sleeps. -/
  slp : Nat
  asleep : Bool
  /-- A PD1 fault waits for its retry (R445). -/
  fault : Bool
  /-- Domains that power up from retention, as a mask. -/
  fromRet : Nat
  /-- Clusters in the order in which they were parked, latest first (R448). -/
  parked : List Nat
  /-- A warning has fired and T_max has not fallen below WARN − HYST since (R447). -/
  warned : Bool
  /-- A sensor read 135 °C or more in the last evaluation (R449). -/
  hot : Bool
  /-- Evaluations with T_max below CRIT − HYST, and below 115 °C in the safe state, in a row. -/
  cool : Nat
  cold : Nat
  deriving DecidableEq, Repr

/-- A frame in execution, or the reply that it built (R386). -/
structure Reply where
  status : Nat
  tag : Nat
  info : Nat
  data : List Word
  deriving DecidableEq, Repr

/-- A host port (R374 to R402). -/
structure Port where
  /-- The SEL_N pin is low, whoever drives it. -/
  low : Bool
  /-- The port takes part in the frame in progress as a slave. -/
  sel : Bool
  /-- The frame in progress carries a reply (1), the busy pattern (2), or nothing (0). -/
  mode : Nat
  /-- The reply that is ready. -/
  ready : Option Reply
  /-- The reply that the frame in progress, or the last frame, shifted. -/
  shifted : Option Reply
  /-- The reply that the frame before that one shifted (R390). -/
  prior : Option Reply
  /-- An accepted frame that waits to be executed: OP, TAG, WORDS, ADDR and payload. -/
  req : Option (Nat × Nat × Nat × Nat × List Word)
  /-- A reply that is built and not ready. -/
  built : Option Reply
  /-- Words of the frame that have been served, and the data read. -/
  served : Nat
  data : List Word
  /-- COUNT[0] at the first word served, and it changed since. -/
  side : Bool
  split : Bool
  /-- The word in service is held by its target. -/
  held : Bool
  /-- The word in service arrived at a waking group, at this address: it takes effect once the group is ON (R340). -/
  woken : Option Nat
  /-- A change of MASTER waits for the frame in progress. -/
  mchg : Option Bool
  /-- The master frame has passed its sense. -/
  mrun : Bool
  /-- Another master was seen: the port drives nothing until the next GO (R400). -/
  off : Bool
  deriving DecidableEq, Repr

/-- The built-in chime pattern (R420). -/
def builtIn : List (Nat × Nat × Nat) := [(2400, 255, 20), (0, 0, 20)]

/-- A boot sequencer with nothing under way. -/
def Boot.zero : Boot where
  step := 0
  otpDone := false
  pin := false
  vin := false
  ph := 0
  back := 0
  tries := 0
  stage := 0
  done := 0
  wait := false
  ended := false
  hdr := []
  tags := []
  sects := 0
  warm := false
  noWarm := false
  verify := false
  cmp := 0
  wsTodo := false
  wsEn := false
  wsGo := 0
  wsRest := []
  pol := []
  perms := false
  mask := 0
  starts := []
  todo := []
  filled := false
  memOld := 0
  slp := 0
  asleep := false
  fault := false
  fromRet := 0
  parked := []
  warned := false
  hot := false
  cool := 0
  cold := 0

/-- The RESET reply (R389): STATUS 0x08, TAG 0, no data, ARG 0x8816. -/
def resetReply (side irq : Nat) : Reply := ⟨0x08, 0, side * 2 ^ 31 + irq * 2 ^ 29 + 0x8816, []⟩

/-- A host port after its reset (R389). -/
def Port.fresh : Port where
  low := false
  sel := false
  mode := 0
  ready := some (resetReply 0 0)
  shifted := none
  prior := none
  req := none
  built := none
  served := 0
  data := []
  side := false
  split := false
  held := false
  woken := none
  mchg := none
  mrun := false
  off := false


/-- An access of a DMA channel that has issued and waits for its response (R362). -/
structure DmaAcc where
  wr : Bool
  addr : Nat
  size : Nat
  data : List Byte
  /-- Its place in the order in which the engine issued accesses (R333). -/
  seq : Nat
  /-- It was issued before its group refused accesses (R339). -/
  ok : Bool
  /-- It stands in the MRAM write queue (R353). -/
  queued : Bool
  deriving DecidableEq, Repr

/-- A DMA channel's run-time state (R359 to R369). -/
structure DmaCh where
  /-- 0 idle, 1 running a set, 2 draining to ABORTED, 3 draining to ERROR, 4 link read, 5 descriptor load, 6 reread in
  CHAIN_END, 7 read of the Vat descriptor. -/
  ph : Nat
  /-- Bytes whose reads have not issued. -/
  left : Nat
  /-- Read data that no write has taken. -/
  buf : List Byte
  /-- Outstanding accesses, in issue order. -/
  out : List DmaAcc
  /-- An abort waits for the read of a link word or descriptor under way. -/
  stop : Bool
  /-- A RESUME came while the reread of CHAIN_END was under way: the word is read once more (R369). -/
  again : Bool
  deriving DecidableEq, Repr

/-- A channel with nothing under way. -/
def DmaCh.idle : DmaCh := ⟨0, 0, [], [], false, false⟩

/-- The DMA engine. -/
structure DmaS where
  ch : Vector DmaCh 32
  /-- The channels whose turn comes next, with PRIO = 0 and with PRIO = 1 (R362). -/
  turn : Nat
  turnP : Nat
  /-- Accesses issued so far. -/
  seq : Nat
  deriving DecidableEq, Repr

/-- The epoch machine and the tick count (R32 to R42). -/
structure Sys where
  /-- Quarters of a domain-A tick since the epoch start: the edge last passed. -/
  qt : Nat
  /-- ENG_CLK cycle, within the domain-A tick, of the latest timed command. -/
  cyc : Nat
  /-- What that cycle has seen, by address or key, for the order of events in one cycle: the live words and override words written, each
  with the place of its writer (R59, R142, R416, R418), the words that link ports met (R380), and signals received or timed out
  (R413). -/
  wrote : List (Nat × Nat)
  /-- Epoch causes due at the next common boundary: family, rate, reload, host (Table 01-6). -/
  dueFam : Bool
  dueRate : Bool
  dueReload : Bool
  dueHost : Bool
  /-- Those causes, in that order from bit 0, and a sleep request (bit 4), that came after the latest tick boundary: they wait
  for a later one (Table 01-6). -/
  late : Nat
  /-- CAUSE of the epoch that the drain leads to (R42). -/
  cause : Nat
  /-- The clear of R36 runs. -/
  clearing : Bool
  /-- The clear of R36 has completed. -/
  cleared : Bool
  /-- ENG_CLK runs in the rate family of DOM_ACT (R37). -/
  engClk : Bool
  /-- Snapshot sources that the running command has fired (Table 15-10). -/
  trig : Nat
  /-- Thermal evaluations since power-on reset: one for each millisecond (R447). -/
  ms : Nat
  /-- The fault codes that were logged, with the millisecond of the last entry of each (R454). -/
  logged : List (Nat × Nat)
  deriving DecidableEq, Repr

/-- What a bus access answers to its master (R13, R341, R381). -/
inductive Resp where
  | ok
  /-- DENIED: the master has no right (R373, R380). -/
  | denied
  /-- REFUSED: the request was refused in the state it met (R114). -/
  | refused
  /-- The access failed in the memory or at the decoder, with the error type of R341. -/
  | error (kind : Nat)
  /-- The write is held: no answer yet (R126). -/
  | held
  deriving DecidableEq, Repr

/-- The state of the SLD-8816 and the queue of commands that wait. -/
structure State where
  /-- The commands that wait, first in, first out. -/
  pending : List Instr
  /-- The registers and the words of the Mordant objects in register space, by address: entries differ from the reset value. -/
  regs : List (Nat × Word)
  /-- Memory below 0x0800_0000: bytes that are not 0. -/
  mem : List Host.Cell
  sys : Sys
  te : Vector Engine 8
  md : Mord
  mig : Mig
  dom : Dom
  rt : Rt
  pdm : Pdm
  tp : Vector Tp 6
  asrc : Vector Asrc 8
  sm : Stores
  vat : VatS
  ig : Vector Core 16
  dma : DmaS
  chime : Chime
  veh : Veh
  oc : Ochre
  clk : Clk
  boot : Boot
  hp : Vector Port 4
  /-- RL latches by master and address of the low half (R17). -/
  latches : List (Nat × Word)
  /-- The answer to the last bus access, and the word it read. -/
  resp : Resp
  rdata : Word
  /-- The bytes that the last memory read returned (R332). -/
  rbytes : List Byte
  /-- The model's own counter: how many free values have been drawn. -/
  free : Nat
  deriving DecidableEq, Repr

/-- No command of this block ends in a fault: the spec names an answer for every command, in registers, replies or
interrupt bits. The type has no value. -/
inductive Fault where
  deriving DecidableEq, Repr

/-- Why the model refuses a command. -/
inductive Refusal where
  /-- The command has no meaning yet. Raised by the arms of `exec` alone; safe: nothing is claimed of it. -/
  | notModelled (mnemonic : String)
  deriving DecidableEq, Repr

/-- The machine right after power-on reset (R8, R467): every register at the reset value of its table, memory with nothing
listed, no engine or core with anything in it, nothing under way, and no command waiting. -/
def State.reset : State where
  pending := []
  regs := []
  mem := []
  sys := ⟨0, 0, [], false, false, false, false, 0, 0, false, false, false, 0, 0, []⟩
  te := Vector.replicate 8 Engine.zero
  md := ⟨none, none, 0, false, [], [], [], [], [], []⟩
  mig := ⟨0, 0, 0, false, false, 0, 0, 0, 0, [], none, 0, false, 0, 0, 0, 0, Vector.replicate 4 0⟩
  dom := ⟨none, 0x4401#32, 0, Vector.replicate 16 0⟩
  rt := ⟨⟨[], [], [], []⟩, none, [], [], [], [], [], [], [], [],
    Vector.replicate 8 ⟨0#32, 0#32, false, 0#32, 0⟩, Vector.replicate 16 ⟨Vector.replicate 8 []⟩⟩
  pdm := ⟨Vector.replicate 24 ⟨⟨0, 0, 0#32, 0#32⟩, 0, 0, false, 0#32, 0, []⟩, Vector.replicate 3 0xC0#32, Vector.replicate 3 false,
    Vector.replicate 3 0⟩
  tp := Vector.replicate 6 ⟨[], [], [], [], false, false, false, 0, 0, [], 0, 0, 0, 0,
    Vector.replicate 16 ⟨0, 0, 0#32, 0#32⟩, []⟩
  asrc := Vector.replicate 8 ⟨0, 0, 0, 0, Vector.replicate 8 [], Vector.replicate 8 0, 0⟩
  sm := ⟨[], [], [], [], 0#32, 0#32, [], false, false, 0, 0, 0, 0, false⟩
  vat := ⟨[], [], [], 0, [], Vector.replicate 4 [], [], [], Vector.replicate 4 [], Vector.replicate 8 ⟨0, 0, none, none, none⟩, []⟩
  ig := Vector.replicate 16 Core.zero
  dma := ⟨Vector.replicate 32 DmaCh.idle, 0, 0, 0⟩
  chime := ⟨Vector.replicate 4 builtIn, 0, 0, none, false, false, false, false⟩
  veh := ⟨0, Vector.replicate 8 ⟨false, false, false, false, []⟩⟩
  oc := ⟨Vector.replicate 8 ⟨false, 0, false⟩, 0, 0, 0, 0, 0, [], 0, 0, false, 0, false, 0⟩
  clk := ⟨96 * 2 ^ 40, 1, Vector.replicate 4 none, 0, Vector.replicate 18 0, Vector.replicate 18 (0, 0), Vector.replicate 2 []⟩
  boot := { Boot.zero with step := 2, vin := true }
  hp := Vector.replicate 4 Port.fresh
  latches := []
  resp := .ok
  rdata := 0#32
  rbytes := []
  free := 0

end Sys2Proof.Machine
end

