-- ==== Sys2Proof/Machine/Fields.lean ====
section
/-! DEFINITION. The names of the registers and of their fields (R8, R20): one `R.` address for every register that a
chapter describes, one `F.` field for every field of its field table. -/

namespace Sys2Proof.Machine

/-- SYS_ID (01_architecture.md). -/
def R.sysId : Nat := 0x08000000
def F.sysIdPart : Fld := ⟨R.sysId, 16, 16⟩
def F.sysIdMajor : Fld := ⟨R.sysId, 12, 4⟩
def F.sysIdMinor : Fld := ⟨R.sysId, 8, 4⟩
/-- SYS_STATE (01_architecture.md). -/
def R.sysState : Nat := 0x08000004
def F.sysStateLc : Fld := ⟨R.sysState, 8, 2⟩
def F.sysStateWarm : Fld := ⟨R.sysState, 6, 1⟩
def F.sysStateStage : Fld := ⟨R.sysState, 4, 2⟩
def F.sysStateState : Fld := ⟨R.sysState, 0, 3⟩
/-- SYS_CTRL (01_architecture.md). -/
def R.sysCtrl : Nat := 0x08000008
def F.sysCtrlReepoch : Fld := ⟨R.sysCtrl, 0, 1⟩
/-- SYS_EPOCH (01_architecture.md). -/
def R.sysEpoch : Nat := 0x0800000C
def F.sysEpochCause : Fld := ⟨R.sysEpoch, 16, 3⟩
def F.sysEpochEpoch : Fld := ⟨R.sysEpoch, 0, 16⟩
/-- SYS_TSTAMP_LO (01_architecture.md). -/
def R.sysTstampLo : Nat := 0x08000010
def F.sysTstampLoTstampLo : Fld := ⟨R.sysTstampLo, 0, 32⟩
/-- SYS_TSTAMP_HI (01_architecture.md). -/
def R.sysTstampHi : Nat := 0x08000014
def F.sysTstampHiEpoch : Fld := ⟨R.sysTstampHi, 16, 16⟩
def F.sysTstampHiTstampHi : Fld := ⟨R.sysTstampHi, 0, 16⟩
/-- TEn_CTRL (02_tick_engines.md). -/
def R.teCtrl (n : Nat) : Nat := 0x08010000 + 0x1000 * n
def F.teCtrlLiveHold (n : Nat) : Fld := ⟨R.teCtrl n, 12, 1⟩
def F.teCtrlClrstate (n : Nat) : Fld := ⟨R.teCtrl n, 8, 1⟩
def F.teCtrlDomain (n : Nat) : Fld := ⟨R.teCtrl n, 4, 2⟩
def F.teCtrlRun (n : Nat) : Fld := ⟨R.teCtrl n, 0, 1⟩
/-- TEn_STATUS (02_tick_engines.md). -/
def R.teStatus (n : Nat) : Nat := 0x08010004 + 0x1000 * n
def F.teStatusCfgIgn (n : Nat) : Fld := ⟨R.teStatus n, 13, 1⟩
def F.teStatusIllegal (n : Nat) : Fld := ⟨R.teStatus n, 12, 1⟩
def F.teStatusPmemIgn (n : Nat) : Fld := ⟨R.teStatus n, 11, 1⟩
def F.teStatusEmitDrop (n : Nat) : Fld := ⟨R.teStatus n, 10, 1⟩
def F.teStatusAccOvf (n : Nat) : Fld := ⟨R.teStatus n, 9, 1⟩
def F.teStatusLenErr (n : Nat) : Fld := ⟨R.teStatus n, 8, 1⟩
def F.teStatusClrBusy (n : Nat) : Fld := ⟨R.teStatus n, 4, 1⟩
def F.teStatusState (n : Nat) : Fld := ⟨R.teStatus n, 0, 2⟩
/-- TEn_PROG_LEN (02_tick_engines.md). -/
def R.teProgLen (n : Nat) : Nat := 0x08010008 + 0x1000 * n
def F.teProgLenLen (n : Nat) : Fld := ⟨R.teProgLen n, 0, 14⟩
/-- TEn_SCALE (02_tick_engines.md). -/
def R.teScale (n : Nat) : Nat := 0x0801000C + 0x1000 * n
def F.teScaleFlagclr (n : Nat) : Fld := ⟨R.teScale n, 9, 1⟩
def F.teScaleOutzero (n : Nat) : Fld := ⟨R.teScale n, 8, 1⟩
def F.teScaleS (n : Nat) : Fld := ⟨R.teScale n, 0, 4⟩
/-- TEn_SCALE_ACT (02_tick_engines.md). -/
def R.teScaleAct (n : Nat) : Nat := 0x08010010 + 0x1000 * n
def F.teScaleActActive (n : Nat) : Fld := ⟨R.teScaleAct n, 0, 32⟩
/-- TEn_SAT_CNT (02_tick_engines.md). -/
def R.teSatCnt (n : Nat) : Nat := 0x08010014 + 0x1000 * n
def F.teSatCntCount (n : Nat) : Fld := ⟨R.teSatCnt n, 0, 32⟩
/-- TEn_WP (02_tick_engines.md). -/
def R.teWp (n : Nat) : Nat := 0x08010018 + 0x1000 * n
def F.teWpWp (n : Nat) : Fld := ⟨R.teWp n, 0, 18⟩
/-- TEn_EMIT_CNT (02_tick_engines.md). -/
def R.teEmitCnt (n : Nat) : Nat := 0x0801001C + 0x1000 * n
def F.teEmitCntRefused (n : Nat) : Fld := ⟨R.teEmitCnt n, 16, 16⟩
def F.teEmitCntDropped (n : Nat) : Fld := ⟨R.teEmitCnt n, 0, 16⟩
/-- TEn_FLAGS (02_tick_engines.md). -/
def R.teFlags (n : Nat) : Nat := 0x08010020 + 0x1000 * n
def F.teFlagsF (n : Nat) : Fld := ⟨R.teFlags n, 0, 4⟩
/-- TEn_LIVEm (02_tick_engines.md). -/
def R.teLive (n : Nat) (m : Nat) : Nat := 0x08010040 + 0x1000 * n + 0x4 * m
def F.teLiveValue (n : Nat) (m : Nat) : Fld := ⟨R.teLive n m, 0, 32⟩
/-- TEn_DREGm (02_tick_engines.md). -/
def R.teDreg (n : Nat) (m : Nat) : Nat := 0x08010080 + 0x1000 * n + 0x4 * m
def F.teDregValue (n : Nat) (m : Nat) : Fld := ⟨R.teDreg n m, 0, 32⟩
/-- TEn_AINTm (02_tick_engines.md). -/
def R.teAint (n : Nat) (m : Nat) : Nat := 0x08010100 + 0x1000 * n + 0x8 * m
def F.teAintAi (n : Nat) (m : Nat) : Fld := ⟨R.teAint n m, 0, 18⟩
/-- TEn_AFRACm (02_tick_engines.md). -/
def R.teAfrac (n : Nat) (m : Nat) : Nat := 0x08010104 + 0x1000 * n + 0x8 * m
def F.teAfracAf (n : Nat) (m : Nat) : Fld := ⟨R.teAfrac n m, 0, 16⟩
/-- TEn_EMIT_TPL (02_tick_engines.md). -/
def R.teEmitTpl (n : Nat) (m : Nat) (w : Nat) : Nat := 0x08010200 + 0x1000 * n + 0x20 * m + 0x4 * w
def F.teEmitTplWord (n : Nat) (m : Nat) (w : Nat) : Fld := ⟨R.teEmitTpl n m w, 0, 32⟩
/-- MD_REQ (04_mordant_commits.md). -/
def R.mdReq : Nat := 0x08020000
def F.mdReqSeq : Fld := ⟨R.mdReq, 16, 16⟩
def F.mdReqMask : Fld := ⟨R.mdReq, 0, 12⟩
/-- MD_STATUS (04_mordant_commits.md). -/
def R.mdStatus : Nat := 0x08020004
def F.mdStatusFrozen : Fld := ⟨R.mdStatus, 18, 1⟩
def F.mdStatusRecon : Fld := ⟨R.mdStatus, 17, 1⟩
def F.mdStatusPending : Fld := ⟨R.mdStatus, 16, 1⟩
def F.mdStatusSrc : Fld := ⟨R.mdStatus, 8, 3⟩
def F.mdStatusCount : Fld := ⟨R.mdStatus, 0, 8⟩
/-- MD_APPLIED_LO (04_mordant_commits.md). -/
def R.mdAppliedLo : Nat := 0x08020008
def F.mdAppliedLoTstampLo : Fld := ⟨R.mdAppliedLo, 0, 32⟩
/-- MD_APPLIED_HI (04_mordant_commits.md). -/
def R.mdAppliedHi : Nat := 0x0802000C
def F.mdAppliedHiSeq : Fld := ⟨R.mdAppliedHi, 16, 16⟩
def F.mdAppliedHiTstampHi : Fld := ⟨R.mdAppliedHi, 0, 16⟩
/-- MD_PEND (04_mordant_commits.md). -/
def R.mdPend : Nat := 0x08020010
def F.mdPendSeq : Fld := ⟨R.mdPend, 16, 16⟩
def F.mdPendMask : Fld := ⟨R.mdPend, 0, 12⟩
/-- MD_RECON (04_mordant_commits.md). -/
def R.mdRecon : Nat := 0x08020014
def F.mdReconObj : Fld := ⟨R.mdRecon, 24, 4⟩
def F.mdReconRemain : Fld := ⟨R.mdRecon, 0, 17⟩
/-- MD_ERR (04_mordant_commits.md). -/
def R.mdErr : Nat := 0x08020018
def F.mdErrIqStall : Fld := ⟨R.mdErr, 4, 1⟩
def F.mdErrActiveWr : Fld := ⟨R.mdErr, 3, 1⟩
def F.mdErrGlideG : Fld := ⟨R.mdErr, 2, 1⟩
def F.mdErrGlideDup : Fld := ⟨R.mdErr, 1, 1⟩
def F.mdErrUnpowered : Fld := ⟨R.mdErr, 0, 1⟩
/-- MD_HOSTh (04_mordant_commits.md). -/
def R.mdHost (h : Nat) : Nat := 0x08020020 + 0x4 * h
def F.mdHostAccSeq (h : Nat) : Fld := ⟨R.mdHost h, 16, 16⟩
def F.mdHostAppSeq (h : Nat) : Fld := ⟨R.mdHost h, 0, 16⟩
/-- MD_GLIDE_CFGn_m (04_mordant_commits.md). -/
def R.mdGlideCfg (n : Nat) (m : Nat) : Nat := 0x08020400 + 0x100 * n + 0x4 * m
def F.mdGlideCfgEn (n : Nat) (m : Nat) : Fld := ⟨R.mdGlideCfg n m, 31, 1⟩
def F.mdGlideCfgG (n : Nat) (m : Nat) : Fld := ⟨R.mdGlideCfg n m, 16, 4⟩
def F.mdGlideCfgAddr (n : Nat) (m : Nat) : Fld := ⟨R.mdGlideCfg n m, 0, 13⟩
/-- MD_GLIDE_BUSYn_LO (04_mordant_commits.md). -/
def R.mdGlideBusyLo (n : Nat) : Nat := 0x08020C00 + 0x8 * n
def F.mdGlideBusyLoBusy (n : Nat) : Fld := ⟨R.mdGlideBusyLo n, 0, 32⟩
/-- MD_GLIDE_BUSYn_HI (04_mordant_commits.md). -/
def R.mdGlideBusyHi (n : Nat) : Nat := 0x08020C04 + 0x8 * n
def F.mdGlideBusyHiBusy (n : Nat) : Fld := ⟨R.mdGlideBusyHi n, 0, 32⟩
/-- OVR_WORDm (04_mordant_commits.md). -/
def R.ovrWord (m : Nat) : Nat := 0x08058000 + 0x4 * m
def F.ovrWordMode (m : Nat) : Fld := ⟨R.ovrWord m, 30, 2⟩
def F.ovrWordGain (m : Nat) : Fld := ⟨R.ovrWord m, 0, 24⟩
/-- OVR_SINKm (04_mordant_commits.md). -/
def R.ovrSink (m : Nat) : Nat := 0x08058080 + 0x4 * m
def F.ovrSinkEn (m : Nat) : Fld := ⟨R.ovrSink m, 31, 1⟩
def F.ovrSinkInput (m : Nat) : Fld := ⟨R.ovrSink m, 16, 5⟩
def F.ovrSinkSink (m : Nat) : Fld := ⟨R.ovrSink m, 0, 12⟩
/-- MIG_CTRL (05_twins_and_migration.md). -/
def R.migCtrl : Nat := 0x08021000
def F.migCtrlStart : Fld := ⟨R.migCtrl, 31, 1⟩
def F.migCtrlAbort : Fld := ⟨R.migCtrl, 30, 1⟩
def F.migCtrlSrcEn : Fld := ⟨R.migCtrl, 17, 1⟩
def F.migCtrlTauto : Fld := ⟨R.migCtrl, 16, 1⟩
def F.migCtrlMode : Fld := ⟨R.migCtrl, 12, 2⟩
def F.migCtrlDst : Fld := ⟨R.migCtrl, 8, 3⟩
def F.migCtrlSrc : Fld := ⟨R.migCtrl, 0, 3⟩
/-- MIG_SWEEP (05_twins_and_migration.md). -/
def R.migSweep : Nat := 0x08021004
def F.migSweepLen : Fld := ⟨R.migSweep, 0, 19⟩
/-- MIG_TREQ_LO (05_twins_and_migration.md). -/
def R.migTreqLo : Nat := 0x08021008
def F.migTreqLoTLo : Fld := ⟨R.migTreqLo, 0, 32⟩
/-- MIG_TREQ_HI (05_twins_and_migration.md). -/
def R.migTreqHi : Nat := 0x0802100C
def F.migTreqHiTHi : Fld := ⟨R.migTreqHi, 0, 16⟩
/-- MIG_STATUS (05_twins_and_migration.md). -/
def R.migStatus : Nat := 0x08021010
def F.migStatusTap : Fld := ⟨R.migStatus, 18, 1⟩
def F.migStatusDone : Fld := ⟨R.migStatus, 17, 1⟩
def F.migStatusAbandoned : Fld := ⟨R.migStatus, 16, 1⟩
def F.migStatusVerify : Fld := ⟨R.migStatus, 15, 1⟩
def F.migStatusSet : Fld := ⟨R.migStatus, 14, 1⟩
def F.migStatusProg : Fld := ⟨R.migStatus, 13, 1⟩
def F.migStatusTwin : Fld := ⟨R.migStatus, 12, 1⟩
def F.migStatusPower : Fld := ⟨R.migStatus, 11, 1⟩
def F.migStatusDomain : Fld := ⟨R.migStatus, 10, 1⟩
def F.migStatusErrState : Fld := ⟨R.migStatus, 9, 1⟩
def F.migStatusBusy : Fld := ⟨R.migStatus, 8, 1⟩
def F.migStatusState : Fld := ⟨R.migStatus, 0, 3⟩
/-- MIG_REMAIN (05_twins_and_migration.md). -/
def R.migRemain : Nat := 0x08021014
def F.migRemainRemain : Fld := ⟨R.migRemain, 0, 19⟩
/-- MIG_TACT_LO (05_twins_and_migration.md). -/
def R.migTactLo : Nat := 0x08021018
def F.migTactLoTLo : Fld := ⟨R.migTactLo, 0, 32⟩
/-- MIG_TACT_HI (05_twins_and_migration.md). -/
def R.migTactHi : Nat := 0x0802101C
def F.migTactHiTHi : Fld := ⟨R.migTactHi, 0, 16⟩
/-- MIG_ALIAS (05_twins_and_migration.md). -/
def R.migAlias : Nat := 0x08021020
def F.migAliasEn (x : Nat) : Fld := ⟨R.migAlias, 4 * x + 3, 1⟩
def F.migAliasTgt (x : Nat) : Fld := ⟨R.migAlias, 4 * x + 0, 3⟩
/-- TWIN_CTRLp (05_twins_and_migration.md). -/
def R.twinCtrl (p : Nat) : Nat := 0x08021100 + 0x10 * p
def F.twinCtrlStart (p : Nat) : Fld := ⟨R.twinCtrl p, 31, 1⟩
def F.twinCtrlPat (p : Nat) : Fld := ⟨R.twinCtrl p, 4, 2⟩
def F.twinCtrlAction (p : Nat) : Fld := ⟨R.twinCtrl p, 1, 2⟩
def F.twinCtrlEn (p : Nat) : Fld := ⟨R.twinCtrl p, 0, 1⟩
/-- TWIN_TAP_LOp (05_twins_and_migration.md). -/
def R.twinTapLo (p : Nat) : Nat := 0x08021104 + 0x10 * p
def F.twinTapLoTap (p : Nat) : Fld := ⟨R.twinTapLo p, 0, 32⟩
/-- TWIN_TAP_HIp (05_twins_and_migration.md). -/
def R.twinTapHi (p : Nat) : Nat := 0x08021108 + 0x10 * p
def F.twinTapHiTap (p : Nat) : Fld := ⟨R.twinTapHi p, 0, 32⟩
/-- TWIN_STATUS (05_twins_and_migration.md). -/
def R.twinStatus : Nat := 0x08021140
def F.twinStatusTwinMismatch (p : Nat) : Fld := ⟨R.twinStatus, 8 * p + 3, 1⟩
def F.twinStatusVoice (p : Nat) : Fld := ⟨R.twinStatus, 8 * p + 2, 1⟩
def F.twinStatusState (p : Nat) : Fld := ⟨R.twinStatus, 8 * p + 0, 2⟩
/-- TWIN_MIS_STAMPp (05_twins_and_migration.md). -/
def R.twinMisStamp (p : Nat) : Nat := 0x08021150 + 0x8 * p
def F.twinMisStampStamp (p : Nat) : Fld := ⟨R.twinMisStamp p, 0, 32⟩
/-- TWIN_MIS_INFOp (05_twins_and_migration.md). -/
def R.twinMisInfo (p : Nat) : Nat := 0x08021154 + 0x8 * p
def F.twinMisInfoCount (p : Nat) : Fld := ⟨R.twinMisInfo p, 16, 5⟩
def F.twinMisInfoWord (p : Nat) : Fld := ⟨R.twinMisInfo p, 0, 6⟩
/-- DOM_CFG (06_rate_domains_and_bridges.md). -/
def R.domCfg : Nat := 0x08022000
def F.domCfgKc : Fld := ⟨R.domCfg, 12, 3⟩
def F.domCfgKb : Fld := ⟨R.domCfg, 8, 3⟩
def F.domCfgFsa : Fld := ⟨R.domCfg, 0, 3⟩
/-- DOM_CTRL (06_rate_domains_and_bridges.md). -/
def R.domCtrl : Nat := 0x08022004
def F.domCtrlApply : Fld := ⟨R.domCtrl, 0, 1⟩
/-- DOM_ACT (06_rate_domains_and_bridges.md). -/
def R.domAct : Nat := 0x08022008
def F.domActActive : Fld := ⟨R.domAct, 0, 32⟩
/-- DOM_STATUS (06_rate_domains_and_bridges.md). -/
def R.domStatus : Nat := 0x0802200C
def F.domStatusErrBusy : Fld := ⟨R.domStatus, 18, 1⟩
def F.domStatusErrCode : Fld := ⟨R.domStatus, 17, 1⟩
def F.domStatusPend : Fld := ⟨R.domStatus, 16, 1⟩
def F.domStatusUseC : Fld := ⟨R.domStatus, 9, 1⟩
def F.domStatusUseB : Fld := ⟨R.domStatus, 8, 1⟩
def F.domStatusM : Fld := ⟨R.domStatus, 0, 4⟩
/-- DOM_DTICKB_LO (06_rate_domains_and_bridges.md). -/
def R.domDtickbLo : Nat := 0x08022010
def F.domDtickbLoDtickLo : Fld := ⟨R.domDtickbLo, 0, 32⟩
/-- DOM_DTICKC_LO (06_rate_domains_and_bridges.md). -/
def R.domDtickcLo : Nat := 0x08022018
def F.domDtickcLoDtickLo : Fld := ⟨R.domDtickcLo, 0, 32⟩
/-- DOM_DTICKB_HI (06_rate_domains_and_bridges.md). -/
def R.domDtickbHi : Nat := 0x08022014
def F.domDtickbHiEpoch : Fld := ⟨R.domDtickbHi, 16, 16⟩
def F.domDtickbHiDtickHi : Fld := ⟨R.domDtickbHi, 0, 16⟩
/-- DOM_DTICKC_HI (06_rate_domains_and_bridges.md). -/
def R.domDtickcHi : Nat := 0x0802201C
def F.domDtickcHiEpoch : Fld := ⟨R.domDtickcHi, 16, 16⟩
def F.domDtickcHiDtickHi : Fld := ⟨R.domDtickcHi, 0, 16⟩
/-- BRn_CFG (06_rate_domains_and_bridges.md). -/
def R.brCfg (n : Nat) : Nat := 0x08022100 + 0x10 * n
def F.brCfgTrim (n : Nat) : Fld := ⟨R.brCfg n, 16, 8⟩
def F.brCfgOutDom (n : Nat) : Fld := ⟨R.brCfg n, 8, 2⟩
def F.brCfgInDom (n : Nat) : Fld := ⟨R.brCfg n, 4, 2⟩
def F.brCfgEn (n : Nat) : Fld := ⟨R.brCfg n, 0, 1⟩
/-- BRn_LAT (06_rate_domains_and_bridges.md). -/
def R.brLat (n : Nat) : Nat := 0x08022104 + 0x10 * n
def F.brLatInt (n : Nat) : Fld := ⟨R.brLat n, 16, 16⟩
def F.brLatFrac (n : Nat) : Fld := ⟨R.brLat n, 0, 16⟩
/-- BRn_STATUS (06_rate_domains_and_bridges.md). -/
def R.brStatus (n : Nat) : Nat := 0x08022108 + 0x10 * n
def F.brStatusSat (n : Nat) : Fld := ⟨R.brStatus n, 4, 1⟩
def F.brStatusCfgIgn (n : Nat) : Fld := ⟨R.brStatus n, 3, 1⟩
def F.brStatusCfgErr (n : Nat) : Fld := ⟨R.brStatus n, 2, 1⟩
def F.brStatusState (n : Nat) : Fld := ⟨R.brStatus n, 0, 2⟩
/-- RT_STATUS (07_routing_mixing_dynamics.md). -/
def R.rtStatus : Nat := 0x0804C000
def F.rtStatusSat : Fld := ⟨R.rtStatus, 7, 1⟩
def F.rtStatusPatchErr : Fld := ⟨R.rtStatus, 6, 1⟩
def F.rtStatusRankOvf : Fld := ⟨R.rtStatus, 5, 1⟩
def F.rtStatusLoop : Fld := ⟨R.rtStatus, 4, 1⟩
def F.rtStatusIdErr : Fld := ⟨R.rtStatus, 3, 1⟩
def F.rtStatusDomErr : Fld := ⟨R.rtStatus, 2, 1⟩
def F.rtStatusDlyOvf : Fld := ⟨R.rtStatus, 1, 1⟩
def F.rtStatusLoadOvf : Fld := ⟨R.rtStatus, 0, 1⟩
/-- RT_LOAD (07_routing_mixing_dynamics.md). -/
def R.rtLoad : Nat := 0x0804C004
def F.rtLoadW : Fld := ⟨R.rtLoad, 0, 29⟩
/-- RT_ERR_ENTRY (07_routing_mixing_dynamics.md). -/
def R.rtErrEntry : Nat := 0x0804C008
def F.rtErrEntryValid : Fld := ⟨R.rtErrEntry, 31, 1⟩
def F.rtErrEntryReason : Fld := ⟨R.rtErrEntry, 16, 3⟩
def F.rtErrEntryEntry : Fld := ⟨R.rtErrEntry, 0, 11⟩
/-- RT_SAT_CNT (07_routing_mixing_dynamics.md). -/
def R.rtSatCnt : Nat := 0x0804C00C
def F.rtSatCntCount : Fld := ⟨R.rtSatCnt, 0, 32⟩
/-- RT_SAT_SINK (07_routing_mixing_dynamics.md). -/
def R.rtSatSink : Nat := 0x0804C010
def F.rtSatSinkInput : Fld := ⟨R.rtSatSink, 12, 5⟩
def F.rtSatSinkSink : Fld := ⟨R.rtSatSink, 0, 12⟩
/-- RT_XF_BUSY (07_routing_mixing_dynamics.md). -/
def R.rtXfBusy : Nat := 0x0804C014
def F.rtXfBusyCount : Fld := ⟨R.rtXfBusy, 0, 12⟩
/-- RT_MTR_CFGm (07_routing_mixing_dynamics.md). -/
def R.rtMtrCfg (m : Nat) : Nat := 0x0804C100 + 0x8 * m
def F.rtMtrCfgEn (m : Nat) : Fld := ⟨R.rtMtrCfg m, 31, 1⟩
def F.rtMtrCfgInput (m : Nat) : Fld := ⟨R.rtMtrCfg m, 12, 5⟩
def F.rtMtrCfgSink (m : Nat) : Fld := ⟨R.rtMtrCfg m, 0, 12⟩
/-- RT_MTR_PKm (07_routing_mixing_dynamics.md). -/
def R.rtMtrPk (m : Nat) : Nat := 0x0804C104 + 0x8 * m
def F.rtMtrPkPeak (m : Nat) : Fld := ⟨R.rtMtrPk m, 0, 31⟩
/-- SUM_STATn (07_routing_mixing_dynamics.md). -/
def R.sumStat (n : Nat) : Nat := 0x0804C400 + 0x4 * n
def F.sumStatSat (n : Nat) : Fld := ⟨R.sumStat n, 9, 1⟩
def F.sumStatRamp (n : Nat) : Fld := ⟨R.sumStat n, 8, 1⟩
def F.sumStatNact (n : Nat) : Fld := ⟨R.sumStat n, 0, 6⟩
/-- TGm_CFG (07_routing_mixing_dynamics.md). -/
def R.tgCfg (m : Nat) : Nat := 0x0804C800 + 0x8 * m
def F.tgCfgEn (m : Nat) : Fld := ⟨R.tgCfg m, 31, 1⟩
def F.tgCfgDomain (m : Nat) : Fld := ⟨R.tgCfg m, 28, 2⟩
def F.tgCfgWave (m : Nat) : Fld := ⟨R.tgCfg m, 24, 2⟩
def F.tgCfgLevel (m : Nat) : Fld := ⟨R.tgCfg m, 0, 11⟩
/-- TGm_STEP (07_routing_mixing_dynamics.md). -/
def R.tgStep (m : Nat) : Nat := 0x0804C804 + 0x8 * m
def F.tgStepStep (m : Nat) : Fld := ⟨R.tgStep m, 0, 32⟩
/-- UMB_GRu (07_routing_mixing_dynamics.md). -/
def R.umbGr (u : Nat) : Nat := 0x08051000 + 0x4 * u
def F.umbGrGr (u : Nat) : Fld := ⟨R.umbGr u, 0, 14⟩
/-- UMB_GRMAXu (07_routing_mixing_dynamics.md). -/
def R.umbGrmax (u : Nat) : Nat := 0x08051080 + 0x4 * u
def F.umbGrmaxGr (u : Nat) : Fld := ⟨R.umbGrmax u, 0, 14⟩
/-- UMB_STATUS (07_routing_mixing_dynamics.md). -/
def R.umbStatus : Nat := 0x08051100
def F.umbStatusSat : Fld := ⟨R.umbStatus, 2, 1⟩
def F.umbStatusLinkErr : Fld := ⟨R.umbStatus, 1, 1⟩
def F.umbStatusCfgErr : Fld := ⟨R.umbStatus, 0, 1⟩
/-- IGn_CTRL (08_indigo_cores.md). -/
def R.igCtrl (n : Nat) : Nat := 0x08060000 + 0x1000 * n
def F.igCtrlIcinv (n : Nat) : Fld := ⟨R.igCtrl n, 7, 1⟩
def F.igCtrlLock0 (n : Nat) : Fld := ⟨R.igCtrl n, 6, 1⟩
def F.igCtrlOvfTrap (n : Nat) : Fld := ⟨R.igCtrl n, 5, 1⟩
def F.igCtrlDbellIe (n : Nat) : Fld := ⟨R.igCtrl n, 4, 1⟩
/-- IGn_STATUS (08_indigo_cores.md). -/
def R.igStatus (n : Nat) : Nat := 0x08060004 + 0x1000 * n
def F.igStatusFarErr (n : Nat) : Fld := ⟨R.igStatus n, 11, 1⟩
def F.igStatusWdtAbort (n : Nat) : Fld := ⟨R.igStatus n, 10, 1⟩
def F.igStatusFetchErr (n : Nat) : Fld := ⟨R.igStatus n, 9, 1⟩
def F.igStatusIll (n : Nat) : Fld := ⟨R.igStatus n, 8, 1⟩
def F.igStatusMisalign (n : Nat) : Fld := ⟨R.igStatus n, 7, 1⟩
def F.igStatusAccOvf (n : Nat) : Fld := ⟨R.igStatus n, 6, 1⟩
def F.igStatusSat (n : Nat) : Fld := ⟨R.igStatus n, 5, 1⟩
def F.igStatusCfgIgn (n : Nat) : Fld := ⟨R.igStatus n, 4, 1⟩
def F.igStatusState (n : Nat) : Fld := ⟨R.igStatus n, 0, 3⟩
/-- IGn_SCALE (08_indigo_cores.md). -/
def R.igScale (n : Nat) : Nat := 0x08060008 + 0x1000 * n
def F.igScaleAuto (n : Nat) : Fld := ⟨R.igScale n, 31, 1⟩
def F.igScaleLvl (n : Nat) : Fld := ⟨R.igScale n, 28, 2⟩
def F.igScaleGrow (n : Nat) : Fld := ⟨R.igScale n, 24, 2⟩
def F.igScaleShift (n : Nat) : Fld := ⟨R.igScale n, 0, 5⟩
/-- IGn_EXP (08_indigo_cores.md). -/
def R.igExp (n : Nat) : Nat := 0x0806000C + 0x1000 * n
def F.igExpBexp (n : Nat) : Fld := ⟨R.igExp n, 16, 16⟩
def F.igExpExp (n : Nat) : Fld := ⟨R.igExp n, 0, 4⟩
/-- IGn_COLLIDE_CNT (08_indigo_cores.md). -/
def R.igCollideCnt (n : Nat) : Nat := 0x08060010 + 0x1000 * n
def F.igCollideCntCount (n : Nat) : Fld := ⟨R.igCollideCnt n, 0, 32⟩
/-- IGn_BANK_STALL (08_indigo_cores.md). -/
def R.igBankStall (n : Nat) : Nat := 0x08060014 + 0x1000 * n
def F.igBankStallCount (n : Nat) : Fld := ⟨R.igBankStall n, 0, 32⟩
/-- IGn_SAT_CNT (08_indigo_cores.md). -/
def R.igSatCnt (n : Nat) : Nat := 0x08060018 + 0x1000 * n
def F.igSatCntCount (n : Nat) : Fld := ⟨R.igSatCnt n, 0, 32⟩
/-- IGn_ICMISS (08_indigo_cores.md). -/
def R.igIcmiss (n : Nat) : Nat := 0x0806001C + 0x1000 * n
def F.igIcmissCount (n : Nat) : Fld := ⟨R.igIcmiss n, 0, 32⟩
/-- IGn_VECBASE (08_indigo_cores.md). -/
def R.igVecbase (n : Nat) : Nat := 0x08060020 + 0x1000 * n
def F.igVecbaseBase (n : Nat) : Fld := ⟨R.igVecbase n, 8, 16⟩
/-- IGn_WDT (08_indigo_cores.md). -/
def R.igWdt (n : Nat) : Nat := 0x08060024 + 0x1000 * n
def F.igWdtLimit (n : Nat) : Fld := ⟨R.igWdt n, 0, 24⟩
/-- IGn_DBELL (08_indigo_cores.md). -/
def R.igDbell (n : Nat) : Nat := 0x08060028 + 0x1000 * n
def F.igDbellPend (n : Nat) : Fld := ⟨R.igDbell n, 0, 16⟩
/-- IGn_DBG (08_indigo_cores.md). -/
def R.igDbg (n : Nat) : Nat := 0x0806002C + 0x1000 * n
def F.igDbgHalted (n : Nat) : Fld := ⟨R.igDbg n, 8, 1⟩
def F.igDbgStep (n : Nat) : Fld := ⟨R.igDbg n, 2, 1⟩
def F.igDbgResume (n : Nat) : Fld := ⟨R.igDbg n, 1, 1⟩
def F.igDbgHalt (n : Nat) : Fld := ⟨R.igDbg n, 0, 1⟩
/-- IGn_PC (08_indigo_cores.md). -/
def R.igPc (n : Nat) : Nat := 0x08060030 + 0x1000 * n
def F.igPcPc (n : Nat) : Fld := ⟨R.igPc n, 0, 24⟩
/-- IGn_EPC (08_indigo_cores.md). -/
def R.igEpc (n : Nat) : Nat := 0x08060034 + 0x1000 * n
def F.igEpcPc (n : Nat) : Fld := ⟨R.igEpc n, 0, 24⟩
/-- IGn_ESTAT (08_indigo_cores.md). -/
def R.igEstat (n : Nat) : Nat := 0x08060038 + 0x1000 * n
def F.igEstatFlags (n : Nat) : Fld := ⟨R.igEstat n, 8, 3⟩
def F.igEstatFetch (n : Nat) : Fld := ⟨R.igEstat n, 3, 1⟩
def F.igEstatCause (n : Nat) : Fld := ⟨R.igEstat n, 0, 3⟩
/-- IGn_CYC_LO (08_indigo_cores.md). -/
def R.igCycLo (n : Nat) : Nat := 0x08060040 + 0x1000 * n
def F.igCycLoCycLo (n : Nat) : Fld := ⟨R.igCycLo n, 0, 32⟩
/-- IGn_CYC_HI (08_indigo_cores.md). -/
def R.igCycHi (n : Nat) : Nat := 0x08060044 + 0x1000 * n
def F.igCycHiCycHi (n : Nat) : Fld := ⟨R.igCycHi n, 0, 32⟩
/-- IGn_DBG_Wm (08_indigo_cores.md). -/
def R.igDbgW (n : Nat) (m : Nat) : Nat := 0x08060100 + 0x1000 * n + 0x4 * m
def F.igDbgWValue (n : Nat) (m : Nat) : Fld := ⟨R.igDbgW n m, 0, 32⟩
/-- IGn_DBG_ACCk_LO (08_indigo_cores.md). -/
def R.igDbgAccLo (n : Nat) (k : Nat) : Nat := 0x08060180 + 0x1000 * n + 0x10 * k
def F.igDbgAccLoValue (n : Nat) (k : Nat) : Fld := ⟨R.igDbgAccLo n k, 0, 32⟩
/-- IGn_DBG_AGg_BASE (08_indigo_cores.md). -/
def R.igDbgAgBase (n : Nat) (g : Nat) : Nat := 0x08060200 + 0x1000 * n + 0x10 * g
def F.igDbgAgBaseValue (n : Nat) (g : Nat) : Fld := ⟨R.igDbgAgBase n g, 0, 32⟩
/-- VAT_SUBMIT_Ww (09_vat_dispatcher.md). -/
def R.vatSubmitW (w : Nat) : Nat := 0x08070000 + 0x4 * w
def F.vatSubmitWWord (w : Nat) : Fld := ⟨R.vatSubmitW w, 0, 32⟩
/-- VAT_SUBMIT_RES (09_vat_dispatcher.md). -/
def R.vatSubmitRes : Nat := 0x08070020
def F.vatSubmitResDoneCnt : Fld := ⟨R.vatSubmitRes, 16, 16⟩
def F.vatSubmitResResult : Fld := ⟨R.vatSubmitRes, 0, 4⟩
/-- VAT_EVT (09_vat_dispatcher.md). -/
def R.vatEvt : Nat := 0x08070024
def F.vatEvtCfgIgn : Fld := ⟨R.vatEvt, 4, 1⟩
def F.vatEvtCfgErr : Fld := ⟨R.vatEvt, 3, 1⟩
def F.vatEvtDmaBusy : Fld := ⟨R.vatEvt, 2, 1⟩
def F.vatEvtLateRel : Fld := ⟨R.vatEvt, 1, 1⟩
def F.vatEvtAborted : Fld := ⟨R.vatEvt, 0, 1⟩
/-- VAT_OVR_LO (09_vat_dispatcher.md). -/
def R.vatOvrLo : Nat := 0x08070028
def F.vatOvrLoFrameOverrun : Fld := ⟨R.vatOvrLo, 1, 31⟩
/-- VAT_OVR_HI (09_vat_dispatcher.md). -/
def R.vatOvrHi : Nat := 0x0807002C
def F.vatOvrHiFrameOverrun : Fld := ⟨R.vatOvrHi, 1, 31⟩
/-- VAT_REFUSE_CNT (09_vat_dispatcher.md). -/
def R.vatRefuseCnt : Nat := 0x08070030
def F.vatRefuseCntHost : Fld := ⟨R.vatRefuseCnt, 24, 8⟩
def F.vatRefuseCntEngine : Fld := ⟨R.vatRefuseCnt, 16, 8⟩
def F.vatRefuseCntDma : Fld := ⟨R.vatRefuseCnt, 8, 8⟩
def F.vatRefuseCntCore : Fld := ⟨R.vatRefuseCnt, 0, 8⟩
/-- VAT_PART_CFGp (09_vat_dispatcher.md). -/
def R.vatPartCfg (p : Nat) : Nat := 0x08070040 + 0x4 * p
def F.vatPartCfgEn (p : Nat) : Fld := ⟨R.vatPartCfg p, 31, 1⟩
def F.vatPartCfgSize (p : Nat) : Fld := ⟨R.vatPartCfg p, 28, 3⟩
def F.vatPartCfgFirst (p : Nat) : Fld := ⟨R.vatPartCfg p, 24, 4⟩
def F.vatPartCfgHosts (p : Nat) : Fld := ⟨R.vatPartCfg p, 20, 4⟩
def F.vatPartCfgQuota (p : Nat) : Fld := ⟨R.vatPartCfg p, 8, 10⟩
def F.vatPartCfgAffWait (p : Nat) : Fld := ⟨R.vatPartCfg p, 0, 8⟩
/-- VAT_FCLKc (09_vat_dispatcher.md). -/
def R.vatFclk (c : Nat) : Nat := 0x08070060 + 0x4 * c
def F.vatFclkEn (c : Nat) : Fld := ⟨R.vatFclk c, 31, 1⟩
def F.vatFclkRun (c : Nat) : Fld := ⟨R.vatFclk c, 30, 1⟩
def F.vatFclkDom (c : Nat) : Fld := ⟨R.vatFclk c, 4, 2⟩
def F.vatFclkLen (c : Nat) : Fld := ⟨R.vatFclk c, 0, 3⟩
/-- VAT_FNUMc (09_vat_dispatcher.md). -/
def R.vatFnum (c : Nat) : Nat := 0x08070080 + 0x4 * c
def F.vatFnumFnum (c : Nat) : Fld := ⟨R.vatFnum c, 0, 32⟩
/-- VAT_CPL_TAGh (09_vat_dispatcher.md). -/
def R.vatCplTag (h : Nat) : Nat := 0x080700A0 + 0x8 * h
def F.vatCplTagTag (h : Nat) : Fld := ⟨R.vatCplTag h, 0, 32⟩
/-- VAT_CPL_STATh (09_vat_dispatcher.md). -/
def R.vatCplStat (h : Nat) : Nat := 0x080700A4 + 0x8 * h
def F.vatCplStatIe (h : Nat) : Fld := ⟨R.vatCplStat h, 31, 1⟩
def F.vatCplStatOvf (h : Nat) : Fld := ⟨R.vatCplStat h, 30, 1⟩
def F.vatCplStatStatus (h : Nat) : Fld := ⟨R.vatCplStat h, 8, 2⟩
def F.vatCplStatCount (h : Nat) : Fld := ⟨R.vatCplStat h, 0, 6⟩
/-- VAT_FLOW_CFGf (09_vat_dispatcher.md). -/
def R.vatFlowCfg (f : Nat) : Nat := 0x08070100 + 0x4 * f
def F.vatFlowCfgEn (f : Nat) : Fld := ⟨R.vatFlowCfg f, 31, 1⟩
def F.vatFlowCfgFclk (f : Nat) : Fld := ⟨R.vatFlowCfg f, 4, 3⟩
def F.vatFlowCfgPart (f : Nat) : Fld := ⟨R.vatFlowCfg f, 0, 2⟩
/-- VAT_OVR_CNTf (09_vat_dispatcher.md). -/
def R.vatOvrCnt (f : Nat) : Nat := 0x08070200 + 0x4 * f
def F.vatOvrCntCount (f : Nat) : Fld := ⟨R.vatOvrCnt f, 0, 32⟩
/-- VAT_BUF_ADDRb (09_vat_dispatcher.md). -/
def R.vatBufAddr (b : Nat) : Nat := 0x08070400 + 0x8 * b
def F.vatBufAddrAddr (b : Nat) : Fld := ⟨R.vatBufAddr b, 0, 32⟩
/-- VAT_BUF_CFGb (09_vat_dispatcher.md). -/
def R.vatBufCfg (b : Nat) : Nat := 0x08070404 + 0x8 * b
def F.vatBufCfgMode (b : Nat) : Fld := ⟨R.vatBufCfg b, 8, 2⟩
def F.vatBufCfgFlow (b : Nat) : Fld := ⟨R.vatBufCfg b, 0, 6⟩
/-- TPn_CTRL (10_audio_ports_and_asrc.md). -/
def R.tpCtrl (n : Nat) : Nat := 0x08080000 + 0x1000 * n
def F.tpCtrlResync (n : Nat) : Fld := ⟨R.tpCtrl n, 1, 1⟩
def F.tpCtrlEn (n : Nat) : Fld := ⟨R.tpCtrl n, 0, 1⟩
/-- TPn_CFG (10_audio_ports_and_asrc.md). -/
def R.tpCfg (n : Nat) : Nat := 0x08080004 + 0x1000 * n
def F.tpCfgMaster (n : Nat) : Fld := ⟨R.tpCfg n, 31, 1⟩
def F.tpCfgClksrc (n : Nat) : Fld := ⟨R.tpCfg n, 29, 2⟩
def F.tpCfgFmt (n : Nat) : Fld := ⟨R.tpCfg n, 27, 2⟩
def F.tpCfgDly1 (n : Nat) : Fld := ⟨R.tpCfg n, 26, 1⟩
def F.tpCfgFsInv (n : Nat) : Fld := ⟨R.tpCfg n, 25, 1⟩
def F.tpCfgBclkInv (n : Nat) : Fld := ⟨R.tpCfg n, 24, 1⟩
def F.tpCfgWidth (n : Nat) : Fld := ⟨R.tpCfg n, 20, 2⟩
def F.tpCfgSlots (n : Nat) : Fld := ⟨R.tpCfg n, 16, 4⟩
def F.tpCfgFrate (n : Nat) : Fld := ⟨R.tpCfg n, 12, 4⟩
def F.tpCfgStartLvl (n : Nat) : Fld := ⟨R.tpCfg n, 8, 2⟩
def F.tpCfgUnderRep (n : Nat) : Fld := ⟨R.tpCfg n, 7, 1⟩
def F.tpCfgMaskHiz (n : Nat) : Fld := ⟨R.tpCfg n, 6, 1⟩
/-- TPn_CLK (10_audio_ports_and_asrc.md). -/
def R.tpClk (n : Nat) : Nat := 0x08080008 + 0x1000 * n
def F.tpClkRdiv (n : Nat) : Fld := ⟨R.tpClk n, 0, 6⟩
/-- TPn_SLOTMASK_IN (10_audio_ports_and_asrc.md). -/
def R.tpSlotmaskIn (n : Nat) : Nat := 0x0808000C + 0x1000 * n
def F.tpSlotmaskInActive (n : Nat) : Fld := ⟨R.tpSlotmaskIn n, 16, 16⟩
def F.tpSlotmaskInShadow (n : Nat) : Fld := ⟨R.tpSlotmaskIn n, 0, 16⟩
/-- TPn_SLOTMASK_OUT (10_audio_ports_and_asrc.md). -/
def R.tpSlotmaskOut (n : Nat) : Nat := 0x08080010 + 0x1000 * n
def F.tpSlotmaskOutActive (n : Nat) : Fld := ⟨R.tpSlotmaskOut n, 16, 16⟩
def F.tpSlotmaskOutShadow (n : Nat) : Fld := ⟨R.tpSlotmaskOut n, 0, 16⟩
/-- TPn_STATUS (10_audio_ports_and_asrc.md). -/
def R.tpStatus (n : Nat) : Nat := 0x08080014 + 0x1000 * n
def F.tpStatusCfgIgn (n : Nat) : Fld := ⟨R.tpStatus n, 17, 1⟩
def F.tpStatusCfgErr (n : Nat) : Fld := ⟨R.tpStatus n, 16, 1⟩
def F.tpStatusResyncEvt (n : Nat) : Fld := ⟨R.tpStatus n, 15, 1⟩
def F.tpStatusOutUnder (n : Nat) : Fld := ⟨R.tpStatus n, 14, 1⟩
def F.tpStatusOutOver (n : Nat) : Fld := ⟨R.tpStatus n, 13, 1⟩
def F.tpStatusInUnder (n : Nat) : Fld := ⟨R.tpStatus n, 12, 1⟩
def F.tpStatusInOver (n : Nat) : Fld := ⟨R.tpStatus n, 11, 1⟩
def F.tpStatusRateErr (n : Nat) : Fld := ⟨R.tpStatus n, 10, 1⟩
def F.tpStatusFrameErr (n : Nat) : Fld := ⟨R.tpStatus n, 9, 1⟩
def F.tpStatusClkLoss (n : Nat) : Fld := ⟨R.tpStatus n, 8, 1⟩
def F.tpStatusMaskPendOut (n : Nat) : Fld := ⟨R.tpStatus n, 5, 1⟩
def F.tpStatusMaskPendIn (n : Nat) : Fld := ⟨R.tpStatus n, 4, 1⟩
def F.tpStatusState (n : Nat) : Fld := ⟨R.tpStatus n, 0, 2⟩
/-- TPn_SLIP_CNT (10_audio_ports_and_asrc.md). -/
def R.tpSlipCnt (n : Nat) : Nat := 0x08080018 + 0x1000 * n
def F.tpSlipCntInOver (n : Nat) : Fld := ⟨R.tpSlipCnt n, 24, 8⟩
def F.tpSlipCntInUnder (n : Nat) : Fld := ⟨R.tpSlipCnt n, 16, 8⟩
def F.tpSlipCntOutOver (n : Nat) : Fld := ⟨R.tpSlipCnt n, 8, 8⟩
def F.tpSlipCntOutUnder (n : Nat) : Fld := ⟨R.tpSlipCnt n, 0, 8⟩
/-- TPn_ERR_CNT (10_audio_ports_and_asrc.md). -/
def R.tpErrCnt (n : Nat) : Nat := 0x0808001C + 0x1000 * n
def F.tpErrCntFrameErr (n : Nat) : Fld := ⟨R.tpErrCnt n, 16, 16⟩
def F.tpErrCntClkLoss (n : Nat) : Fld := ⟨R.tpErrCnt n, 0, 16⟩
/-- TPn_PERIOD (10_audio_ports_and_asrc.md). -/
def R.tpPeriod (n : Nat) : Nat := 0x08080020 + 0x1000 * n
def F.tpPeriodPeriod (n : Nat) : Fld := ⟨R.tpPeriod n, 0, 32⟩
/-- PDM_CTRL (10_audio_ports_and_asrc.md). -/
def R.pdmCtrl : Nat := 0x08088000
def F.pdmCtrlVout18En : Fld := ⟨R.pdmCtrl, 31, 1⟩
def F.pdmCtrlWake : Fld := ⟨R.pdmCtrl, 0, 8⟩
/-- PDM_STATUS (10_audio_ports_and_asrc.md). -/
def R.pdmStatus : Nat := 0x08088004
def F.pdmStatusSat : Fld := ⟨R.pdmStatus, 10, 1⟩
def F.pdmStatusCfgIgn : Fld := ⟨R.pdmStatus, 9, 1⟩
def F.pdmStatusCfgErr : Fld := ⟨R.pdmStatus, 8, 1⟩
def F.pdmStatusRun : Fld := ⟨R.pdmStatus, 0, 3⟩
/-- PDM_STUCK (10_audio_ports_and_asrc.md). -/
def R.pdmStuck : Nat := 0x08088008
def F.pdmStuckMicStuck : Fld := ⟨R.pdmStuck, 0, 24⟩
/-- PDM_SAT_CNT (10_audio_ports_and_asrc.md). -/
def R.pdmSatCnt : Nat := 0x08088010
def F.pdmSatCntCount : Fld := ⟨R.pdmSatCnt, 0, 32⟩
/-- PDM_CLKCFGk (10_audio_ports_and_asrc.md). -/
def R.pdmClkcfg (k : Nat) : Nat := 0x08088020 + 0x4 * k
def F.pdmClkcfgEn (k : Nat) : Fld := ⟨R.pdmClkcfg k, 31, 1⟩
def F.pdmClkcfgDom (k : Nat) : Fld := ⟨R.pdmClkcfg k, 28, 2⟩
def F.pdmClkcfgPdiv (k : Nat) : Fld := ⟨R.pdmClkcfg k, 0, 10⟩
/-- PDM_CHCFGc (10_audio_ports_and_asrc.md). -/
def R.pdmChcfg (c : Nat) : Nat := 0x08088100 + 0x4 * c
def F.pdmChcfgEn (c : Nat) : Fld := ⟨R.pdmChcfg c, 31, 1⟩
def F.pdmChcfgDcf (c : Nat) : Fld := ⟨R.pdmChcfg c, 24, 2⟩
def F.pdmChcfgGain (c : Nat) : Fld := ⟨R.pdmChcfg c, 0, 8⟩
/-- ASRC_CFGg (10_audio_ports_and_asrc.md). -/
def R.asrcCfg (g : Nat) : Nat := 0x08090000 + 0x20 * g
def F.asrcCfgEn (g : Nat) : Fld := ⟨R.asrcCfg g, 31, 1⟩
def F.asrcCfgPort (g : Nat) : Fld := ⟨R.asrcCfg g, 24, 3⟩
def F.asrcCfgDom (g : Nat) : Fld := ⟨R.asrcCfg g, 20, 2⟩
def F.asrcCfgBw (g : Nat) : Fld := ⟨R.asrcCfg g, 16, 3⟩
def F.asrcCfgRange (g : Nat) : Fld := ⟨R.asrcCfg g, 12, 2⟩
/-- ASRC_CHMAP_LOg (10_audio_ports_and_asrc.md). -/
def R.asrcChmapLo (g : Nat) : Nat := 0x08090004 + 0x20 * g
def F.asrcChmapLoEn (g : Nat) (c : Nat) : Fld := ⟨R.asrcChmapLo g, 8 * c + 7, 1⟩
def F.asrcChmapLoDir (g : Nat) (c : Nat) : Fld := ⟨R.asrcChmapLo g, 8 * c + 6, 1⟩
def F.asrcChmapLoSlot (g : Nat) (c : Nat) : Fld := ⟨R.asrcChmapLo g, 8 * c + 0, 4⟩
/-- ASRC_CHMAP_HIg (10_audio_ports_and_asrc.md). -/
def R.asrcChmapHi (g : Nat) : Nat := 0x08090008 + 0x20 * g
def F.asrcChmapHiEn (g : Nat) (c : Nat) : Fld := ⟨R.asrcChmapHi g, 8 * c + 7, 1⟩
def F.asrcChmapHiDir (g : Nat) (c : Nat) : Fld := ⟨R.asrcChmapHi g, 8 * c + 6, 1⟩
def F.asrcChmapHiSlot (g : Nat) (c : Nat) : Fld := ⟨R.asrcChmapHi g, 8 * c + 0, 4⟩
/-- ASRC_RATIOg (10_audio_ports_and_asrc.md). -/
def R.asrcRatio (g : Nat) : Nat := 0x0809000C + 0x20 * g
def F.asrcRatioRatio (g : Nat) : Fld := ⟨R.asrcRatio g, 0, 32⟩
/-- ASRC_DLYg (10_audio_ports_and_asrc.md). -/
def R.asrcDly (g : Nat) : Nat := 0x08090010 + 0x20 * g
def F.asrcDlyInt (g : Nat) : Fld := ⟨R.asrcDly g, 16, 16⟩
def F.asrcDlyFrac (g : Nat) : Fld := ⟨R.asrcDly g, 0, 16⟩
/-- ASRC_STATUSg (10_audio_ports_and_asrc.md). -/
def R.asrcStatus (g : Nat) : Nat := 0x08090014 + 0x20 * g
def F.asrcStatusCfgIgn (g : Nat) : Fld := ⟨R.asrcStatus g, 8, 1⟩
def F.asrcStatusCfgErr (g : Nat) : Fld := ⟨R.asrcStatus g, 7, 1⟩
def F.asrcStatusSat (g : Nat) : Fld := ⟨R.asrcStatus g, 6, 1⟩
def F.asrcStatusRatioErr (g : Nat) : Fld := ⟨R.asrcStatus g, 5, 1⟩
def F.asrcStatusUnlock (g : Nat) : Fld := ⟨R.asrcStatus g, 4, 1⟩
def F.asrcStatusState (g : Nat) : Fld := ⟨R.asrcStatus g, 0, 2⟩
/-- PLLp_CTRL (11_clocking_ochre_plls.md). -/
def R.pllCtrl (p : Nat) : Nat := 0x08002000 + 0x100 * p
def F.pllCtrlApply (p : Nat) : Fld := ⟨R.pllCtrl p, 31, 1⟩
def F.pllCtrlCompat (p : Nat) : Fld := ⟨R.pllCtrl p, 8, 1⟩
/-- PLLp_MULT (11_clocking_ochre_plls.md). -/
def R.pllMult (p : Nat) : Nat := 0x08002004 + 0x100 * p
def F.pllMultNint (p : Nat) : Fld := ⟨R.pllMult p, 24, 8⟩
def F.pllMultNum (p : Nat) : Fld := ⟨R.pllMult p, 0, 24⟩
/-- PLLp_MDEN (11_clocking_ochre_plls.md). -/
def R.pllMden (p : Nat) : Nat := 0x08002008 + 0x100 * p
def F.pllMdenDen (p : Nat) : Fld := ⟨R.pllMden p, 0, 24⟩
/-- PLLp_LOCK (11_clocking_ochre_plls.md). -/
def R.pllLock (p : Nat) : Nat := 0x0800200C + 0x100 * p
def F.pllLockLockCnt (p : Nat) : Fld := ⟨R.pllLock p, 16, 16⟩
def F.pllLockLockWin (p : Nat) : Fld := ⟨R.pllLock p, 0, 8⟩
/-- PLLp_STATUS (11_clocking_ochre_plls.md). -/
def R.pllStatus (p : Nat) : Nat := 0x08002010 + 0x100 * p
def F.pllStatusApplyPend (p : Nat) : Fld := ⟨R.pllStatus p, 12, 1⟩
def F.pllStatusCfgIgn (p : Nat) : Fld := ⟨R.pllStatus p, 11, 1⟩
def F.pllStatusFmaxErr (p : Nat) : Fld := ⟨R.pllStatus p, 10, 1⟩
def F.pllStatusClamp (p : Nat) : Fld := ⟨R.pllStatus p, 9, 1⟩
def F.pllStatusLol (p : Nat) : Fld := ⟨R.pllStatus p, 8, 1⟩
def F.pllStatusClampAct (p : Nat) : Fld := ⟨R.pllStatus p, 4, 1⟩
def F.pllStatusLocked (p : Nat) : Fld := ⟨R.pllStatus p, 3, 1⟩
def F.pllStatusState (p : Nat) : Fld := ⟨R.pllStatus p, 0, 3⟩
/-- PLLp_PHERR (11_clocking_ochre_plls.md). -/
def R.pllPherr (p : Nat) : Nat := 0x08002014 + 0x100 * p
def F.pllPherrPherr (p : Nat) : Fld := ⟨R.pllPherr p, 0, 16⟩
/-- PLLp_BANDk (11_clocking_ochre_plls.md). -/
def R.pllBand (p : Nat) (k : Nat) : Nat := 0x08002020 + 0x100 * p + 0x4 * k
def F.pllBandValid (p : Nat) (k : Nat) : Fld := ⟨R.pllBand p k, 31, 1⟩
def F.pllBandBand (p : Nat) (k : Nat) : Fld := ⟨R.pllBand p k, 16, 10⟩
def F.pllBandFkey (p : Nat) (k : Nat) : Fld := ⟨R.pllBand p k, 0, 16⟩
/-- PLLp_OUTk_CFG (11_clocking_ochre_plls.md). -/
def R.pllOutCfg (p : Nat) (k : Nat) : Nat := 0x08002040 + 0x100 * p + 0x8 * k
def F.pllOutCfgEn (p : Nat) (k : Nat) : Fld := ⟨R.pllOutCfg p k, 31, 1⟩
def F.pllOutCfgAct (p : Nat) (k : Nat) : Fld := ⟨R.pllOutCfg p k, 30, 1⟩
def F.pllOutCfgDivPend (p : Nat) (k : Nat) : Fld := ⟨R.pllOutCfg p k, 29, 1⟩
def F.pllOutCfgFmax (p : Nat) (k : Nat) : Fld := ⟨R.pllOutCfg p k, 16, 10⟩
def F.pllOutCfgDiv (p : Nat) (k : Nat) : Fld := ⟨R.pllOutCfg p k, 0, 16⟩
/-- PLLp_OUTk_DLY (11_clocking_ochre_plls.md). -/
def R.pllOutDly (p : Nat) (k : Nat) : Nat := 0x08002044 + 0x100 * p + 0x8 * k
def F.pllOutDlyMoving (p : Nat) (k : Nat) : Fld := ⟨R.pllOutDly p k, 31, 1⟩
def F.pllOutDlyDly (p : Nat) (k : Nat) : Fld := ⟨R.pllOutDly p k, 0, 20⟩
/-- CLK_XTAL (11_clocking_ochre_plls.md). -/
def R.clkXtal : Nat := 0x08002200
def F.clkXtalXtalLoss : Fld := ⟨R.clkXtal, 8, 1⟩
def F.clkXtalSysclk : Fld := ⟨R.clkXtal, 1, 1⟩
def F.clkXtalXtalOk : Fld := ⟨R.clkXtal, 0, 1⟩
/-- OC_SEL (11_clocking_ochre_plls.md). -/
def R.ocSel : Nat := 0x08003000
def F.ocSelRevert : Fld := ⟨R.ocSel, 31, 1⟩
def F.ocSelDisAct : Fld := ⟨R.ocSel, 30, 1⟩
def F.ocSelForce : Fld := ⟨R.ocSel, 29, 1⟩
def F.ocSelFref : Fld := ⟨R.ocSel, 24, 4⟩
def F.ocSelMutualTol : Fld := ⟨R.ocSel, 0, 12⟩
/-- OC_LOOP (11_clocking_ochre_plls.md). -/
def R.ocLoop : Nat := 0x08003004
def F.ocLoopHoldGuard : Fld := ⟨R.ocLoop, 16, 4⟩
def F.ocLoopHoWin : Fld := ⟨R.ocLoop, 8, 6⟩
def F.ocLoopBw : Fld := ⟨R.ocLoop, 0, 4⟩
/-- OC_SLEW_MAX (11_clocking_ochre_plls.md). -/
def R.ocSlewMax : Nat := 0x08003008
def F.ocSlewMaxSlewMax : Fld := ⟨R.ocSlewMax, 0, 9⟩
/-- OC_PHASE_STEP (11_clocking_ochre_plls.md). -/
def R.ocPhaseStep : Nat := 0x0800300C
def F.ocPhaseStepStep : Fld := ⟨R.ocPhaseStep, 0, 22⟩
/-- OC_STATE (11_clocking_ochre_plls.md). -/
def R.ocState : Nat := 0x08003010
def F.ocStateStepClamp : Fld := ⟨R.ocState, 19, 1⟩
def F.ocStateRefDisagree : Fld := ⟨R.ocState, 18, 1⟩
def F.ocStateHoEntry : Fld := ⟨R.ocState, 17, 1⟩
def F.ocStateSwitch : Fld := ⟨R.ocState, 16, 1⟩
def F.ocStateDisagree : Fld := ⟨R.ocState, 9, 1⟩
def F.ocStateHoValid : Fld := ⟨R.ocState, 8, 1⟩
def F.ocStateSlewing : Fld := ⟨R.ocState, 7, 1⟩
def F.ocStateState : Fld := ⟨R.ocState, 4, 3⟩
def F.ocStateSel : Fld := ⟨R.ocState, 0, 4⟩
/-- OC_FREQ (11_clocking_ochre_plls.md). -/
def R.ocFreq : Nat := 0x08003014
def F.ocFreqS : Fld := ⟨R.ocFreq, 0, 32⟩
/-- OC_HOFREQ (11_clocking_ochre_plls.md). -/
def R.ocHofreq : Nat := 0x08003018
def F.ocHofreqS : Fld := ⟨R.ocHofreq, 0, 32⟩
/-- OC_PHASE_REM (11_clocking_ochre_plls.md). -/
def R.ocPhaseRem : Nat := 0x0800301C
def F.ocPhaseRemRem : Fld := ⟨R.ocPhaseRem, 0, 32⟩
/-- OC_REF_CFGr (11_clocking_ochre_plls.md). -/
def R.ocRefCfg (r : Nat) : Nat := 0x08003040 + 0x8 * r
def F.ocRefCfgEn (r : Nat) : Fld := ⟨R.ocRefCfg r, 31, 1⟩
def F.ocRefCfgRank (r : Nat) : Fld := ⟨R.ocRefCfg r, 28, 3⟩
def F.ocRefCfgTol (r : Nat) : Fld := ⟨R.ocRefCfg r, 16, 11⟩
def F.ocRefCfgQualTime (r : Nat) : Fld := ⟨R.ocRefCfg r, 0, 8⟩
/-- OC_REF_WTRr (11_clocking_ochre_plls.md). -/
def R.ocRefWtr (r : Nat) : Nat := 0x08003044 + 0x8 * r
def F.ocRefWtrWtr (r : Nat) : Fld := ⟨R.ocRefWtr r, 0, 12⟩
/-- OC_REF_STATr (11_clocking_ochre_plls.md). -/
def R.ocRefStat (r : Nat) : Nat := 0x080030C0 + 0x4 * r
def F.ocRefStatOffset (r : Nat) : Fld := ⟨R.ocRefStat r, 16, 16⟩
def F.ocRefStatDrift (r : Nat) : Fld := ⟨R.ocRefStat r, 5, 1⟩
def F.ocRefStatLos (r : Nat) : Fld := ⟨R.ocRefStat r, 4, 1⟩
def F.ocRefStatState (r : Nat) : Fld := ⟨R.ocRefStat r, 0, 3⟩
/-- OC_REF_EVT (11_clocking_ochre_plls.md). -/
def R.ocRefEvt : Nat := 0x080030F0
def F.ocRefEvtDriftEvt : Fld := ⟨R.ocRefEvt, 16, 9⟩
def F.ocRefEvtLosEvt : Fld := ⟨R.ocRefEvt, 0, 9⟩
/-- OC_REFIN_FNOMi (11_clocking_ochre_plls.md). -/
def R.ocRefinFnom (i : Nat) : Nat := 0x08003100 + 0x4 * i
def F.ocRefinFnomFnom (i : Nat) : Fld := ⟨R.ocRefinFnom i, 0, 25⟩
/-- SMEM_RET (12_memory_and_dma.md). -/
def R.smemRet : Nat := 0x080B0000
def F.smemRetRet : Fld := ⟨R.smemRet, 0, 12⟩
/-- SMEM_RET_STAT (12_memory_and_dma.md). -/
def R.smemRetStat : Nat := 0x080B0004
def F.smemRetStatState (g : Nat) : Fld := ⟨R.smemRetStat, 2 * g + 0, 2⟩
/-- SMEM_ERR (12_memory_and_dma.md). -/
def R.smemErr : Nat := 0x080B0008
def F.smemErrBuf : Fld := ⟨R.smemErr, 4, 1⟩
def F.smemErrUe : Fld := ⟨R.smemErr, 3, 1⟩
def F.smemErrRet : Fld := ⟨R.smemErr, 2, 1⟩
def F.smemErrAlign : Fld := ⟨R.smemErr, 1, 1⟩
def F.smemErrDecode : Fld := ⟨R.smemErr, 0, 1⟩
/-- SMEM_CE_CNT (12_memory_and_dma.md). -/
def R.smemCeCnt : Nat := 0x080B000C
def F.smemCeCntCount : Fld := ⟨R.smemCeCnt, 0, 32⟩
/-- SMEM_UE_ADDR (12_memory_and_dma.md). -/
def R.smemUeAddr : Nat := 0x080B0010
def F.smemUeAddrAddr : Fld := ⟨R.smemUeAddr, 0, 32⟩
/-- SMEM_CONFm (12_memory_and_dma.md). -/
def R.smemConf (m : Nat) : Nat := 0x080B0100 + 0x4 * m
def F.smemConfCount (m : Nat) : Fld := ⟨R.smemConf m, 0, 32⟩
/-- MRAMC_CTRL (12_memory_and_dma.md). -/
def R.mramcCtrl : Nat := 0x080B1000
def F.mramcCtrlWsWen : Fld := ⟨R.mramcCtrl, 0, 1⟩
/-- MRAMC_STATUS (12_memory_and_dma.md). -/
def R.mramcStatus : Nat := 0x080B1004
def F.mramcStatusCeCnt : Fld := ⟨R.mramcStatus, 16, 16⟩
def F.mramcStatusUe : Fld := ⟨R.mramcStatus, 10, 1⟩
def F.mramcStatusProt : Fld := ⟨R.mramcStatus, 9, 1⟩
def F.mramcStatusQueue : Fld := ⟨R.mramcStatus, 4, 4⟩
def F.mramcStatusBusy : Fld := ⟨R.mramcStatus, 0, 1⟩
/-- MRAMC_ERRADDR (12_memory_and_dma.md). -/
def R.mramcErraddr : Nat := 0x080B1008
def F.mramcErraddrAddr : Fld := ⟨R.mramcErraddr, 0, 32⟩
/-- MRAMC_CNT_INC (12_memory_and_dma.md). -/
def R.mramcCntInc : Nat := 0x080B100C
def F.mramcCntIncIndex : Fld := ⟨R.mramcCntInc, 0, 6⟩
/-- VERM_CTRL (12_memory_and_dma.md). -/
def R.vermCtrl : Nat := 0x080B2000
def F.vermCtrlWipe : Fld := ⟨R.vermCtrl, 3, 1⟩
def F.vermCtrlSeal : Fld := ⟨R.vermCtrl, 2, 1⟩
def F.vermCtrlLock : Fld := ⟨R.vermCtrl, 1, 1⟩
def F.vermCtrlUnlock : Fld := ⟨R.vermCtrl, 0, 1⟩
/-- VERM_STATUS (12_memory_and_dma.md). -/
def R.vermStatus : Nat := 0x080B2004
def F.vermStatusDenyCnt : Fld := ⟨R.vermStatus, 24, 8⟩
def F.vermStatusFail : Fld := ⟨R.vermStatus, 20, 4⟩
def F.vermStatusLockout : Fld := ⟨R.vermStatus, 19, 1⟩
def F.vermStatusWipeFail : Fld := ⟨R.vermStatus, 18, 1⟩
def F.vermStatusSealing : Fld := ⟨R.vermStatus, 17, 1⟩
def F.vermStatusWiping : Fld := ⟨R.vermStatus, 16, 1⟩
def F.vermStatusSealErr : Fld := ⟨R.vermStatus, 15, 1⟩
def F.vermStatusWcause : Fld := ⟨R.vermStatus, 8, 4⟩
def F.vermStatusWiped : Fld := ⟨R.vermStatus, 7, 1⟩
def F.vermStatusAccess : Fld := ⟨R.vermStatus, 0, 2⟩
/-- VERM_TOKENw (12_memory_and_dma.md). -/
def R.vermToken (w : Nat) : Nat := 0x080B2020 + 0x4 * w
def F.vermTokenWord (w : Nat) : Fld := ⟨R.vermToken w, 0, 32⟩
/-- DMAn_SRC (12_memory_and_dma.md). -/
def R.dmaSrc (n : Nat) : Nat := 0x080A0000 + 0x100 * n
def F.dmaSrcAddr (n : Nat) : Fld := ⟨R.dmaSrc n, 0, 32⟩
/-- DMAn_DST (12_memory_and_dma.md). -/
def R.dmaDst (n : Nat) : Nat := 0x080A0004 + 0x100 * n
def F.dmaDstAddr (n : Nat) : Fld := ⟨R.dmaDst n, 0, 32⟩
/-- DMAn_COUNT (12_memory_and_dma.md). -/
def R.dmaCount (n : Nat) : Nat := 0x080A0008 + 0x100 * n
def F.dmaCountCount (n : Nat) : Fld := ⟨R.dmaCount n, 0, 24⟩
/-- DMAn_CTRL (12_memory_and_dma.md). -/
def R.dmaCtrl (n : Nat) : Nat := 0x080A000C + 0x100 * n
def F.dmaCtrlStart (n : Nat) : Fld := ⟨R.dmaCtrl n, 31, 1⟩
def F.dmaCtrlAbort (n : Nat) : Fld := ⟨R.dmaCtrl n, 30, 1⟩
def F.dmaCtrlResume (n : Nat) : Fld := ⟨R.dmaCtrl n, 29, 1⟩
def F.dmaCtrlChain (n : Nat) : Fld := ⟨R.dmaCtrl n, 19, 1⟩
def F.dmaCtrlIrqHost (n : Nat) : Fld := ⟨R.dmaCtrl n, 16, 2⟩
def F.dmaCtrlIrqEn (n : Nat) : Fld := ⟨R.dmaCtrl n, 15, 1⟩
def F.dmaCtrlPrio (n : Nat) : Fld := ⟨R.dmaCtrl n, 14, 1⟩
def F.dmaCtrlEsize (n : Nat) : Fld := ⟨R.dmaCtrl n, 11, 3⟩
def F.dmaCtrlDstFix (n : Nat) : Fld := ⟨R.dmaCtrl n, 10, 1⟩
def F.dmaCtrlSrcFix (n : Nat) : Fld := ⟨R.dmaCtrl n, 9, 1⟩
def F.dmaCtrlVatEn (n : Nat) : Fld := ⟨R.dmaCtrl n, 8, 1⟩
/-- DMAn_STATUS (12_memory_and_dma.md). -/
def R.dmaStatus (n : Nat) : Nat := 0x080A0010 + 0x100 * n
def F.dmaStatusResumePend (n : Nat) : Fld := ⟨R.dmaStatus n, 18, 1⟩
def F.dmaStatusVatRefused (n : Nat) : Fld := ⟨R.dmaStatus n, 17, 1⟩
def F.dmaStatusCfgIgn (n : Nat) : Fld := ⟨R.dmaStatus n, 16, 1⟩
def F.dmaStatusCfgErr (n : Nat) : Fld := ⟨R.dmaStatus n, 15, 1⟩
def F.dmaStatusErrMulti (n : Nat) : Fld := ⟨R.dmaStatus n, 14, 1⟩
def F.dmaStatusEtype (n : Nat) : Fld := ⟨R.dmaStatus n, 8, 3⟩
def F.dmaStatusState (n : Nat) : Fld := ⟨R.dmaStatus n, 0, 3⟩
/-- DMAn_LINK (12_memory_and_dma.md). -/
def R.dmaLink (n : Nat) : Nat := 0x080A0014 + 0x100 * n
def F.dmaLinkAddr (n : Nat) : Fld := ⟨R.dmaLink n, 0, 32⟩
/-- DMAn_TAIL (12_memory_and_dma.md). -/
def R.dmaTail (n : Nat) : Nat := 0x080A0018 + 0x100 * n
def F.dmaTailAddr (n : Nat) : Fld := ⟨R.dmaTail n, 0, 32⟩
/-- DMAn_ERRADDR (12_memory_and_dma.md). -/
def R.dmaErraddr (n : Nat) : Nat := 0x080A001C + 0x100 * n
def F.dmaErraddrAddr (n : Nat) : Fld := ⟨R.dmaErraddr n, 0, 32⟩
/-- DMAn_VDESC (12_memory_and_dma.md). -/
def R.dmaVdesc (n : Nat) : Nat := 0x080A0020 + 0x100 * n
def F.dmaVdescAddr (n : Nat) : Fld := ⟨R.dmaVdesc n, 5, 27⟩
/-- DMAn_OWN (12_memory_and_dma.md). -/
def R.dmaOwn (n : Nat) : Nat := 0x080A0024 + 0x100 * n
def F.dmaOwnOwner (n : Nat) : Fld := ⟨R.dmaOwn n, 0, 3⟩
/-- DMA_EVT (12_memory_and_dma.md). -/
def R.dmaEvt : Nat := 0x080A2000
def F.dmaEvtEvt : Fld := ⟨R.dmaEvt, 0, 32⟩
/-- DMA_ACTIVE (12_memory_and_dma.md). -/
def R.dmaActive : Nat := 0x080A2004
def F.dmaActiveActive : Fld := ⟨R.dmaActive, 0, 32⟩
/-- HPn_CFG (13_host_ports_and_link.md). -/
def R.hpCfg (n : Nat) : Nat := 0x080C0000 + 0x1000 * n
def F.hpCfgMaster (n : Nat) : Fld := ⟨R.hpCfg n, 31, 1⟩
def F.hpCfgCpol (n : Nat) : Fld := ⟨R.hpCfg n, 28, 1⟩
def F.hpCfgCpha (n : Nat) : Fld := ⟨R.hpCfg n, 27, 1⟩
def F.hpCfgSdiv (n : Nat) : Fld := ⟨R.hpCfg n, 16, 8⟩
def F.hpCfgRcrc (n : Nat) : Fld := ⟨R.hpCfg n, 2, 1⟩
def F.hpCfgCrcReq (n : Nat) : Fld := ⟨R.hpCfg n, 1, 1⟩
def F.hpCfgEn (n : Nat) : Fld := ⟨R.hpCfg n, 0, 1⟩
/-- HPn_LEN (13_host_ports_and_link.md). -/
def R.hpLen (n : Nat) : Nat := 0x080C0004 + 0x1000 * n
def F.hpLenLen (n : Nat) : Fld := ⟨R.hpLen n, 0, 13⟩
/-- HPn_DLY (13_host_ports_and_link.md). -/
def R.hpDly (n : Nat) : Nat := 0x080C0008 + 0x1000 * n
def F.hpDlyIdle (n : Nat) : Fld := ⟨R.hpDly n, 16, 8⟩
def F.hpDlyLag (n : Nat) : Fld := ⟨R.hpDly n, 8, 8⟩
def F.hpDlyLead (n : Nat) : Fld := ⟨R.hpDly n, 0, 8⟩
/-- HPn_STATUS (13_host_ports_and_link.md). -/
def R.hpStatus (n : Nat) : Nat := 0x080C000C + 0x1000 * n
def F.hpStatusPlock (n : Nat) : Fld := ⟨R.hpStatus n, 31, 1⟩
def F.hpStatusCfgIgn (n : Nat) : Fld := ⟨R.hpStatus n, 19, 1⟩
def F.hpStatusCfgErr (n : Nat) : Fld := ⟨R.hpStatus n, 18, 1⟩
def F.hpStatusMmFault (n : Nat) : Fld := ⟨R.hpStatus n, 17, 1⟩
def F.hpStatusMdone (n : Nat) : Fld := ⟨R.hpStatus n, 16, 1⟩
def F.hpStatusTrunc (n : Nat) : Fld := ⟨R.hpStatus n, 15, 1⟩
def F.hpStatusBusyEvt (n : Nat) : Fld := ⟨R.hpStatus n, 14, 1⟩
def F.hpStatusAbortEvt (n : Nat) : Fld := ⟨R.hpStatus n, 13, 1⟩
def F.hpStatusCrcEvt (n : Nat) : Fld := ⟨R.hpStatus n, 12, 1⟩
def F.hpStatusDenyEvt (n : Nat) : Fld := ⟨R.hpStatus n, 11, 1⟩
def F.hpStatusMbusy (n : Nat) : Fld := ⟨R.hpStatus n, 3, 1⟩
def F.hpStatusReplyRdy (n : Nat) : Fld := ⟨R.hpStatus n, 2, 1⟩
def F.hpStatusExec (n : Nat) : Fld := ⟨R.hpStatus n, 1, 1⟩
def F.hpStatusSel (n : Nat) : Fld := ⟨R.hpStatus n, 0, 1⟩
/-- HPn_ERR_CNT (13_host_ports_and_link.md). -/
def R.hpErrCnt (n : Nat) : Nat := 0x080C0010 + 0x1000 * n
def F.hpErrCntAborted (n : Nat) : Fld := ⟨R.hpErrCnt n, 24, 8⟩
def F.hpErrCntCrc (n : Nat) : Fld := ⟨R.hpErrCnt n, 16, 8⟩
def F.hpErrCntDenied (n : Nat) : Fld := ⟨R.hpErrCnt n, 8, 8⟩
def F.hpErrCntBusy (n : Nat) : Fld := ⟨R.hpErrCnt n, 0, 8⟩
/-- HPn_MCTRL (13_host_ports_and_link.md). -/
def R.hpMctrl (n : Nat) : Nat := 0x080C0014 + 0x1000 * n
def F.hpMctrlGo (n : Nat) : Fld := ⟨R.hpMctrl n, 0, 1⟩
/-- HPn_IRQ_EN (13_host_ports_and_link.md). -/
def R.hpIrqEn (n : Nat) : Nat := 0x080C0018 + 0x1000 * n
def F.hpIrqEnEn (n : Nat) : Fld := ⟨R.hpIrqEn n, 0, 11⟩
/-- HPn_IRQ_STAT (13_host_ports_and_link.md). -/
def R.hpIrqStat (n : Nat) : Nat := 0x080C001C + 0x1000 * n
def F.hpIrqStatSrc (n : Nat) : Fld := ⟨R.hpIrqStat n, 0, 11⟩
/-- HPn_HDBELL (13_host_ports_and_link.md). -/
def R.hpHdbell (n : Nat) : Nat := 0x080C0020 + 0x1000 * n
def F.hpHdbellPend (n : Nat) : Fld := ⟨R.hpHdbell n, 0, 16⟩
/-- HPn_MTXw (13_host_ports_and_link.md). -/
def R.hpMtx (n : Nat) (w : Nat) : Nat := 0x080C0200 + 0x1000 * n + 0x4 * w
def F.hpMtxBits (n : Nat) (w : Nat) : Fld := ⟨R.hpMtx n w, 0, 32⟩
/-- HPn_MRXw (13_host_ports_and_link.md). -/
def R.hpMrx (n : Nat) (w : Nat) : Nat := 0x080C0800 + 0x1000 * n + 0x4 * w
def F.hpMrxBits (n : Nat) (w : Nat) : Fld := ⟨R.hpMrx n w, 0, 32⟩
/-- PERM_BASEw (13_host_ports_and_link.md). -/
def R.permBase (w : Nat) : Nat := 0x080C0C00 + 0x10 * w
def F.permBaseBase (w : Nat) : Fld := ⟨R.permBase w, 8, 24⟩
/-- PERM_LIMITw (13_host_ports_and_link.md). -/
def R.permLimit (w : Nat) : Nat := 0x080C0C04 + 0x10 * w
def F.permLimitLimit (w : Nat) : Fld := ⟨R.permLimit w, 8, 24⟩
/-- PERM_RIGHTSw (13_host_ports_and_link.md). -/
def R.permRights (w : Nat) : Nat := 0x080C0C08 + 0x10 * w
def F.permRightsValid (w : Nat) : Fld := ⟨R.permRights w, 31, 1⟩
def F.permRightsC (w : Nat) (h : Nat) : Fld := ⟨R.permRights w, 3 * h + 2, 1⟩
def F.permRightsW (w : Nat) (h : Nat) : Fld := ⟨R.permRights w, 3 * h + 1, 1⟩
def F.permRightsR (w : Nat) (h : Nat) : Fld := ⟨R.permRights w, 3 * h + 0, 1⟩
/-- CAN_CTRL (14_vehicle_listener_events_chime.md). -/
def R.canCtrl : Nat := 0x080D0000
def F.canCtrlEn : Fld := ⟨R.canCtrl, 31, 1⟩
def F.canCtrlNbr : Fld := ⟨R.canCtrl, 29, 2⟩
def F.canCtrlDbr : Fld := ⟨R.canCtrl, 26, 3⟩
def F.canCtrlDsp : Fld := ⟨R.canCtrl, 8, 8⟩
def F.canCtrlNsp : Fld := ⟨R.canCtrl, 0, 8⟩
/-- CAN_STATUS (14_vehicle_listener_events_chime.md). -/
def R.canStatus : Nat := 0x080D0004
def F.canStatusCfgIgn : Fld := ⟨R.canStatus, 11, 1⟩
def F.canStatusCfgErr : Fld := ⟨R.canStatus, 10, 1⟩
def F.canStatusRateErr : Fld := ⟨R.canStatus, 9, 1⟩
def F.canStatusShort : Fld := ⟨R.canStatus, 8, 1⟩
def F.canStatusState : Fld := ⟨R.canStatus, 0, 2⟩
/-- CAN_RX_CNT (14_vehicle_listener_events_chime.md). -/
def R.canRxCnt : Nat := 0x080D0008
def F.canRxCntAccepted : Fld := ⟨R.canRxCnt, 16, 16⟩
def F.canRxCntRejected : Fld := ⟨R.canRxCnt, 0, 16⟩
/-- CAN_ERR_CNT (14_vehicle_listener_events_chime.md). -/
def R.canErrCnt : Nat := 0x080D000C
def F.canErrCntCrc : Fld := ⟨R.canErrCnt, 24, 8⟩
def F.canErrCntStuff : Fld := ⟨R.canErrCnt, 16, 8⟩
def F.canErrCntForm : Fld := ⟨R.canErrCnt, 8, 8⟩
def F.canErrCntRate : Fld := ⟨R.canErrCnt, 0, 8⟩
/-- CAN_TO_EVT_LO (14_vehicle_listener_events_chime.md). -/
def R.canToEvtLo : Nat := 0x080D0010
def F.canToEvtLoTo : Fld := ⟨R.canToEvtLo, 0, 32⟩
/-- CAN_TO_EVT_HI (14_vehicle_listener_events_chime.md). -/
def R.canToEvtHi : Nat := 0x080D0014
def F.canToEvtHiTo : Fld := ⟨R.canToEvtHi, 0, 32⟩
/-- CAN_SIGVALs (14_vehicle_listener_events_chime.md). -/
def R.canSigval (s : Nat) : Nat := 0x080D0100 + 0x4 * s
def F.canSigvalRaw (s : Nat) : Fld := ⟨R.canSigval s, 0, 32⟩
/-- CAN_SIGSTs (14_vehicle_listener_events_chime.md). -/
def R.canSigst (s : Nat) : Nat := 0x080D0200 + 0x4 * s
def F.canSigstHalted (s : Nat) : Fld := ⟨R.canSigst s, 1, 1⟩
def F.canSigstStale (s : Nat) : Fld := ⟨R.canSigst s, 0, 1⟩
/-- CAN_SIGTSs (14_vehicle_listener_events_chime.md). -/
def R.canSigts (s : Nat) : Nat := 0x080D0300 + 0x4 * s
def F.canSigtsStamp (s : Nat) : Fld := ⟨R.canSigts s, 0, 32⟩
/-- EVT_CFGi (14_vehicle_listener_events_chime.md). -/
def R.evtCfg (i : Nat) : Nat := 0x080D1000 + 0x4 * i
def F.evtCfgEn (i : Nat) : Fld := ⟨R.evtCfg i, 31, 1⟩
def F.evtCfgInv (i : Nat) : Fld := ⟨R.evtCfg i, 30, 1⟩
def F.evtCfgFrzLvl (i : Nat) : Fld := ⟨R.evtCfg i, 29, 1⟩
def F.evtCfgRel (i : Nat) : Fld := ⟨R.evtCfg i, 28, 1⟩
def F.evtCfgDeb (i : Nat) : Fld := ⟨R.evtCfg i, 16, 8⟩
def F.evtCfgChatK (i : Nat) : Fld := ⟨R.evtCfg i, 12, 4⟩
def F.evtCfgChatW (i : Nat) : Fld := ⟨R.evtCfg i, 8, 4⟩
def F.evtCfgMaxact (i : Nat) : Fld := ⟨R.evtCfg i, 0, 8⟩
/-- EVT_DESTi (14_vehicle_listener_events_chime.md). -/
def R.evtDest (i : Nat) : Nat := 0x080D1020 + 0x4 * i
def F.evtDestOvEn (i : Nat) : Fld := ⟨R.evtDest i, 31, 1⟩
def F.evtDestOvr (i : Nat) : Fld := ⟨R.evtDest i, 26, 5⟩
def F.evtDestOnMode (i : Nat) : Fld := ⟨R.evtDest i, 24, 2⟩
def F.evtDestOnGain (i : Nat) : Fld := ⟨R.evtDest i, 0, 24⟩
/-- EVT_ACTi (14_vehicle_listener_events_chime.md). -/
def R.evtAct (i : Nat) : Nat := 0x080D1040 + 0x4 * i
def F.evtActLwEn (i : Nat) : Fld := ⟨R.evtAct i, 31, 1⟩
def F.evtActEng (i : Nat) : Fld := ⟨R.evtAct i, 28, 3⟩
def F.evtActLw (i : Nat) : Fld := ⟨R.evtAct i, 24, 4⟩
def F.evtActSnap (i : Nat) : Fld := ⟨R.evtAct i, 15, 1⟩
def F.evtActWake (i : Nat) : Fld := ⟨R.evtAct i, 14, 1⟩
def F.evtActCntEn (i : Nat) : Fld := ⟨R.evtAct i, 11, 1⟩
def F.evtActCnt (i : Nat) : Fld := ⟨R.evtAct i, 8, 3⟩
/-- EVT_LEVEL (14_vehicle_listener_events_chime.md). -/
def R.evtLevel : Nat := 0x080D1060
def F.evtLevelRaw : Fld := ⟨R.evtLevel, 8, 8⟩
def F.evtLevelLogical : Fld := ⟨R.evtLevel, 0, 8⟩
/-- EVT_STATUS (14_vehicle_listener_events_chime.md). -/
def R.evtStatus : Nat := 0x080D1064
def F.evtStatusStuck : Fld := ⟨R.evtStatus, 8, 8⟩
def F.evtStatusChatter : Fld := ⟨R.evtStatus, 0, 8⟩
/-- VEH_CNTk (14_vehicle_listener_events_chime.md). -/
def R.vehCnt (k : Nat) : Nat := 0x080D1080 + 0x4 * k
def F.vehCntCount (k : Nat) : Fld := ⟨R.vehCnt k, 0, 32⟩
/-- CHIME_CFG (14_vehicle_listener_events_chime.md). -/
def R.chimeCfg : Nat := 0x080D2000
def F.chimeCfgEn : Fld := ⟨R.chimeCfg, 31, 1⟩
def F.chimeCfgSafePat : Fld := ⟨R.chimeCfg, 12, 2⟩
def F.chimeCfgPd1Pat : Fld := ⟨R.chimeCfg, 8, 2⟩
def F.chimeCfgXtalPat : Fld := ⟨R.chimeCfg, 4, 2⟩
/-- CHIME_CTRL (14_vehicle_listener_events_chime.md). -/
def R.chimeCtrl : Nat := 0x080D2004
def F.chimeCtrlReload : Fld := ⟨R.chimeCtrl, 31, 1⟩
def F.chimeCtrlTestStop : Fld := ⟨R.chimeCtrl, 8, 1⟩
def F.chimeCtrlTest : Fld := ⟨R.chimeCtrl, 4, 1⟩
def F.chimeCtrlTestPat : Fld := ⟨R.chimeCtrl, 0, 2⟩
/-- CHIME_STATUS (14_vehicle_listener_events_chime.md). -/
def R.chimeStatus : Nat := 0x080D2008
def F.chimeStatusValid : Fld := ⟨R.chimeStatus, 16, 4⟩
def F.chimeStatusPlayed : Fld := ⟨R.chimeStatus, 15, 1⟩
def F.chimeStatusSrc : Fld := ⟨R.chimeStatus, 8, 3⟩
def F.chimeStatusPat : Fld := ⟨R.chimeStatus, 4, 2⟩
def F.chimeStatusSounding : Fld := ⟨R.chimeStatus, 0, 1⟩
/-- PWR_REQ (15_boot_power_snapshot.md). -/
def R.pwrReq : Nat := 0x08001000
def F.pwrReqRet : Fld := ⟨R.pwrReq, 10, 2⟩
def F.pwrReqOn : Fld := ⟨R.pwrReq, 2, 6⟩
/-- PWR_STAT (15_boot_power_snapshot.md). -/
def R.pwrStat : Nat := 0x08001004
def F.pwrStatState (d : Nat) : Fld := ⟨R.pwrStat, 4 * d + 0, 4⟩
/-- PWR_CTRL (15_boot_power_snapshot.md). -/
def R.pwrCtrl : Nat := 0x08001008
def F.pwrCtrlCanWake : Fld := ⟨R.pwrCtrl, 16, 1⟩
def F.pwrCtrlSleep : Fld := ⟨R.pwrCtrl, 0, 2⟩
/-- PWR_EVT (15_boot_power_snapshot.md). -/
def R.pwrEvt : Nat := 0x0800100C
def F.pwrEvtStageDone : Fld := ⟨R.pwrEvt, 3, 1⟩
def F.pwrEvtWoke : Fld := ⟨R.pwrEvt, 2, 1⟩
def F.pwrEvtHeld : Fld := ⟨R.pwrEvt, 1, 1⟩
def F.pwrEvtPd1Fault : Fld := ⟨R.pwrEvt, 0, 1⟩
/-- BOOT_STATUS (15_boot_power_snapshot.md). -/
def R.bootStatus : Nat := 0x08001010
def F.bootStatusRetries : Fld := ⟨R.bootStatus, 28, 4⟩
def F.bootStatusWsWritten : Fld := ⟨R.bootStatus, 18, 1⟩
def F.bootStatusWsVerified : Fld := ⟨R.bootStatus, 17, 1⟩
def F.bootStatusWsMismatch : Fld := ⟨R.bootStatus, 16, 1⟩
def F.bootStatusFlashErr : Fld := ⟨R.bootStatus, 15, 1⟩
def F.bootStatusOvlSkip : Fld := ⟨R.bootStatus, 14, 1⟩
def F.bootStatusAuthErr : Fld := ⟨R.bootStatus, 13, 1⟩
def F.bootStatusWrErr : Fld := ⟨R.bootStatus, 12, 1⟩
def F.bootStatusDestErr : Fld := ⟨R.bootStatus, 11, 1⟩
def F.bootStatusAbandoned : Fld := ⟨R.bootStatus, 10, 1⟩
def F.bootStatusNoimg : Fld := ⟨R.bootStatus, 9, 1⟩
def F.bootStatusAuth : Fld := ⟨R.bootStatus, 6, 2⟩
def F.bootStatusSrc : Fld := ⟨R.bootStatus, 4, 2⟩
def F.bootStatusStep : Fld := ⟨R.bootStatus, 0, 4⟩
/-- BOOT_IMAGE_ID (15_boot_power_snapshot.md). -/
def R.bootImageId : Nat := 0x08001014
def F.bootImageIdId : Fld := ⟨R.bootImageId, 0, 32⟩
/-- FLOG_SEQ (15_boot_power_snapshot.md). -/
def R.flogSeq : Nat := 0x08001018
def F.flogSeqSeq : Fld := ⟨R.flogSeq, 0, 32⟩
/-- FLOG_DROP (15_boot_power_snapshot.md). -/
def R.flogDrop : Nat := 0x0800101C
def F.flogDropCount : Fld := ⟨R.flogDrop, 0, 16⟩
/-- SNAP_CTRL (15_boot_power_snapshot.md). -/
def R.snapCtrl : Nat := 0x08004000
def F.snapCtrlArm : Fld := ⟨R.snapCtrl, 31, 1⟩
def F.snapCtrlTrig : Fld := ⟨R.snapCtrl, 30, 1⟩
def F.snapCtrlEn : Fld := ⟨R.snapCtrl, 0, 7⟩
/-- SNAP_SEQ (15_boot_power_snapshot.md). -/
def R.snapSeq : Nat := 0x08004004
def F.snapSeqSeq : Fld := ⟨R.snapSeq, 16, 16⟩
def F.snapSeqMissed : Fld := ⟨R.snapSeq, 8, 8⟩
def F.snapSeqArmed : Fld := ⟨R.snapSeq, 7, 1⟩
def F.snapSeqSrc : Fld := ⟨R.snapSeq, 0, 7⟩
/-- SNAP_DATAi (15_boot_power_snapshot.md). -/
def R.snapData (i : Nat) : Nat := 0x08004100 + 0x4 * i
def F.snapDataValue (i : Nat) : Fld := ⟨R.snapData i, 0, 32⟩
/-- THERM_TEMPs (15_boot_power_snapshot.md). -/
def R.thermTemp (s : Nat) : Nat := 0x080D3000 + 0x4 * s
def F.thermTempTemp (s : Nat) : Fld := ⟨R.thermTemp s, 0, 16⟩
/-- THERM_CFG (15_boot_power_snapshot.md). -/
def R.thermCfg : Nat := 0x080D3010
def F.thermCfgPark (k : Nat) : Fld := ⟨R.thermCfg, 2 * k + 24, 2⟩
def F.thermCfgParkInt : Fld := ⟨R.thermCfg, 20, 4⟩
def F.thermCfgHyst : Fld := ⟨R.thermCfg, 16, 4⟩
def F.thermCfgCrit : Fld := ⟨R.thermCfg, 8, 8⟩
def F.thermCfgWarn : Fld := ⟨R.thermCfg, 0, 8⟩
/-- THERM_STATUS (15_boot_power_snapshot.md). -/
def R.thermStatus : Nat := 0x080D3014
def F.thermStatusSafeEvt : Fld := ⟨R.thermStatus, 19, 1⟩
def F.thermStatusCritEvt : Fld := ⟨R.thermStatus, 18, 1⟩
def F.thermStatusWarnEvt : Fld := ⟨R.thermStatus, 17, 1⟩
def F.thermStatusCritAct : Fld := ⟨R.thermStatus, 9, 1⟩
def F.thermStatusWarnAct : Fld := ⟨R.thermStatus, 8, 1⟩
def F.thermStatusParked : Fld := ⟨R.thermStatus, 0, 4⟩
/-- OTP_LC_REQ (15_boot_power_snapshot.md). -/
def R.otpLcReq : Nat := 0x080D4000
def F.otpLcReqKey : Fld := ⟨R.otpLcReq, 16, 16⟩
def F.otpLcReqTarget : Fld := ⟨R.otpLcReq, 0, 2⟩
/-- OTP_STATUS (15_boot_power_snapshot.md). -/
def R.otpStatus : Nat := 0x080D4004
def F.otpStatusPendLc : Fld := ⟨R.otpStatus, 8, 2⟩
def F.otpStatusReqErr : Fld := ⟨R.otpStatus, 2, 1⟩
def F.otpStatusDone : Fld := ⟨R.otpStatus, 1, 1⟩
def F.otpStatusBusy : Fld := ⟨R.otpStatus, 0, 1⟩
/-- PDM_STUCK_EVT (10_audio_ports_and_asrc.md, Table 10-9). -/
def R.pdmStuckEvt : Nat := 0x0808800C
def F.pdmStuckEvtBit (c : Nat) : Fld := ⟨R.pdmStuckEvt, c, 1⟩

end Sys2Proof.Machine
end

