-- ==== Sys2Proof/Machine/Ops.lean ====
section
/-! DEFINITION. The named operations over the register store, the memories, the arrays of the state and the time. -/

namespace Sys2Proof.Machine

/-! ## Registers -/

/-- The stored value of the register at `a` (R8); computed registers are read through the bus. -/
def State.rd (s : State) (a : Nat) : Word := spGet regReset s.regs a

/-- The register at `a` set to `v`, whatever its access code. -/
def State.wr (s : State) (a : Nat) (v : Word) : State := { s with regs := spSet regReset s.regs a v }

/-- The value of a field. -/
def State.get (s : State) (f : Fld) : Nat := fieldOf (s.rd f.addr).toNat f.lo f.w

/-- A field set to the low bits of `v`; the register's other bits stay. -/
def State.put (s : State) (f : Fld) (v : Nat) : State :=
  s.wr f.addr (BitVec.ofNat 32 (putField (s.rd f.addr).toNat f.lo f.w v))

/-- A one-bit field as a flag. -/
def State.flag (s : State) (f : Fld) : Bool := s.get f != 0

/-- A field read as two's complement. -/
def State.getS (s : State) (f : Fld) : Int := sx f.w (s.get f)

/-- A counter field advanced by `n`, stopping at its largest value. -/
def State.bump (s : State) (f : Fld) (n : Nat) : State := s.put f (min (s.get f + n) (2 ^ f.w - 1))

/-- A flag set when a condition holds. -/
def State.setIf (s : State) (c : Bool) (f : Fld) : State := if c then s.put f 1 else s

/-- The register cleared back to its reset value. -/
def State.unreg (s : State) (a : Nat) : State := { s with regs := spDel a s.regs }

/-- Every register in [lo, hi) back at its reset value. -/
def State.regClear (s : State) (lo hi : Nat) : State := { s with regs := spClear lo hi s.regs }

/-! ## Memory below 0x0800_0000 -/

/-- What a byte of memory that nothing has written reads as: 0. DESIGN CHOICE, see the log: the spec gives no contents
of memory after power-on reset where no clear is stated. -/
def memDefault (_ : Nat) : Byte := 0#8

/-- The canonical form of memory: addresses strictly rising, no entry that equals what an unlisted address reads as. -/
abbrev Memory.wf (m : List Host.Cell) : Prop :=
  m.Pairwise (fun x y => x.1 < y.1) ∧ ∀ e ∈ m, e.2 ≠ memDefault e.1

/-- The canonical form of the register store. -/
abbrev Regs.wf (m : List (Nat × Word)) : Prop :=
  m.Pairwise (fun x y => x.1 < y.1) ∧ ∀ e ∈ m, e.2 ≠ regReset e.1

/-- Read one byte of memory. -/
def State.rb (s : State) (a : Nat) : Byte := spGet memDefault s.mem a

/-- Write one byte of memory. -/
def State.wb (s : State) (a : Nat) (v : Byte) : State := { s with mem := spSet memDefault s.mem a v }

/-- Write bytes at rising addresses. -/
def State.wbs (s : State) (a : Nat) : List Byte → State
  | [] => s
  | b :: l => (s.wb a b).wbs (a + 1) l

/-- Read `n` bytes at rising addresses. -/
def State.rbs (s : State) (a : Nat) : Nat → List Byte
  | 0 => []
  | n + 1 => s.rb a :: s.rbs (a + 1) n

/-- Read the word at `a`, least significant byte first (R5). -/
def State.rw (s : State) (a : Nat) : Word := bytesWord (s.rb a) (s.rb (a + 1)) (s.rb (a + 2)) (s.rb (a + 3))

/-- Write the word at `a`, least significant byte first (R5). -/
def State.ww (s : State) (a : Nat) (v : Word) : State := s.wbs a (wordBytes v)

/-- Read the 64-bit word at `a` (R54: bits [31:0] at the lower word address). -/
def State.rw64 (s : State) (a : Nat) : DWord :=
  BitVec.ofNat 64 ((s.rw a).toNat + 2 ^ 32 * (s.rw (a + 4)).toNat)

/-- Zero the bytes in [lo, hi). -/
def State.memClear (s : State) (lo hi : Nat) : State := { s with mem := spClear lo hi s.mem }

/-- The bytes of [a, a+n) and of [b, b+n) exchanged (the swap of a commit, R120). -/
def State.memSwap (s : State) (a b n : Nat) : State :=
  let mv := fun (e : Host.Cell) =>
    if a ≤ e.1 ∧ e.1 < a + n then (e.1 - a + b, e.2)
    else if b ≤ e.1 ∧ e.1 < b + n then (e.1 - b + a, e.2) else e
  let part := s.mem.filter (fun e => decide (a ≤ e.1 ∧ e.1 < a + n) || decide (b ≤ e.1 ∧ e.1 < b + n))
  let rest := s.mem.filter (fun e => !(decide (a ≤ e.1 ∧ e.1 < a + n) || decide (b ≤ e.1 ∧ e.1 < b + n)))
  { s with mem := (part.map mv).foldl (fun m e => spSet memDefault m e.1 e.2) rest }

/-- The registers of [a, a+n) and of [b, b+n) exchanged. -/
def State.regSwap (s : State) (a b n : Nat) : State :=
  let inA := fun (k : Nat) => decide (a ≤ k ∧ k < a + n)
  let inB := fun (k : Nat) => decide (b ≤ k ∧ k < b + n)
  let mv := fun (e : Nat × Word) => if inA e.1 then (e.1 - a + b, e.2) else (e.1 - b + a, e.2)
  let part := s.regs.filter (fun e => inA e.1 || inB e.1)
  let rest := s.regs.filter (fun e => !(inA e.1 || inB e.1))
  { s with regs := (part.map mv).foldl (fun m e => spSet regReset m e.1 e.2) rest }

/-! ## Answers of the bus -/

/-- The access was served. -/
def State.ok (s : State) : State := { s with resp := .ok }

/-- The access was turned away as DENIED. -/
def State.denied (s : State) : State := { s with resp := .denied }

/-- A free value is drawn: the next word of `Config.freeWord`. -/
def State.draw (s : State) : Word × State := (Config.freeWord s.free, { s with free := s.free + 1 })

/-! ## Time: ticks, domains and boundaries (R28 to R33, R46, R49, R168) -/

/-- The rate domains. -/
inductive RDom where
  | a
  | b
  | c
  deriving DecidableEq, Repr

/-- The domain that a DOMAIN field names; 0b11 names none (R484). -/
def domOf (v : Nat) : Option RDom :=
  match v with
  | 0 => some .a
  | 1 => some .b
  | 2 => some .c
  | _ => none

/-- ENG_CLK cycles in a domain-A tick for an FSA code (Table 01-5, Table 06-10). -/
def cyclesOf (fsa : Nat) : Nat := if fsa < 2 then 12288 else if fsa < 4 then 6144 else 3072

/-- FsA in hertz for an FSA code (Table 06-10). -/
def fsaHz (fsa : Nat) : Nat :=
  match fsa with
  | 0 => 44100
  | 1 => 48000
  | 2 => 88200
  | 3 => 96000
  | 4 => 176400
  | _ => 192000

/-- A domain's tick in quarters of a domain-A tick, for a code of k (Table 06-10): 4/k. -/
def periodOf (k : Nat) : Nat :=
  match k with
  | 0 => 24
  | 1 => 16
  | 2 => 12
  | 3 => 8
  | 4 => 4
  | 5 => 2
  | _ => 1

/-- The denominator of k for a code of k (R30). -/
def denOf (k : Nat) : Nat :=
  match k with
  | 0 => 6
  | 1 => 4
  | 2 => 3
  | 3 => 2
  | _ => 1

/-- FSA, KB and KC of a word in the layout of DOM_CFG. -/
def cfgFsa (v : Word) : Nat := fieldOf v.toNat 0 3
def cfgKb (v : Word) : Nat := fieldOf v.toNat 8 3
def cfgKc (v : Word) : Nat := fieldOf v.toNat 12 3

/-- The active rate configuration. -/
def State.domAct (s : State) : Word := s.rd R.domAct

/-- ENG_CLK cycles per domain-A tick (R28). -/
def State.cA (s : State) : Nat := cyclesOf (cfgFsa s.domAct)

/-- A domain's tick in quarters of a domain-A tick. -/
def State.period (s : State) (d : RDom) : Nat :=
  match d with
  | .a => 4
  | .b => periodOf (cfgKb s.domAct)
  | .c => periodOf (cfgKc s.domAct)

/-- ENG_CLK cycles in a tick of a domain (Table 02-1). -/
def State.cD (s : State) (d : RDom) : Nat := s.cA * s.period d / 4

/-- A domain's rate in hertz. -/
def State.rateHz (s : State) (d : RDom) : Nat := fsaHz (cfgFsa s.domAct) * 4 / s.period d

/-- f_ENG in hertz: FsA × C_A. -/
def State.engHz (s : State) : Nat := fsaHz (cfgFsa s.domAct) * s.cA

/-- Domain-A ticks since the epoch start. -/
def State.tickNo (s : State) : Nat := s.sys.qt / 4

/-- TSTAMP (R32). -/
def State.tstamp (s : State) : Nat := s.tickNo % 2 ^ 48

/-- A tick boundary of domain `d` falls at `q` quarter ticks (R168). Where TSTAMP wraps, a tick of every domain begins (R31). -/
def State.tickAt (s : State) (d : RDom) (q : Nat) : Bool := q % 2 ^ 50 % s.period d == 0

/-- DTICK of a domain at `q` quarter ticks: its tick boundaries since the epoch start (R49, R168). -/
def State.dtickAt (s : State) (d : RDom) (q : Nat) : Nat :=
  let p := s.period d
  (q / 2 ^ 50 * ((2 ^ 50 + p - 1) / p) + q % 2 ^ 50 / p) % 2 ^ 48

/-- DTICK of a domain (R49, R168). -/
def State.dtick (s : State) (d : RDom) : Nat := s.dtickAt d s.sys.qt

/-- The stamp of the tick of a domain that ends at this edge (R49). -/
def State.stampEnded (s : State) (d : RDom) : Nat := (s.dtick d + 2 ^ 48 - 1) % 2 ^ 48

/-- The write pointer of a domain (R72). -/
def State.wp (s : State) (d : RDom) : Nat := s.dtick d % 262144

/-- ENG_CLK cycle within the running tick of a domain, at cycle `cyc` of the domain-A tick. -/
def State.cycIn (s : State) (d : RDom) (cyc : Nat) : Nat := (s.tstamp * s.cA + cyc) % s.cD d

/-- M in force (R30). -/
def State.mLcm (s : State) : Nat := s.get F.domStatusM

/-- Domain D is in use (R30, R171). -/
def State.inUse (s : State) (d : RDom) : Bool :=
  match d with
  | .a => true
  | .b => s.flag F.domStatusUseB
  | .c => s.flag F.domStatusUseC

/-- The edge last passed is the start of a domain-A tick, and no later timed command has come. -/
def State.atEdge (s : State) : Bool := s.sys.qt % 4 == 0 && s.sys.cyc == 0

/-- The start of tick `t` is a common boundary under the M in force (R31). -/
def State.isCommon (s : State) (t : Nat) : Bool := t % 2 ^ 48 % s.mLcm == 0

/-- The start of tick `t` is a rate-set boundary: its TSTAMP is a multiple of 12 (R171). -/
def isRateSet (t : Nat) : Bool := t % 2 ^ 48 % 12 == 0

/-- The machine stands at a common boundary's edge. -/
def State.atCommon (s : State) : Bool := s.atEdge && s.isCommon s.tickNo

/-- Quarter ticks to the next edge: the shortest tick of a domain. A domain has tick boundaries whether or not it is in use
(R49, R168). -/
def State.stepQ (s : State) : Nat := min 4 (min (s.period .b) (s.period .c))

/-- SYS_STATE.STATE. -/
def State.st (s : State) : Nat := s.get F.sysStateState

/-- An epoch runs: STATE is RUN. -/
def State.runs (s : State) : Bool := s.st == 1

/-- A timed command reaches the ENG_CLK side in cycle `cyc` of the domain-A tick. While no tick runs, two commands are in one cycle
when they follow each other with one `cyc` (DESIGN CHOICE, log 136). -/
def State.atCyc (s : State) (cyc : Nat) : State :=
  if s.sys.cyc < cyc || (cyc != s.sys.cyc && !(s.runs && s.sys.engClk)) then
    { s with sys := { s.sys with cyc := cyc, wrote := [] } }
  else s

/-- A write by the writer at place `k` of the order of R59, R142, R416 and R418 stands against the writes of the same word in the same
cycle: the later place stands, and among writes of one place the later write. -/
def State.lastWriter (s : State) (a k : Nat) : Bool := decide (spGet (fun _ => 0) s.sys.wrote a ≤ k)

/-- The write is the one that stands so far in this cycle. -/
def State.noteWriter (s : State) (a k : Nat) : State := { s with sys := { s.sys with wrote := spSet (fun _ => 0) s.sys.wrote a k } }

/-- The first tick whose cutoff (R118) lies after cycle `cyc` of the running domain-A tick. -/
def State.afterCutoff (s : State) (cyc : Nat) : Nat := if cyc < s.cA - 1024 then s.tickNo + 1 else s.tickNo + 2

/-- The ENG_CLK cycle of the latest timed command, counted from the epoch start. -/
def State.engCyc (s : State) : Nat := s.tickNo * s.cA + max s.sys.cyc (s.sys.qt % 4 * s.cA / 4)

/-- A little-endian word of the header in use. -/
def State.hdrW (s : State) (o : Nat) : Nat := leNat ((s.boot.hdr.drop o).take 4)

/-- S0 of the header in use (R429). -/
def State.hdrS0 (s : State) : Nat := if leNat ((s.boot.hdr.drop 0x1C).take 1) == 1 then 0xC0 else 0x40

/-- Where stage `k` begins and ends in the image (R430). -/
def State.stageEnd (s : State) (k : Nat) : Nat := s.hdrW (0x0C + 4 * k)
def State.stageFrom (s : State) (k : Nat) : Nat := if k = 0 then s.hdrS0 else s.stageEnd (k - 1)

/-- The next stage that holds bytes, or 4 (R437). -/
def State.nextStage (s : State) : Nat :=
  ((List.range 4).find? (fun k => decide (s.boot.done ≤ k) && decide (s.stageFrom k < s.stageEnd k))).getD 4

/-- No stage is pending (Table 15-14). -/
def State.stagesOver (s : State) : Bool :=
  s.boot.step == 11 && (s.boot.ended || (s.nextStage == 4 && !s.boot.wait && !s.boot.verify))

/-- An epoch cause is due at the next common boundary. -/
def State.drainDue (s : State) : Bool := s.sys.dueFam || s.sys.dueRate || s.sys.dueReload || s.sys.dueHost

/-- Cause `k` came after the latest tick boundary. -/
def State.dueLater (s : State) (k : Nat) : Bool := s.sys.late.testBit k

/-- A cause that came before the latest tick boundary is due there (Table 01-6). -/
def State.drainNow (s : State) : Bool :=
  (s.sys.dueFam && !s.dueLater 0) || (s.sys.dueRate && !s.dueLater 1) || (s.sys.dueReload && !s.dueLater 2) ||
  (s.sys.dueHost && !s.dueLater 3)

/-- Cause `k`, or a sleep request, comes now: unless it waits already (`on`), it is due from the next tick boundary on. -/
def State.lateDue (s : State) (k : Nat) (on : Bool) : Nat := if on then s.sys.late else putField s.sys.late k 1 1

/-- A drain, or the entry into sleep, begins at this edge (R34, R446). -/
def State.endsHere (s : State) : Bool :=
  s.atCommon && (s.drainNow || (s.boot.slp != 0 && !s.dueLater 4 && s.stagesOver))

/-- The codes of SYS_STATE.STATE. -/
def stBoot : Nat := 0
def stRun : Nat := 1
def stDrain : Nat := 2
def stHalt : Nat := 3
def stSafe : Nat := 4

/-! ## Power (R43, R443) -/

/-- PWR_STAT.STATEd. -/
def State.pwr (s : State) (d : Nat) : Nat := s.get (F.pwrStatState d)

/-- The state codes of a power domain in which its logic is supplied (Table 15-11): ON, and DOWN while a power-down waits. -/
def State.powered (s : State) (d : Nat) : Bool := s.pwr d == 3 || s.pwr d == 4

/-- PD1 is on. PWR_STAT has its reset value from power-on reset on, and PD1 powers up in step 4 (Table 15-1); before the part
sleeps it is in DOWN. -/
def State.pd1On (s : State) : Bool := s.pwr 1 == 4 || (s.pwr 1 == 3 && decide (5 ≤ s.boot.step))

/-- The power domain of tick engine `e` (Table 01-8). -/
def tePd (e : Nat) : Nat := 2 + e / 4

/-- The power domain of Indigo core `c` (Table 01-8). -/
def igPd (c : Nat) : Nat := 4 + c / 4

/-- The cluster of engine `e` is powered (R54, R80, R112). -/
def State.tePowered (s : State) (e : Nat) : Bool := s.powered (tePd e)

/-- The cluster of core `c` is powered. -/
def State.igPowered (s : State) (c : Nat) : Bool := s.powered (igPd c)

/-! ## Engines -/

/-- Engine `e`. -/
def State.eng (s : State) (e : Nat) : Engine := ng s.te e Engine.zero

/-- Engine `e` changed by `g`. -/
def State.setEng (s : State) (e : Nat) (g : Engine → Engine) : State :=
  { s with te := ns s.te e (g (s.eng e)) }

/-- The domain of engine `e` (R45). -/
def State.engDom (s : State) (e : Nat) : Option RDom := domOf (s.get (F.teCtrlDomain e))

/-- TEn_STATUS.STATE of engine `e`. -/
def State.teState (s : State) (e : Nat) : Nat := s.get (F.teStatusState e)

/-- The codes of TEn_STATUS.STATE. -/
def teStopped : Nat := 0
def teStartPending : Nat := 1
def teRunning : Nat := 2
def teStopPending : Nat := 3

/-- Base address of engine `e`'s delay store (R79), program memory (R54) and coefficient memory (R136). -/
def dlyBase (e : Nat) : Nat := 0x05000000 + 0x100000 * e
def pmBase (e : Nat) : Nat := 0x06000000 + 0x20000 * e
def cfBase (e : Nat) : Nat := 0x06100000 + 0x10000 * e

/-- The word of engine `e`'s delay store at physical index `p`. -/
def State.dlyRd (s : State) (e p : Nat) : Word := s.rw (dlyBase e + 4 * p)

/-- The word of engine `e`'s delay store at physical index `p` set. -/
def State.dlyWr (s : State) (e p : Nat) (v : Word) : State := s.ww (dlyBase e + 4 * p) v

/-- The dirty bit of store word `p` of engine `e` set (R81). -/
def State.dlyDirty (s : State) (e p : Nat) : State := s.setEng e (fun g => { g with dirty := setIns p g.dirty })

/-- L_max of an engine in domain `d` (R47). -/
def State.lMax (s : State) (d : RDom) : Nat := min 12288 (s.cD d)

/-- LEN of engine `e` lies in the range of R47 for its domain; a domain code of 0b11 is never valid. -/
def State.lenOk (s : State) (e : Nat) : Bool :=
  match s.engDom e with
  | none => false
  | some d => decide (1 ≤ s.get (F.teProgLenLen e)) && decide (s.get (F.teProgLenLen e) ≤ s.lMax d)

/-- The twin pair of engine `e` is in LOCKSTEP (R145). -/
def State.lockstep (s : State) (e : Nat) : Bool := s.get (F.twinStatusState (e / 2)) == 1

/-- Core `c`. -/
def State.core (s : State) (c : Nat) : Core := ng s.ig c Core.zero

/-- Core `c` changed by `g`. -/
def State.setCore (s : State) (c : Nat) (g : Core → Core) : State := { s with ig := ns s.ig c (g (s.core c)) }

/-- The cached bundle at the core's pc. -/
def Core.fetch (k : Core) : Option DWord :=
  (k.ic.find? (fun l => l.line == k.pc / 64)).map (fun l => (l.data[k.pc / 8 % 8]?).getD 0#64)

/-- The core waits for a line of the cache (R245). -/
def Core.missing (k : Core) : Bool := k.fin == 0 && k.stall == 0 && !k.iterEnd && !k.ferr && k.fetch.isNone

/-- Some exception pends. -/
def Core.anyPend (k : Core) : Bool := k.pDbg || k.pWdt || k.pIll || k.pOvf || k.pDbell

/-- An exception cause arises: in a cache miss the take point that the core stands at is past, unless another cause waits there,
and the next is the end of the bundle that is missed (R232). -/
def Core.event (k : Core) : Core := { k with take := k.take && (k.anyPend || !k.missing) }

/-- IGn_STATUS.STATE of core `c`. -/
def State.igState (s : State) (c : Nat) : Nat := s.get (F.igStatusState c)

/-- Base address of core `c`'s local memory (R240). -/
def lmBase (c : Nat) : Nat := 0x04000000 + 0x40000 * c

/-- Doorbell bits set at core `c` (R15, R231): a bit that was clear, with DBELL_IE, makes DBELL pending. It
is an edge: only its taking withdraws it (DESIGN CHOICE, log 144). -/
def State.dbellSet (s : State) (c v : Nat) : State :=
  let old := s.get (F.igDbellPend c)
  let new := old ||| v % 2 ^ 16
  let s1 := s.put (F.igDbellPend c) new
  if new != old && s.flag (F.igCtrlDbellIe c) then s1.setCore c (fun k => { k.event with pDbell := true }) else s1

/-! ## Events: snapshot sources, persistent counters, the fault log (R356, R450, R453, R454) -/

/-- Snapshot source `k` of Table 15-10 fires in this command. -/
def State.fire (s : State) (k : Nat) : State := { s with sys := { s.sys with trig := s.sys.trig ||| (1 <<< k) } }

/-- Address of persistent counter `c`. -/
def cntAddr (c : Nat) : Nat := 0x0707F000 + 8 * c

/-- A byte at `a` that reads `b` in the array, as the word writes `q` leave it in their order (R353). -/
def overlay (q : List MramOp) (a : Nat) (b : Byte) : Byte :=
  q.foldl (fun (x : Byte) e => if e.addr ≤ a ∧ a < e.addr + e.data.length then (e.data[a - e.addr]?).getD x else x) b

/-- A byte of the MRAM store as a read finds it: data in the queue of 8 words stand in front of the array (R353). -/
def State.mramByte (s : State) (a : Nat) : Byte := overlay (s.sm.wq.take 8) a (s.rb a)

/-- A byte of the MRAM store once every word write that has arrived stands in the array. -/
def State.mramLast (s : State) (a : Nat) : Byte := overlay s.sm.wq a (s.rb a)

/-- QUEUE and BUSY follow the queue (MRAMC_STATUS). -/
def State.mramShow (s : State) : State :=
  (s.put F.mramcStatusQueue (min 8 s.sm.wq.length)).put F.mramcStatusBusy (b2n (!s.sm.wq.isEmpty))

/-- Word writes arrive at the MRAM store; their response goes to `own` (R353). -/
def State.mramPush (s : State) (own : Option Master) (l : List (Nat × List Byte)) : State :=
  { s with sm := { s.sm with wq := s.sm.wq ++ l.map (fun (p : Nat × List Byte) => (⟨p.1, p.2, own⟩ : MramOp)) } }.mramShow

/-- A word write of master `m` waits for its response (R353). -/
def State.mramWaits (s : State) (m : Master) : Bool := s.sm.wq.any (fun e => e.own == some m)

/-- The value of persistent counter `c` with every increment that has arrived (R356, R372). -/
def State.cntVal (s : State) (c : Nat) : Nat := leNat ((List.range 8).map (fun i => s.mramLast (cntAddr c + i)))

/-- The word of persistent counter `c` holds an uncorrectable error that no write on its way replaces. -/
def State.cntUe (s : State) (c : Nat) : Bool :=
  s.sm.ue.contains (cntAddr c) && !s.sm.wq.any (fun e => e.addr == cntAddr c && e.data.length == 8)

/-- Counter `c`, which can be read, advances by 1, stopping at its largest value: one word write (R356). -/
def State.cntStep (s : State) (c : Nat) : State :=
  let v := s.cntVal c
  if v + 1 < 2 ^ 64 then
    s.mramPush none [(cntAddr c, wordBytes (BitVec.ofNat 32 (v + 1)) ++ wordBytes (BitVec.ofNat 32 ((v + 1) / 2 ^ 32)))]
  else s

/-- T_max: the highest of the four sensor readings, signed, in units of 0.125 °C (R447). -/
def State.tMax (s : State) : Int :=
  max (max (s.getS (F.thermTempTemp 0)) (s.getS (F.thermTempTemp 1)))
    (max (s.getS (F.thermTempTemp 2)) (s.getS (F.thermTempTemp 3)))

/-- Address of the log slot of the next entry (R453). -/
def State.flogSlot (s : State) : Nat := 0x07077000 + 32 * (s.get F.flogSeqSeq % 1024)

/-- Entries that the fault logger has buffered: those whose bytes 24 to 31 are not written (R453, R454). -/
def State.flogWaiting (s : State) : Nat :=
  (s.sm.wq.filter (fun e => decide (0x07077000 ≤ e.addr) && decide (e.addr < 0x0707F000) && e.addr % 32 == 24)).length

/-- The fault log takes an entry: five word writes, the first word last with MARK (R453, Table 15-12). It drops the entry when
its code was logged within 100 ms or 16 entries are buffered (R454). -/
def State.flog (s : State) (code : Nat) (info arg : Word) : State :=
  if s.sys.logged.any (fun p => p.1 == code && decide (s.sys.ms < p.2 + 100)) || decide (16 ≤ s.flogWaiting) then
    s.bump F.flogDropCount 1
  else
    let seq := s.get F.flogSeqSeq
    let a := s.flogSlot
    let w := fun (v : Nat) => wordBytes (BitVec.ofNat 32 v)
    let s1 := s.mramPush none [
      (a, w 0 ++ w 0),
      (a + 8, w (s.tstamp % 2 ^ 32) ++ w (s.tstamp / 2 ^ 32)),
      (a + 16, w info.toNat ++ w arg.toNat),
      (a + 24, w (tc 16 s.tMax) ++ w 0),
      (a, w (0xFA * 2 ^ 24 + code * 2 ^ 16 + s.get F.sysEpochEpoch) ++ w seq)]
    let s2 := s1.put F.flogSeqSeq ((seq + 1) % 2 ^ 32)
    { s2 with sys := { s2.sys with logged := (code, s.sys.ms) :: s.sys.logged.filter (fun p => p.1 != code) } }

/-- A read met a two-bit error in the MRAM word at `u`: MRAMC_ERRADDR, UE and a log entry (R357). -/
def State.ueMram (s : State) (u : Nat) : State :=
  ((s.wr R.mramcErraddr (BitVec.ofNat 32 u)).put F.mramcStatusUe 1).flog 0x0C 1#32 (BitVec.ofNat 32 u)

/-- Persistent counter `c` advances by 1 (R356). A counter whose word cannot be read stays as it is, and the error that the
read-modify-write meets is reported and counted, if counter 7 can be read (R357). -/
def State.cntInc (s : State) (c : Nat) : State :=
  if s.cntUe c then
    let s1 := s.ueMram (cntAddr c)
    if s1.cntUe 7 then s1 else s1.cntStep 7
  else s.cntStep c

/-! ## Conflict counts (R335) -/

/-- The master number of Table 12-1; the CAN listener and the event unit make no such access. -/
def masterNo (m : Master) : Option Nat :=
  match m with
  | .host h => some h.val
  | .dma _ => some 4
  | .boot => some 6
  | .core n => some (8 + n.val)
  | _ => none

/-- Master number `k` lost `n` cycles to other masters (R335). -/
def State.conflict (s : State) (k n : Nat) : State := s.bump (F.smemConfCount k) n

/-- The other member of engine `e`'s pair. -/
def partner (e : Nat) : Nat := if e % 2 = 0 then e + 1 else e - 1

end Sys2Proof.Machine
end

