-- ==== Sys2Proof/Machine/Perm.lean ====
section
/-! DEFINITION. Who may access what: the permission table of the hosts (R392 to R394) and the writer classes that the
chapters name. -/

namespace Sys2Proof.Machine

/-- The permission table is in force: PLOCK is set and the image holds a permissions section (R393, R394). -/
def State.permTable (s : State) : Bool := s.flag (F.hpStatusPlock 0) && s.boot.perms

/-- Window `w` is valid and covers address `a` (R392). -/
def State.permCovers (s : State) (w a : Nat) : Bool :=
  s.flag (F.permRightsValid w) && decide (s.get (F.permBaseBase w) ≤ a / 256) &&
    decide (a / 256 ≤ s.get (F.permLimitLimit w))

/-- Host `h` holds right `k` (0 read, 1 write, 2 commit) at address `a` (R392, R394). -/
def State.permits (s : State) (h : Nat) (k a : Nat) : Bool :=
  if s.permTable then
    (List.range 64).any (fun w => s.permCovers w a && (s.rd (R.permRights w)).toNat.testBit (3 * h + k))
  else h == 0 || (k == 0 && decide (0x08000000 ≤ a) && decide (a ≤ 0x08000FFF))

/-- The first shadow address of the object of mask bit `k` (Table 13-6). -/
def objFirst (k : Nat) : Nat :=
  if k < 8 then 0x06100000 + k * 0x10000
  else match k with
    | 8 => 0x08030000
    | 9 => 0x08040000
    | 10 => 0x08050000
    | _ => 0x08048000

/-- Host `h` holds commit right for every object that the mask names (R114). -/
def State.permCommit (s : State) (h mask : Nat) : Bool :=
  (List.range 12).all (fun k => !mask.testBit k || s.permits h 2 (objFirst k))

/-- A master as a writer of registers that "only host 0 and the boot sequencer" may write: `some true` is served,
`some false` is a host that gets DENIED, `none` is ignored (R137, R151, R184). -/
def host0Boot (m : Master) : Option Bool :=
  match m with
  | .host h => some (h.val == 0)
  | .boot => some true
  | _ => none

/-- As `host0Boot`, for words that the listener and the event inputs may write too (R58, R137). -/
def directWriter (m : Master) : Option Bool :=
  match m with
  | .host h => some (h.val == 0)
  | .boot => some true
  | .listener => some true
  | .events => some true
  | _ => none

/-- As `host0Boot`, for registers that only host 0 may write. -/
def host0Only (m : Master) : Option Bool :=
  match m with
  | .host h => some (h.val == 0)
  | _ => none

/-- A write guarded by a writer class: served, DENIED, or ignored. -/
def State.guard (s : State) (w : Option Bool) (f : State → State) : State :=
  match w with
  | some true => f s.ok
  | some false => s.denied
  | none => s.ok

/-- The requester number of a commit (MD_STATUS.SRC): hosts 0 to 3, boot sequencer 4; none for other masters (R113). -/
def requester (m : Master) : Option Nat :=
  match m with
  | .host h => some h.val
  | .boot => some 4
  | _ => none

/-- The place of a writer among writes of one live word or override word in one cycle: event inputs, vehicle listener, boot
sequencer, host 0 (R59, R142). Input or signal `i` stands `i` places on (R416, R418). -/
def writerPlace (m : Master) : Nat :=
  match m with
  | .events => 64
  | .listener => 128
  | .boot => 192
  | .host _ => 256
  | _ => 0

/-- The number of the RL latch of a master (R17): hosts, cores, one for the DMA engine; the boot sequencer has its own in
the model. -/
def latchNo (m : Master) : Nat :=
  match m with
  | .host h => h.val
  | .core n => 4 + n.val
  | .dma _ => 20
  | .boot => 21
  | .listener => 22
  | .events => 23

end Sys2Proof.Machine
end

