-- ==== Sys2Proof/Machine/Operands.lean ====
section
/-! DEFINITION. The operand forms of a tick-engine slot: fields, source and destination codes, coefficient and delay
addresses, the predicate, and which slots are illegal (Tables 03-1 to 03-10). -/

namespace Sys2Proof.Machine

/-- Bits [lo+n-1:lo] of a slot. -/
def slF (w : DWord) (lo n : Nat) : Nat := fieldOf w.toNat lo n

/-- PRED, bits [63:60]. -/
def slPred (w : DWord) : Nat := slF w 60 4
/-- CLASS, bits [59:58]. -/
def slClass (w : DWord) : Nat := slF w 58 2
/-- XOP of a format-X slot, bits [57:52]. -/
def slXop (w : DWord) : Nat := slF w 52 6
/-- DOP of a format-D slot, bits [57:56]. -/
def slDop (w : DWord) : Nat := slF w 56 2

/-- A SRC7 code that Table 03-2 allows. -/
def srcOk (c : Nat) : Bool := decide (c ≤ 0x30) || decide (0x40 ≤ c)

/-- A DST7 code that Table 03-2 allows. -/
def dstOk (c : Nat) : Bool := decide (c < 0x20) || c == 0x30 || decide (0x40 ≤ c)

/-- The transfer fields TOP, TACC, TSH, TDST of a format (Tables 03-3, 03-4). -/
structure Xfer where
  top : Nat
  acc : Nat
  sh : Nat
  dst : Nat
  deriving DecidableEq, Repr

/-- The transfer of a format-M slot. -/
def xferM (w : DWord) : Xfer := ⟨slF w 19 2, slF w 17 2, slF w 14 3, slF w 7 7⟩
/-- The transfer of a format-D slot. -/
def xferD (w : DWord) : Xfer := ⟨slF w 21 2, slF w 19 2, slF w 16 3, slF w 9 7⟩

/-- The transfer fields are legal: all 0 when TOP is 0b00 (R105). -/
def xferOk (x : Xfer) : Bool :=
  if x.top == 0 then x.acc == 0 && x.sh == 0 && x.dst == 0
  else x.top != 3 && x.sh != 4 && dstOk x.dst

/-- The predicate code is legal (Table 03-8). -/
def predOk (p : Nat) : Bool := p == 0 || decide (8 ≤ p)

/-- A format-M slot is legal (R89, R90, R105). -/
def legalM (w : DWord) : Bool :=
  let mopa := slF w 56 2; let aa := slF w 54 2; let xa := slF w 47 7
  let mopb := slF w 45 2; let ab := slF w 43 2; let xb := slF w 36 7
  let cmode := slF w 34 2; let ca := slF w 21 13
  (if mopa == 0 then aa == 0 && xa == 0 else srcOk xa) &&
  (if mopb == 0 then ab == 0 && xb == 0 else srcOk xb) &&
  (if mopa == 0 && mopb == 0 then cmode == 0 && ca == 0
   else if cmode == 3 then
     fieldOf ca 10 3 == 0 && (mopa != 0 || fieldOf ca 0 5 == 0) && (mopb != 0 || fieldOf ca 5 5 == 0)
   else true) &&
  xferOk (xferM w) && slF w 0 7 == 0

/-- A format-D slot at index `idx` is legal (R93, R100, R105). -/
def legalD (idx : Nat) (w : DWord) : Bool :=
  let dop := slDop w; let aen := slF w 55 1; let an := slF w 52 3
  let wacc := slF w 33 1; let dx := slF w 26 7; let dsh := slF w 23 3
  let x := xferD w
  idx % 16 != 15 && dop != 3 && (aen == 1 || an == 0) &&
  (if dop == 2 then
     (if wacc == 1 then fieldOf dx 2 5 == 0 && dsh != 4 else srcOk dx && dsh == 0)
   else wacc == 0 && dsh == 0 && dstOk dx && !(x.top != 0 && dx == x.dst && dx != 0x30)) &&
  xferOk x && slF w 0 9 == 0

/-- The operand-2 fields of a format-X slot are legal: IMM[31:7] is 0 and IMM[6:0] a source when IMMSEL is 0 (R95). -/
def op2Ok (w : DWord) : Bool := slF w 37 1 == 1 || (slF w 7 25 == 0 && srcOk (slF w 0 7))

/-- A format-X slot is legal: a listed XOP, legal codes, and every unused field 0 (Table 03-6, R95, R105). -/
def legalX (w : DWord) : Bool :=
  let op := slXop w; let xd := slF w 45 7; let xs := slF w 38 7; let aux := slF w 32 6; let imm := slF w 0 32
  let aux5 := slF w 32 5; let immsel := slF w 37 1
  if op == 0x00 then xd == 0 && xs == 0 && aux == 0 && imm == 0
  else if op == 0x01 then dstOk xd && xs == 0 && aux == 0
  else if op == 0x02 then dstOk xd && srcOk xs && aux == 0 && imm == 0
  else if op == 0x03 then dstOk xd && xs == 0 && aux == 0 && decide (imm < 2 ^ 15) && slF w 13 2 != 3
  else if op ≤ 0x0F then dstOk xd && srcOk xs && aux5 == 0 && op2Ok w
  else if op ≤ 0x12 then dstOk xd && srcOk xs && immsel == 0 && imm == 0
  else if op ≤ 0x14 then dstOk xd && srcOk xs && aux == 0 && imm == 0
  else if op == 0x15 then xd == 0 && srcOk xs && decide (slF w 34 3 < 6) && op2Ok w
  else if op == 0x16 then
    xd == 0 && xs == 0 && decide (aux < 4) && decide (imm < 64) && (slF w 4 2 != 3 || slF w 2 2 == 0)
  else if op == 0x17 then xd == 0 && xs == 0 && decide (aux < 4) && decide (imm < 2)
  else if op ≤ 0x1A then xd == 0 && srcOk xs && decide (aux < 8) && imm == 0
  else if op ≤ 0x1C then xd == 0 && srcOk xs && decide (aux < 4) && imm == 0
  else if op == 0x1D then xd == 0 && decide (xs < 0x20) && decide (aux < 16) && imm == 0
  else false

/-- Slot `idx` is legal: none of the conditions of Table 03-10 holds (R105). -/
def slotLegal (idx : Nat) (w : DWord) : Bool :=
  predOk (slPred w) &&
  (match slClass w with
   | 0 => legalM w
   | 1 => legalD idx w
   | 2 => legalX w
   | _ => false)

/-- The predicate holds on the flags (Table 03-8). -/
def predHolds (p : Nat) (f : BitVec 4) : Bool :=
  if p < 8 then true else if p < 12 then f.getLsbD (p - 8) else !f.getLsbD (p - 12)

/-- The value of a SRC7 code (Table 03-2). -/
def srcVal (g : Engine) (c : Nat) : Word :=
  if c < 0x20 then ng g.d c 0#32
  else if c < 0x30 then ng g.live (c - 0x20) 0#32
  else if c < 0x40 then 0#32
  else ng g.inp (c - 0x40) 0#32

/-- The engine with a DST7 code written (Table 03-2: 0x30 discards). -/
def dstPut (g : Engine) (c : Nat) (v : Word) : Engine :=
  if c < 0x20 then { g with d := ns g.d c v }
  else if c < 0x40 then g
  else { g with out := ns g.out (c - 0x40) v }

/-- AI of address register `i`. -/
def aInt (g : Engine) (i : Nat) : Nat := (ng g.a i 0#34).toNat / 2 ^ 16
/-- AF of address register `i`. -/
def aFrac (g : Engine) (i : Nat) : Nat := (ng g.a i 0#34).toNat % 2 ^ 16

/-- The coefficient address A' of R90 from CA and the mode. -/
def coefAddr (g : Engine) (mode ca : Nat) : Nat :=
  if mode == 1 then (ca + aInt g 6) % 8192 else if mode == 2 then (ca + aInt g 7) % 8192 else ca % 8192

/-- The value of a glide channel in its run `j` (R130). -/
def Glide.value (c : Glide) : Int :=
  if c.g = 0 then c.vNew
  else if c.j ≥ 2 ^ c.g then c.vNew
  else c.vOld + asr ((c.vNew - c.vOld) * c.j + (2 ^ (c.g - 1) : Nat)) c.g

/-- The glide that ramps coefficient word `a` of engine `e`. -/
def State.glideAt (s : State) (e a : Nat) : Option Glide := s.md.glides.find? (fun c => c.eng == e && c.addr == a)

/-- Coefficient word `a` of engine `e` as the running run reads it: the active bank, or its glide's value (R57, R133). -/
def State.coef (s : State) (e a : Nat) : Word :=
  match s.glideAt e a with
  | some c => wrap32 c.value
  | none => s.rw (cfBase e + 0x8000 + 4 * a)

/-- The logical delay address L of a format-D slot (R73). -/
def dlyAddr (g : Engine) (w : DWord) : Nat :=
  if slF w 55 1 == 1 then (slF w 34 18 + aInt g (slF w 52 3)) % 262144 else slF w 34 18

/-- The physical word of logical address `l` (R72). -/
def physOf (wp l : Nat) : Nat := (wp + 262144 - l % 262144) % 262144

/-- The slot that engine `e` executes next. -/
def State.nextSlot (s : State) (e : Nat) : DWord := s.rw64 (pmBase e + 8 * (s.eng e).slot)

/-- Operand 2 of a format-X slot (R95). -/
def op2Val (g : Engine) (w : DWord) : Word :=
  if slF w 37 1 == 1 then BitVec.ofNat 32 (slF w 0 32) else srcVal g (slF w 0 7)

end Sys2Proof.Machine
end

