-- ==== Sys2Proof/Machine/Flags.lean ====
section
/-! DEFINITION. The flag computations, accumulator bounds and output scaling of the tick engines (R67 to R71, R91, R96). -/

namespace Sys2Proof.Machine

/-- An accumulator value held at the bounds of R67, and whether it had to be. -/
def accSat (i : Int) : BitVec 72 × Bool := (BitVec.ofInt 72 (satTo 72 i).1, (satTo 72 i).2)

/-- The scaled move of R69 from an accumulator: `s` is the active S, `sh` the slot shift. -/
def scaleMove (acc : BitVec 72) (s sh : Int) : Word × Bool :=
  sat32 (rnd acc.toInt (30 - (s + sh)).toNat)

/-- A 3-bit slot shift in two's complement (Tables 03-3, 03-4). -/
def slotShift (v : Nat) : Int := sx 3 v

/-- A CMP condition (R96): the code, XS1 and operand 2. -/
def cmpCond (c : Nat) (x y : Word) : Bool :=
  match c with
  | 0 => x == y
  | 1 => x != y
  | 2 => decide (x.toInt < y.toInt)
  | 3 => decide (y.toInt ≤ x.toInt)
  | 4 => decide (x.toNat < y.toNat)
  | _ => decide (y.toNat ≤ x.toNat)

/-- The flags with flag `i` set to `b`. -/
def flagPut (f : BitVec 4) (i : Nat) (b : Bool) : BitVec 4 :=
  BitVec.ofNat 4 (putField f.toNat i 1 (b2n b))

/-- FOP's operation on flags (Table 03-6). -/
def fopVal (op : Nat) (a b : Bool) : Bool :=
  match op with
  | 0 => a && b
  | 1 => a || b
  | 2 => xor a b
  | _ => !a

/-! ALU results of format X (Table 03-6): first source `x`, operand 2 `y`. -/

def aluAdd (x y : Word) : Word := x + y
def aluSub (x y : Word) : Word := x - y
def aluRsb (x y : Word) : Word := y - x
def aluAdds (x y : Word) : Word := (sat32 (x.toInt + y.toInt)).1
def aluSubs (x y : Word) : Word := (sat32 (x.toInt - y.toInt)).1
def aluAnd (x y : Word) : Word := x &&& y
def aluOr (x y : Word) : Word := x ||| y
def aluXor (x y : Word) : Word := x ^^^ y
def aluMin (x y : Word) : Word := if x.toInt ≤ y.toInt then x else y
def aluMax (x y : Word) : Word := if x.toInt ≤ y.toInt then y else x
def aluMinu (x y : Word) : Word := if x.toNat ≤ y.toNat then x else y
def aluMaxu (x y : Word) : Word := if x.toNat ≤ y.toNat then y else x
/-- ASR, LSR, LSL by `n` in 0 to 31. -/
def aluAsr (x : Word) (n : Nat) : Word := x.sshiftRight n
def aluLsr (x : Word) (n : Nat) : Word := x >>> n
def aluLsl (x : Word) (n : Nat) : Word := x <<< n
/-- ABS and NEG: 0x8000_0000 gives 0x7FFF_FFFF. -/
def aluAbs (x : Word) : Word := (sat32 (if x.toInt < 0 then -x.toInt else x.toInt)).1
def aluNeg (x : Word) : Word := (sat32 (-x.toInt)).1

end Sys2Proof.Machine
end

