-- ==== Sys2Proof/Machine/TeIsa.lean ====
section
/-! DEFINITION. The tick-engine slots (chapter 03): what each operation does, and the commands that execute one slot. A
slot executes only when its engine has a run in progress, its index is below LEN, and it holds the operation that the
command names; else the command changes nothing. -/

namespace Sys2Proof.Machine

/-- Engine `e` can execute a slot now: an epoch runs, a run is in progress and slots remain (R45). -/
def State.slotReady (s : State) (e : Nat) : Bool :=
  s.runs && (s.eng e).active && decide ((s.eng e).slot < s.get (F.teProgLenLen e))

/-- The engine moves to its next slot (R64). -/
def State.slotDone (s : State) (e : Nat) : State := s.setEng e (fun g => { g with slot := g.slot + 1 })

/-- Engine `e`'s active S (R69, R71). -/
def State.teS (s : State) (e : Nat) : Int := sx 4 (fieldOf (s.rd (R.teScaleAct e)).toNat 0 4)

/-- A clipped move counts in TEn_SAT_CNT (R70). -/
def State.satCount (s : State) (e : Nat) (c : Bool) : State := if c then s.bump (F.teSatCntCount e) 1 else s

/-- The transfer of a slot: accumulator TACC as it stood at the slot's start, scaled, to TDST (R92). `g0` is the engine
at the start of the slot. The clear of TOP 0b10 is part of `accEnd`. -/
def State.transfer (s : State) (e : Nat) (g0 : Engine) (x : Xfer) : State :=
  if x.top == 0 then s
  else
    let r := scaleMove (ng g0.acc x.acc 0#72) (s.teS e) (slotShift x.sh)
    (s.setEng e (fun g => dstPut g x.dst r.1)).satCount e r.2

/-- Accumulator `k` at the end of a slot: base plus the products that name it, saturated once (R91). -/
def accEnd (g0 : Engine) (x : Xfer) (macs : List (Nat × Nat × Int)) (k : Nat) : BitVec 72 × Bool :=
  let named := macs.filter (fun m => m.2.1 == k)
  let base := if named.any (fun m => m.1 == 3) || (x.top == 2 && x.acc == k) then 0 else (ng g0.acc k 0#72).toInt
  accSat (named.foldl (fun t m => if m.1 == 2 then t - m.2.2 else t + m.2.2) base)

/-- The four accumulators at the end of a slot, with ACC_OVF set when one saturated (R67, R91). -/
def State.accStep (s : State) (e : Nat) (g0 : Engine) (x : Xfer) (macs : List (Nat × Nat × Int)) : State :=
  let r := fun k => accEnd g0 x macs k
  let s1 := s.setEng e (fun g => { g with
    acc := ns (ns (ns (ns g.acc 0 (r 0).1) 1 (r 1).1) 2 (r 2).1) 3 (r 3).1 })
  s1.setIf ((r 0).2 || (r 1).2 || (r 2).2 || (r 3).2) (F.teStatusAccOvf e)

/-- The multiply-accumulates of a format-M slot: operation, accumulator, product (R65, R90). -/
def State.macList (s : State) (e : Nat) (g : Engine) (w : DWord) : List (Nat × Nat × Int) :=
  let mopa := slF w 56 2; let mopb := slF w 45 2
  let cmode := slF w 34 2; let ca := slF w 21 13
  let ya := if cmode == 3 then ng g.d (fieldOf ca 0 5) 0#32 else s.coef e (coefAddr g cmode ca)
  let yb := if cmode == 3 then ng g.d (fieldOf ca 5 5) 0#32 else s.coef e ((coefAddr g cmode ca + 1) % 8192)
  (if mopa == 0 then [] else [(mopa, slF w 54 2, (srcVal g (slF w 47 7)).toInt * ya.toInt)]) ++
  (if mopb == 0 then [] else [(mopb, slF w 43 2, (srcVal g (slF w 36 7)).toInt * yb.toInt)])

/-- A format-M slot: up to two multiply-accumulates and one transfer (R89 to R92). -/
def State.slotM (s : State) (e : Nat) (w : DWord) : State :=
  let g := s.eng e
  (s.accStep e g (xferM w) (s.macList e g w)).transfer e g (xferM w)

/-- The word of the delay store that engine `e` reads: a mirror write that X made before run T_D and that is still in flight
is seen (R160). -/
def State.dlySeen (s : State) (e p : Nat) : Word :=
  match s.mig.ring.reverse.find? (fun r => r.dst == e && r.word == p && r.early) with
  | some r => r.val
  | none => s.dlyRd e p

/-- Mirroring from engine `e` is on: SWEEP, ARMED or HANDOVER of a migration or join with X = e (R155, R162, R164). -/
def State.mirrors (s : State) (e : Nat) : Bool :=
  (s.mig.kind == 1 || s.mig.kind == 2) && s.mig.x == e &&
    decide (2 ≤ s.get F.migStatusState ∧ s.get F.migStatusState ≤ 4)

/-- A delay-store write by engine `e`: it lands at the end of the slot and, under mirroring, enters the ring (R82, R155). A
mirror write to engine `e` itself that X made before run T_D has its place before this write (R160). -/
def State.dlyPut (s : State) (e p : Nat) (v : Word) : State :=
  let s0 := if s.mig.ring.any (fun r => r.dst == e && r.word == p && r.early) then
      (s.setEng e (fun g => { g with dirty := setIns p g.dirty })) |> fun t =>
        { t with mig := { t.mig with ring := t.mig.ring.filter (fun r => !(r.dst == e && r.word == p && r.early)) } }
    else s
  let s1 := s0.dlyWr e p v
  if s1.mirrors e then { s1 with mig := { s1.mig with ring := s1.mig.ring ++ [⟨s1.mig.y, p, v, false⟩] } } else s1

/-- The write pointer of engine `e`'s domain (R72). -/
def State.engWp (s : State) (e : Nat) : Nat :=
  match s.engDom e with
  | some d => s.wp d
  | none => 0

/-- Interpolation between two adjacent delay words (R75). -/
def interp (x0 x1 : Word) (f : Nat) : Word :=
  wrap32 (x0.toInt + asr ((x1.toInt - x0.toInt) * f + 0x8000) 16)

/-- The accumulator side of a format-D slot: only the clear of TOP 0b10 changes one (R97). -/
def State.slotDEnd (s : State) (e : Nat) (g : Engine) (w : DWord) : State :=
  (s.accStep e g (xferD w) []).transfer e g (xferD w)

/-- A delay read: the word at L to DX (R94). -/
def State.slotRead (s : State) (e : Nat) (w : DWord) : State :=
  let g := s.eng e
  let v := s.dlySeen e (physOf (s.engWp e) (dlyAddr g w))
  (s.setEng e (fun h => dstPut h (slF w 26 7) v)).slotDEnd e g w

/-- An interpolated read: y of R75 to DX (R94); with AEN = 0 the fraction is 0. -/
def State.slotInterp (s : State) (e : Nat) (w : DWord) : State :=
  let g := s.eng e
  let l := dlyAddr g w
  let f := if slF w 55 1 == 1 then aFrac g (slF w 52 3) else 0
  let v := interp (s.dlySeen e (physOf (s.engWp e) l)) (s.dlySeen e (physOf (s.engWp e) (l + 1))) f
  (s.setEng e (fun h => dstPut h (slF w 26 7) v)).slotDEnd e g w

/-- A delay write: a source word unchanged, or an accumulator by R69 (R94). -/
def State.slotWrite (s : State) (e : Nat) (w : DWord) : State :=
  let g := s.eng e
  let p := physOf (s.engWp e) (dlyAddr g w)
  if slF w 33 1 == 1 then
    let r := scaleMove (ng g.acc (slF w 26 2) 0#72) (s.teS e) (slotShift (slF w 23 3))
    ((s.dlyPut e p r.1).satCount e r.2).slotDEnd e g w
  else (s.dlyPut e p (srcVal g (slF w 26 7))).slotDEnd e g w

/-- A format-X operation whose result goes to XD. -/
def State.putX (s : State) (e : Nat) (w : DWord) (v : Word) : State := s.setEng e (fun g => dstPut g (slF w 45 7) v)

/-- First source of a format-X slot. -/
def xs1 (g : Engine) (w : DWord) : Word := srcVal g (slF w 38 7)
/-- AUX[4:0] of a format-X slot. -/
def auxLow (w : DWord) : Nat := slF w 32 5

/-- A two-operand ALU slot with result `f XS1 op2` (Table 03-6). -/
def State.xAlu (s : State) (e : Nat) (w : DWord) (f : Word → Word → Word) : State :=
  s.putX e w (f (xs1 (s.eng e) w) (op2Val (s.eng e) w))

/-- A one-operand ALU slot. -/
def State.xUn (s : State) (e : Nat) (w : DWord) (f : Word → Word) : State := s.putX e w (f (xs1 (s.eng e) w))

/-- NOP (R96). -/
def State.xNop (s : State) (_e : Nat) (_w : DWord) : State := s
/-- LDI: XD takes IMM. -/
def State.xLdi (s : State) (e : Nat) (w : DWord) : State := s.putX e w (BitVec.ofNat 32 (slF w 0 32))
/-- MOV: XD takes XS1. -/
def State.xMov (s : State) (e : Nat) (w : DWord) : State := s.xUn e w (fun x => x)
/-- LDC: XD takes coefficient word A', unchanged (R68, R90). -/
def State.xLdc (s : State) (e : Nat) (w : DWord) : State :=
  s.putX e w (s.coef e (coefAddr (s.eng e) (slF w 13 2) (slF w 0 13)))
/-- ASR, LSR, LSL by AUX[4:0]. -/
def State.xAsr (s : State) (e : Nat) (w : DWord) : State := s.xUn e w (fun x => aluAsr x (auxLow w))
def State.xLsr (s : State) (e : Nat) (w : DWord) : State := s.xUn e w (fun x => aluLsr x (auxLow w))
def State.xLsl (s : State) (e : Nat) (w : DWord) : State := s.xUn e w (fun x => aluLsl x (auxLow w))
/-- CMP: flag F(AUX[1:0]) takes condition AUX[4:2] of XS1 and operand 2. -/
def State.xCmp (s : State) (e : Nat) (w : DWord) : State :=
  s.setEng e (fun g => { g with f := flagPut g.f (slF w 32 2) (cmpCond (slF w 34 3) (xs1 g w) (op2Val g w)) })
/-- FOP: flag F(AUX[1:0]) takes Fa op Fb. -/
def State.xFop (s : State) (e : Nat) (w : DWord) : State :=
  s.setEng e (fun g => { g with
    f := flagPut g.f (slF w 32 2) (fopVal (slF w 4 2) (g.f.getLsbD (slF w 0 2)) (g.f.getLsbD (slF w 2 2))) })
/-- FSET: flag F(AUX[1:0]) takes IMM[0]. -/
def State.xFset (s : State) (e : Nat) (w : DWord) : State :=
  s.setEng e (fun g => { g with f := flagPut g.f (slF w 32 2) (slF w 0 1 == 1) })
/-- AMOV: XS1 as UQ18.14; AF[1:0] is 0 (R98). -/
def State.xAmov (s : State) (e : Nat) (w : DWord) : State :=
  s.setEng e (fun g => { g with a := ns g.a (slF w 32 3) (BitVec.ofNat 34 ((xs1 g w).toNat * 4)) })
/-- AINT: AI takes XS1[17:0], AF takes 0. -/
def State.xAint (s : State) (e : Nat) (w : DWord) : State :=
  s.setEng e (fun g => { g with a := ns g.a (slF w 32 3) (BitVec.ofNat 34 ((xs1 g w).toNat % 2 ^ 18 * 2 ^ 16)) })
/-- AADD: XS1 as signed Q18.14 is added; AI wraps modulo 2^18 and AF[1:0] does not change. -/
def State.xAadd (s : State) (e : Nat) (w : DWord) : State :=
  s.setEng e (fun g => { g with
    a := ns g.a (slF w 32 3) (BitVec.ofInt 34 (((ng g.a (slF w 32 3) 0#34).toNat : Int) + (xs1 g w).toInt * 4)) })
/-- ACCLD: XS1 sign-extended × 2^30 (R97). -/
def State.xAccld (s : State) (e : Nat) (w : DWord) : State :=
  s.setEng e (fun g => { g with acc := ns g.acc (slF w 32 2) (BitVec.ofInt 72 ((xs1 g w).toInt * 2 ^ 30)) })
/-- ACCADD: ACC + XS1 sign-extended × 2^30, saturated by R67. -/
def State.xAccadd (s : State) (e : Nat) (w : DWord) : State :=
  let r := accSat ((ng (s.eng e).acc (slF w 32 2) 0#72).toInt + (xs1 (s.eng e) w).toInt * 2 ^ 30)
  (s.setEng e (fun g => { g with acc := ns g.acc (slF w 32 2) r.1 })).setIf r.2 (F.teStatusAccOvf e)
/-- EMIT: queue template AUX[3:0] with argument XS1; the fifth of a run is dropped and counted (R83, R84). -/
def State.xEmit (s : State) (e : Nat) (w : DWord) : State :=
  if (s.eng e).emits.length < 4 then
    s.setEng e (fun g => { g with emits := g.emits ++ [(slF w 32 4, xs1 g w)] })
  else (s.put (F.teStatusEmitDrop e) 1).bump (F.teEmitCntDropped e) 1

/-- A slot of format X with operation code `op`. -/
def isX (op : Nat) (w : DWord) : Bool := slClass w == 2 && slXop w == op
/-- A slot of format D with access `op`. -/
def isD (op : Nat) (w : DWord) : Bool := slClass w == 1 && slDop w == op
/-- A slot of format M. -/
def isM (w : DWord) : Bool := slClass w == 0

/-- Execute the next slot of engine `e` when it is legal and of the kind asked for. A slot that its predicate suppresses
changes nothing but takes its cycle (R101, R102). -/
def State.runSlot (s : State) (e : Nat) (kind : DWord → Bool) (act : State → Nat → DWord → State) : State :=
  let w := s.nextSlot e
  if s.slotReady e && slotLegal (s.eng e).slot w && kind w then
    (if predHolds (slPred w) (s.eng e).f then act s e w else s).slotDone e
  else s

/-- Execute the next slot of engine `e` when it is illegal: a suppressed slot that sets ILLEGAL (R106). -/
def State.runIllegal (s : State) (e : Nat) : State :=
  if s.slotReady e && !slotLegal (s.eng e).slot (s.nextSlot e) then (s.put (F.teStatusIllegal e) 1).slotDone e else s

/-- What a legal slot of any kind does (Tables 03-1, 03-4, 03-6). -/
def State.slotAct (s : State) (e : Nat) (w : DWord) : State :=
  match slClass w with
  | 0 => s.slotM e w
  | 1 => match slDop w with
    | 0 => s.slotRead e w
    | 1 => s.slotInterp e w
    | _ => s.slotWrite e w
  | _ => match slXop w with
    | 0x00 => s.xNop e w
    | 0x01 => s.xLdi e w
    | 0x02 => s.xMov e w
    | 0x03 => s.xLdc e w
    | 0x04 => s.xAlu e w aluAdd
    | 0x05 => s.xAlu e w aluSub
    | 0x06 => s.xAlu e w aluRsb
    | 0x07 => s.xAlu e w aluAdds
    | 0x08 => s.xAlu e w aluSubs
    | 0x09 => s.xAlu e w aluAnd
    | 0x0A => s.xAlu e w aluOr
    | 0x0B => s.xAlu e w aluXor
    | 0x0C => s.xAlu e w aluMin
    | 0x0D => s.xAlu e w aluMax
    | 0x0E => s.xAlu e w aluMinu
    | 0x0F => s.xAlu e w aluMaxu
    | 0x10 => s.xAsr e w
    | 0x11 => s.xLsr e w
    | 0x12 => s.xLsl e w
    | 0x13 => s.xUn e w aluAbs
    | 0x14 => s.xUn e w aluNeg
    | 0x15 => s.xCmp e w
    | 0x16 => s.xFop e w
    | 0x17 => s.xFset e w
    | 0x18 => s.xAmov e w
    | 0x19 => s.xAint e w
    | 0x1A => s.xAadd e w
    | 0x1B => s.xAccld e w
    | 0x1C => s.xAccadd e w
    | _ => s.xEmit e w

/-- Execute the next slot of engine `e`, whatever it holds. -/
def State.runAnySlot (s : State) (e : Nat) : State :=
  if slotLegal (s.eng e).slot (s.nextSlot e) then s.runSlot e (fun _ => true) State.slotAct else s.runIllegal e

/-- Execute up to `n` slots of engine `e`. -/
def State.runSlots (s : State) (e : Nat) : Nat → State
  | 0 => s
  | n + 1 => if s.slotReady e then (s.runAnySlot e).runSlots e n else s

/-- Execute the slots that remain in engine `e`'s run (R45). -/
def State.finishRun (s : State) (e : Nat) : State := s.runSlots e (s.get (F.teProgLenLen e) - (s.eng e).slot)

abbrev Out := Host.Outcome State Fault Refusal

def execTeMacSlot (e : Fin 8) (s : State) : Out := .next (s.runSlot e isM State.slotM)
def execTeDelayRead (e : Fin 8) (s : State) : Out := .next (s.runSlot e (isD 0) State.slotRead)
def execTeInterpolatedRead (e : Fin 8) (s : State) : Out := .next (s.runSlot e (isD 1) State.slotInterp)
def execTeDelayWrite (e : Fin 8) (s : State) : Out := .next (s.runSlot e (isD 2) State.slotWrite)
def execTeIllegalSlot (e : Fin 8) (s : State) : Out := .next (s.runIllegal e)
def execTeNop (e : Fin 8) (s : State) : Out := .next (s.runSlot e (isX 0x00) State.xNop)
def execTeLdi (e : Fin 8) (s : State) : Out := .next (s.runSlot e (isX 0x01) State.xLdi)
def execTeMov (e : Fin 8) (s : State) : Out := .next (s.runSlot e (isX 0x02) State.xMov)
def execTeLdc (e : Fin 8) (s : State) : Out := .next (s.runSlot e (isX 0x03) State.xLdc)
def execTeAdd (e : Fin 8) (s : State) : Out := .next (s.runSlot e (isX 0x04) (fun s e w => s.xAlu e w aluAdd))
def execTeSub (e : Fin 8) (s : State) : Out := .next (s.runSlot e (isX 0x05) (fun s e w => s.xAlu e w aluSub))
def execTeRsb (e : Fin 8) (s : State) : Out := .next (s.runSlot e (isX 0x06) (fun s e w => s.xAlu e w aluRsb))
def execTeAdds (e : Fin 8) (s : State) : Out := .next (s.runSlot e (isX 0x07) (fun s e w => s.xAlu e w aluAdds))
def execTeSubs (e : Fin 8) (s : State) : Out := .next (s.runSlot e (isX 0x08) (fun s e w => s.xAlu e w aluSubs))
def execTeAnd (e : Fin 8) (s : State) : Out := .next (s.runSlot e (isX 0x09) (fun s e w => s.xAlu e w aluAnd))
def execTeOr (e : Fin 8) (s : State) : Out := .next (s.runSlot e (isX 0x0A) (fun s e w => s.xAlu e w aluOr))
def execTeXor (e : Fin 8) (s : State) : Out := .next (s.runSlot e (isX 0x0B) (fun s e w => s.xAlu e w aluXor))
def execTeMin (e : Fin 8) (s : State) : Out := .next (s.runSlot e (isX 0x0C) (fun s e w => s.xAlu e w aluMin))
def execTeMax (e : Fin 8) (s : State) : Out := .next (s.runSlot e (isX 0x0D) (fun s e w => s.xAlu e w aluMax))
def execTeMinu (e : Fin 8) (s : State) : Out := .next (s.runSlot e (isX 0x0E) (fun s e w => s.xAlu e w aluMinu))
def execTeMaxu (e : Fin 8) (s : State) : Out := .next (s.runSlot e (isX 0x0F) (fun s e w => s.xAlu e w aluMaxu))
def execTeAsr (e : Fin 8) (s : State) : Out := .next (s.runSlot e (isX 0x10) State.xAsr)
def execTeLsr (e : Fin 8) (s : State) : Out := .next (s.runSlot e (isX 0x11) State.xLsr)
def execTeLsl (e : Fin 8) (s : State) : Out := .next (s.runSlot e (isX 0x12) State.xLsl)
def execTeAbs (e : Fin 8) (s : State) : Out := .next (s.runSlot e (isX 0x13) (fun s e w => s.xUn e w aluAbs))
def execTeNeg (e : Fin 8) (s : State) : Out := .next (s.runSlot e (isX 0x14) (fun s e w => s.xUn e w aluNeg))
def execTeCmp (e : Fin 8) (s : State) : Out := .next (s.runSlot e (isX 0x15) State.xCmp)
def execTeFop (e : Fin 8) (s : State) : Out := .next (s.runSlot e (isX 0x16) State.xFop)
def execTeFset (e : Fin 8) (s : State) : Out := .next (s.runSlot e (isX 0x17) State.xFset)
def execTeAmov (e : Fin 8) (s : State) : Out := .next (s.runSlot e (isX 0x18) State.xAmov)
def execTeAint (e : Fin 8) (s : State) : Out := .next (s.runSlot e (isX 0x19) State.xAint)
def execTeAadd (e : Fin 8) (s : State) : Out := .next (s.runSlot e (isX 0x1A) State.xAadd)
def execTeAccld (e : Fin 8) (s : State) : Out := .next (s.runSlot e (isX 0x1B) State.xAccld)
def execTeAccadd (e : Fin 8) (s : State) : Out := .next (s.runSlot e (isX 0x1C) State.xAccadd)
def execTeEmit (e : Fin 8) (s : State) : Out := .next (s.runSlot e (isX 0x1D) State.xEmit)

end Sys2Proof.Machine
end

