-- ==== Sys2Proof/Machine/Use.lean ====
section
/-! DEFINITION. The tables of the fabric by copy, and the rate domains in use (R30, R171). -/

namespace Sys2Proof.Machine

/-- Code of a domain in a DOMAIN field. -/
def domCode (d : RDom) : Nat :=
  match d with
  | .a => 0
  | .b => 1
  | .c => 2

/-- The base addresses of the four tables that a check reads: routes, nodes, Umber sets, patches. -/
structure Tab where
  rt : Nat
  sum : Nat
  umb : Nat
  pat : Nat
  deriving DecidableEq, Repr

/-- The active tables. -/
def tabActive : Tab := ⟨0x08038000, 0x08044000, 0x08050800, 0x0804A000⟩

/-- The tables that will be active after a commit of `mask`: its shadow copies in place of the active ones. -/
def tabAfter (mask : Nat) : Tab :=
  ⟨if mask.testBit 8 then 0x08030000 else 0x08038000, if mask.testBit 9 then 0x08040000 else 0x08044000,
   if mask.testBit 10 then 0x08050000 else 0x08050800, if mask.testBit 11 then 0x08048000 else 0x0804A000⟩

/-- Word `w` of summing node `n` in a table. -/
def State.nodeW (s : State) (t : Tab) (n w : Nat) : Nat := (s.rd (t.sum + 64 * n + 4 * w)).toNat
/-- Word `w` of Umber set `u`. -/
def State.umbW (s : State) (t : Tab) (u w : Nat) : Nat := (s.rd (t.umb + 64 * u + 4 * w)).toNat
/-- Word `w` of route entry `i`. -/
def State.rtW (s : State) (t : Tab) (i w : Nat) : Nat := (s.rd (t.rt + 16 * i + 4 * w)).toNat
/-- Word `w` of patch `p`. -/
def State.patW (s : State) (t : Tab) (p w : Nat) : Nat := (s.rd (t.pat + 16 * p + 4 * w)).toNat

/-- The listed indices, rising, of a table whose entries of `size` bytes have bit 31 of word 0 set. -/
def State.listed (s : State) (base size n : Nat) : List Nat :=
  s.regs.filterMap (fun e =>
    if base ≤ e.1 ∧ e.1 < base + size * n ∧ (e.1 - base) % size = 0 ∧ e.2.getLsbD 31 then some ((e.1 - base) / size) else none)

/-- The enabled summing nodes, the enabled Umber units and the valid route entries of a table. -/
def State.nodesOn (s : State) (t : Tab) : List Nat := s.listed t.sum 64 256
def State.umbsOn (s : State) (t : Tab) : List Nat := s.listed t.umb 64 32
def State.routesOn (s : State) (t : Tab) : List Nat := s.listed t.rt 16 2048

/-- PDM channel `ch` is enabled: its own EN and its group's are 1 (R297). -/
def State.pdmEn (s : State) (ch : Nat) : Bool := s.flag (F.pdmChcfgEn ch) && s.flag (F.pdmClkcfgEn (ch / 8))

/-- PDM_CLKCFGk in force. -/
def State.pdmCfg (s : State) (k : Nat) : Word := (s.pdm.cfg.toList[k]?).getD 0xC0#32
/-- PDM_CHCFGc.EN in force. -/
def State.micOn (s : State) (ch : Nat) : Bool := ((s.pdm.ch.toList[ch]?).map (fun x => x.on)).getD false
/-- The domain that a PDM_CLKCFG word names (R295, R484). -/
def pdmDomOf (v : Word) : Option RDom :=
  match fieldOf v.toNat 28 2 with
  | 0 => some .a
  | 1 => some .b
  | _ => none

/-- Frame clock `c`'s state. -/
def State.fclk (s : State) (c : Nat) : FClk := ng s.vat.clk c ⟨0, 0, none, none, none⟩
/-- N of a frame clock (R265). -/
def State.frameLen (s : State) (c : Nat) : Nat := 32 * 2 ^ s.get (F.vatFclkLen c)

/-- The first tick at which the enable of a test generator, of an ASRC group, or of a PDM channel may bring its domain into use
(R171). -/
def State.tgNb (s : State) (g : Nat) : Nat := ((s.rt.tg.toList[g]?).map (fun x => x.nb)).getD 0
def State.asrcNb (s : State) (g : Nat) : Nat := ((s.asrc.toList[g]?).map (fun x => x.nb)).getD 0
def State.pdmNb (s : State) (c : Nat) : Nat := ((s.pdm.ch.toList[c]?).map (fun x => x.nb)).getD 0

/-- Something of R30 other than an engine or a bridge is assigned to domain `d`. With `enter`, what waits to bring the domain
into use counts when it may take effect at this edge; without it, whatever is assigned counts (R171). -/
def State.assignedOther (s : State) (t : Tab) (d : RDom) (enter : Bool) : Bool :=
  let c := domCode d
  let now := fun (nb : Nat) => !enter || decide (nb ≤ s.tickNo)
  (s.nodesOn t).any (fun n => fieldOf (s.nodeW t n 0) 28 2 == c) ||
  (s.umbsOn t).any (fun u => fieldOf (s.umbW t u 0) 26 2 == c) ||
  (List.range 8).any (fun g => s.flag (F.tgCfgEn g) && s.get (F.tgCfgDomain g) == c && now (s.tgNb g)) ||
  (List.range 8).any (fun g => s.flag (F.asrcCfgEn g) && s.get (F.asrcCfgDom g) == c && now (s.asrcNb g)) ||
  (List.range 24).any (fun ch => (s.pdmEn ch && pdmDomOf (s.rd (R.pdmClkcfg (ch / 8))) == some d && now (s.pdmNb ch)) ||
    (!enter && s.micOn ch && (s.pdmCfg (ch / 8)).getLsbD 31 && pdmDomOf (s.pdmCfg (ch / 8)) == some d)) ||
  (List.range 8).any (fun k => s.get (F.vatFclkDom k) == c && (s.flag (F.vatFclkRun k) ||
    (enter && s.flag (F.vatFclkEn k) && now (s.fclk k).startNb && s.dtick d % s.frameLen k == 0)))

/-- Something of R30 is assigned to domain `d` and in force, or waits in a domain in use. -/
def State.holdsUse (s : State) (t : Tab) (d : RDom) : Bool :=
  let c := domCode d
  (List.range 8).any (fun e => s.get (F.teCtrlDomain e) == c && s.teState e != teStopped) ||
  (List.range 16).any (fun b => (s.get (F.brCfgInDom b) == c || s.get (F.brCfgOutDom b) == c) && s.get (F.brStatusState b) != 0) ||
  s.assignedOther t d false

/-- Something that waits would bring domain `d` into use at this edge, or something already runs there (R171). -/
def State.entersUse (s : State) (t : Tab) (d : RDom) : Bool :=
  let c := domCode d
  (List.range 8).any (fun e => s.get (F.teCtrlDomain e) == c && s.teState e != teStopped &&
    (s.teState e != teStartPending || (decide ((s.eng e).startNb ≤ s.tickNo) && s.tePowered e && !s.flag (F.teStatusClrBusy e) &&
      s.lenOk e))) ||
  (List.range 16).any (fun b => (s.get (F.brCfgInDom b) == c || s.get (F.brCfgOutDom b) == c) &&
    s.get (F.brStatusState b) != 0 && (s.get (F.brStatusState b) != 1 || decide (ng s.dom.brNb b 0 ≤ s.tickNo))) ||
  (s.mig.kind == 3 && s.mig.armed && s.mig.t == s.tickNo && s.engDom s.mig.y == some d) ||
  s.assignedOther t d true

/-- M from the denominators of the domains in use (R30, Table 06-3). -/
def State.mOfUse (s : State) (ub uc : Bool) : Nat :=
  Nat.lcm (if ub then denOf (cfgKb s.domAct) else 1) (if uc then denOf (cfgKc s.domAct) else 1)

/-- The domains in use and M recomputed (R171): a domain stays in use while something holds it, and comes into use when what
waits for it may take effect. -/
def State.recomputeUse (s : State) (t : Tab) : State :=
  let use := fun (d : RDom) => (s.inUse d && s.holdsUse t d) || s.entersUse t d
  ((s.put F.domStatusUseB (b2n (use .b))).put F.domStatusUseC (b2n (use .c))).put F.domStatusM (s.mOfUse (use .b) (use .c))

/-- A domain whose last item has stopped leaves use; M keeps its value until the next rate-set boundary (R171). -/
def State.useSync (s : State) : State :=
  let s1 := if s.inUse .b && !s.holdsUse tabActive .b then s.put F.domStatusUseB 0 else s
  if s1.inUse .c && !s1.holdsUse tabActive .c then s1.put F.domStatusUseC 0 else s1


end Sys2Proof.Machine
end

