-- ==== Sys2Proof/Machine/Engine.lean ====
section
/-! DEFINITION. Starting, stopping and clearing tick engines, their direct words, program memory and delay stores
(R45 to R63, R72 to R86). -/

namespace Sys2Proof.Machine

/-- Engine `e` is named by the migration, join, late start or pair-start check in progress (R43, R154). -/
def State.migNames (s : State) (e : Nat) : Bool :=
  s.mig.kind != 0 && (s.mig.y == e || (s.mig.x == e && (s.mig.kind != 3 || s.mig.srcEn)))

/-- Engine `e` is Y, or a member of the pair whose start is checked (R154). -/
def State.migStartHeld (s : State) (e : Nat) : Bool :=
  s.mig.kind != 0 && (s.mig.y == e || (s.mig.kind == 4 && s.mig.x == e))

/-- STATE of engine `e` set. -/
def State.setTe (s : State) (e v : Nat) : State := s.put (F.teStatusState e) v

/-- The first tick at which a start requested now in domain `d` may take effect: the next one, the first past the
cutoff when the domain is not in use, any when no epoch runs (R50, R171). -/
def State.startAfter (s : State) (d : RDom) : Nat :=
  if !s.runs then 0 else if s.inUse d then s.tickNo + 1 else s.afterCutoff s.sys.cyc

/-- As `startAfter`, for an assignment to the domain that a field names; it takes effect at once in a domain in use (R171). -/
def State.assignAfter (s : State) (v : Nat) : Nat :=
  match domOf v with
  | some d => if s.inUse d then 0 else s.startAfter d
  | none => 0

/-- A start request: RUN written from 0 to 1 (R47, R50, R52, R154). -/
def State.startReq (s : State) (e : Nat) : State :=
  if !s.tePowered e || s.flag (F.teCtrlRun e) then s
  else if s.migStartHeld e then s.put (F.teStatusCfgIgn e) 1
  else if s.teState e == teStopPending then (s.put (F.teCtrlRun e) 1).setTe e teRunning
  else if s.lenOk e then
    let nb := match s.engDom e with
      | some d => s.startAfter d
      | none => 0
    ((s.put (F.teCtrlRun e) 1).setTe e teStartPending).setEng e (fun g => { g with startNb := nb })
  else s.put (F.teStatusLenErr e) 1

/-- A stop request: RUN written from 1 to 0 (R51, R52). -/
def State.stopReq (s : State) (e : Nat) : State :=
  if !s.tePowered e || !s.flag (F.teCtrlRun e) then s
  else if s.teState e == teStartPending then ((s.put (F.teCtrlRun e) 0).setTe e teStopped).useSync
  else if s.teState e == teRunning then (s.put (F.teCtrlRun e) 0).setTe e teStopPending
  else s.put (F.teCtrlRun e) 0

/-- The frozen commit applies at the edge the machine stands at (R118, R40). -/
def State.commitDue (s : State) : Option Commit :=
  match s.md.frz with
  | some c => if (if s.md.frzEpoch then s.sys.qt == 0 else s.tickNo == s.md.frzAt) && s.atEdge then some c else none
  | none => none

/-- OUTZERO and FLAGCLR of the copy of TEn_SCALE that is active from this edge onward (R56). -/
def State.scaleFrom (s : State) (e : Nat) : Nat :=
  let sh := match s.commitDue with
    | some c => c.mask.testBit e
    | none => false
  (s.rd (if sh then R.teScale e else R.teScaleAct e)).toNat

/-- Engine `e` starts its next run at slot 0 (R45): accumulators are 0, output words and flags as OUTZERO and FLAGCLR leave
them (R56), and nothing is queued. -/
def State.beginRun (s : State) (e : Nat) : State :=
  let k := s.scaleFrom e
  s.setEng e (fun g => { g with
    slot := 0, active := true, acc := Vector.replicate 4 0#72, emits := []
    out := if k.testBit 8 then Vector.replicate 64 0#32 else g.out
    f := if k.testBit 9 then 0#4 else g.f })

/-- The conditions of R50 hold for engine `e` at this edge. -/
def State.mayStart (s : State) (e : Nat) : Bool :=
  s.runs && !s.endsHere && s.teState e == teStartPending && s.tePowered e && !s.flag (F.teStatusClrBusy e) && s.lenOk e &&
    (match s.engDom e with
     | some d => s.inUse d
     | none => false) &&
    decide ((s.eng e).startNb ≤ s.tickNo)

/-- A pending engine starts its first run (R50). The pair of a pair start has then had its first run (R144). -/
def State.startNow (s : State) (e : Nat) : State :=
  let s1 := (s.setTe e teRunning).beginRun e
  { s1 with mig := { s1.mig with fresh := putField s1.mig.fresh (e / 2) 1 0, chimeReq := if s1.mig.fresh.testBit (e / 2) then putField s1.mig.chimeReq (e / 2) 1 0 else s1.mig.chimeReq } }

/-- Engine `e` stops: no run is in progress, the fabric reads its outputs as 0, and inspection shows the registers. -/
def State.stopNow (s : State) (e : Nat) : State :=
  ((s.put (F.teCtrlRun e) 0).setTe e teStopped).setEng e (fun g => { g with
    active := false, emits := [], cap := Vector.replicate 64 0#32, insD := g.d, insA := g.a })

/-- A clear of an engine's state, inputs, outputs, delay store and dirty map (R36, R53). -/
def State.clearEngine (s : State) (e : Nat) : State :=
  (s.memClear (dlyBase e) (dlyBase e + 0x100000)).setEng e (fun g => { Engine.zero with
    live := g.live, lpend := g.lpend, lnext := g.lnext, hold := g.hold, startNb := g.startNb })

/-- CLRSTATE written as 1 (R53): accepted while STOPPED, else ignored with CFG_IGN. -/
def State.clrReq (s : State) (e : Nat) : State :=
  if !s.tePowered e then s
  else if s.teState e == teStopped then (s.put (F.teStatusClrBusy e) 1).setEng e (fun g => { g with dirty := [] })
  else s.put (F.teStatusCfgIgn e) 1

/-- A write of LIVE_HOLD (R60): a set holds at once; a clear counts for the next boundary when it meets R58's deadline. -/
def State.holdWrite (s : State) (e : Nat) (on : Bool) : State :=
  if !s.tePowered e then s
  else
    let s1 := s.put (F.teCtrlLiveHold e) (b2n on)
    let inTime := match s.engDom e with
      | some d => decide (s.cycIn d s.sys.cyc ≤ s.cD d - 8)
      | none => true
    if on then s1.setEng e (fun g => { g with hold := true })
    else if inTime then s1.setEng e (fun g => { g with hold := false })
    else s1

/-- A write of DOMAIN (R54, R154, R482). -/
def State.domainWrite (s : State) (e v : Nat) : State :=
  if v == s.get (F.teCtrlDomain e) then s
  else if s.teState e == teStopped && !s.migNames e then s.put (F.teCtrlDomain e) v
  else s.put (F.teStatusCfgIgn e) 1

/-- A write of TEn_CTRL: DOMAIN, LIVE_HOLD, CLRSTATE and RUN each by their own rule (R54). -/
def State.teCtrlWrite (s : State) (e : Nat) (v : Word) : State :=
  if !s.tePowered e then s
  else
    let s1 := s.domainWrite e (fieldOf v.toNat 4 2)
    let s2 := if s1.get (F.teCtrlLiveHold e) == fieldOf v.toNat 12 1 then s1 else s1.holdWrite e (v.getLsbD 12)
    let s3 := if v.getLsbD 8 then s2.clrReq e else s2
    if v.getLsbD 0 then s3.startReq e else s3.stopReq e

/-- A write of TEn_PROG_LEN (R54, R154). -/
def State.progLenWrite (s : State) (e : Nat) (v : Word) : State :=
  let len := fieldOf v.toNat 0 14
  if !s.tePowered e || len == s.get (F.teProgLenLen e) then s
  else if s.teState e == teStopped && !s.migNames e then s.put (F.teProgLenLen e) len
  else s.put (F.teStatusCfgIgn e) 1

/-- The engines that a live-word write to `e` reaches: the pair in lockstep (R145); X and Y of a move or join for a write to
X, and for a write to Y from E_T on (R153, R162). Before E_T Y's live words are X's, and a write to Y reaches nothing. -/
def State.liveTargets (s : State) (e : Nat) : List Nat :=
  let pair := if s.lockstep e then [e, partner e] else [e]
  if !(s.mig.kind == 1 || s.mig.kind == 2) then pair
  else if s.mig.x == e then pair ++ [s.mig.y]
  else if s.mig.y == e then (if s.get F.migStatusState == 4 then [e, s.mig.x] else [])
  else pair

/-- A live-word write by the writer at place `k` that reaches engine `e` (R58, R59): pending for the boundary that its
deadline gives. -/
def State.livePut (s : State) (k e w : Nat) (v : Word) : State :=
  if !s.tePowered e || !s.lastWriter (R.teLive e w) k then s
  else
    let inTime := match s.engDom e with
      | some d => decide (s.cycIn d s.sys.cyc ≤ s.cD d - 8)
      | none => true
    (s.noteWriter (R.teLive e w) k).setEng e (fun g =>
      if inTime then { g with lpend := ns g.lpend w (some v) } else { g with lnext := ns g.lnext w (some v) })

/-- A live-word write by the writer at place `k`, applied to every engine it reaches. -/
def State.liveWrite (s : State) (k e w : Nat) (v : Word) : State :=
  (s.liveTargets e).foldl (fun t x => t.livePut k x w v) s

/-- The engine whose LIVE_HOLD governs engine `e`: the primary of a pair in lockstep, X for Y (R145, R153). -/
def State.holdOf (s : State) (e : Nat) : Nat :=
  if s.lockstep e then e / 2 * 2
  else if (s.mig.kind == 1 || s.mig.kind == 2) && s.mig.y == e then s.mig.x
  else e

/-- Live-word load at a boundary (R58, R60). -/
def State.liveLoad (s : State) (e : Nat) : State :=
  let held := (s.eng (s.holdOf e)).hold
  let reg := s.flag (F.teCtrlLiveHold e)
  s.setEng e (fun g =>
    if held then { g with
      lpend := Vector.ofFn (fun i => (g.lnext[i]).orElse (fun _ => g.lpend[i]))
      lnext := Vector.replicate 16 none
      hold := if s.holdOf e == e then reg else g.hold }
    else { g with
      live := Vector.ofFn (fun i => (g.lpend[i]).getD g.live[i])
      lpend := g.lnext
      lnext := Vector.replicate 16 none
      hold := reg })

/-- A word write to program memory (R54): ignored while the cluster is not powered; ignored with PMEM_IGN while the engine
is not STOPPED or is named by a check (R154). Offsets from 0x1_8000 hold nothing (R44). -/
def State.pmemWrite (s : State) (e off : Nat) (v : Word) : State :=
  if !s.tePowered e || decide (0x18000 ≤ off) then s
  else if s.teState e == teStopped && !s.migNames e then s.ww (pmBase e + off / 4 * 4) v
  else s.put (F.teStatusPmemIgn e) 1

/-- Mirroring to engine `e` is on (R155). -/
def State.mirrorTarget (s : State) (e : Nat) : Bool := s.mig.y == e && s.mirrors s.mig.x

/-- A fabric write of one word to a delay store (R79, R80, R155): it reaches Y's store behind the mirror writes of that word that
are in flight. -/
def State.dlyFabWrite (s : State) (e p : Nat) (v : Word) : State :=
  if !s.tePowered e || s.mirrorTarget e then s
  else
    let s1 := s.dlyWr e p v
    if !s1.mirrors e then s1
    else if s1.mig.ring.any (fun r => r.dst == s1.mig.y && r.word == p) then
      { s1 with mig := { s1.mig with ring := s1.mig.ring ++ [⟨s1.mig.y, p, v, false⟩] } }
    else (s1.dlyWr s1.mig.y p v).dlyDirty s1.mig.y p

/-- A fabric read of one word of a delay store (R80). -/
def State.dlyFabRead (s : State) (e p : Nat) : Word := if s.tePowered e then s.dlyRd e p else 0#32

/-- The oldest mirror write lands in its target and sets the dirty bit (R81, R82). -/
def State.mirrorLand (s : State) : State :=
  match s.mig.ring with
  | [] => s
  | r :: l => ({ s with mig := { s.mig with ring := l } } |>.dlyWr r.dst r.word r.val).dlyDirty r.dst r.word

def execEngineStartRequest (_m : Master) (e : Fin 8) (cyc : Nat) (s : State) : Out :=
  .next ((s.atCyc cyc).ok.startReq e)

def execEngineStart (e : Fin 8) (s : State) : Out :=
  .next (if s.atCommon && s.mayStart e then s.startNow e else s)

def execEngineStopRequest (_m : Master) (e : Fin 8) (cyc : Nat) (s : State) : Out :=
  .next ((s.atCyc cyc).ok.stopReq e)

def execLiveHold (_m : Master) (e : Fin 8) (on : Bool) (cyc : Nat) (s : State) : Out :=
  .next ((s.atCyc cyc).ok.holdWrite e on)

def execClrstate (_m : Master) (e : Fin 8) (s : State) : Out := .next (s.ok.clrReq e)

/-- The end of the clear of engine `e` (R53): it was a condition of a start that waits, so a domain that the start would bring
into use counts from here (R171). -/
def State.clearDone (s : State) (e : Nat) : State :=
  let s1 := (s.clearEngine e).put (F.teStatusClrBusy e) 0
  match s1.engDom e with
  | some d => if s1.teState e == teStartPending && !s1.inUse d then s1.setEng e (fun g => { g with startNb := s1.startAfter d }) else s1
  | none => s1

def execEngineClearDone (e : Fin 8) (s : State) : Out :=
  .next (if s.flag (F.teStatusClrBusy e) then s.clearDone e else s)

def execProgramMemoryWrite (_m : Master) (e : Fin 8) (off : Nat) (v : Word) (s : State) : Out :=
  .next (s.ok.pmemWrite e off v)

def execLiveWordWrite (m : Master) (e : Fin 8) (w : Fin 16) (v : Word) (cyc : Nat) (s : State) : Out :=
  .next ((s.atCyc cyc).guard (directWriter m) (fun t => t.liveWrite (writerPlace m) e w v))

def execMirrorRingWrite (s : State) : Out := .next s.mirrorLand

end Sys2Proof.Machine
end

