-- ==== Sys2Proof/Machine/Mordant.lean ====
section
/-! DEFINITION. Mordant's shadow side: committable objects, commit requests, held writes, the reconcile, glides and the
override words (R109 to R142). The cutoff and the swap, which need the table check, are in Commit.lean. -/

namespace Sys2Proof.Machine

/-- The mask bit of the object whose shadow word stands at `a` (Table 04-1, R187, R193, R200, R205). -/
def objOf (a : Nat) : Option Nat :=
  if 0x06100000 ≤ a ∧ a < 0x06180000 then (if a % 0x10000 < 0x8000 then some ((a - 0x06100000) / 0x10000) else none)
  else if 0x08010000 ≤ a ∧ a < 0x08018000 then (if a % 0x1000 == 0xC then some ((a - 0x08010000) / 0x1000) else none)
  else if 0x08020400 ≤ a ∧ a < 0x08020C00 then some ((a - 0x08020400) / 0x100)
  else if 0x08030000 ≤ a ∧ a < 0x08038000 then some 8
  else if 0x08040000 ≤ a ∧ a < 0x08044000 then some 9
  else if 0x08050000 ≤ a ∧ a < 0x08050800 then some 10
  else if 0x08048000 ≤ a ∧ a < 0x0804A000 then some 11
  else none

/-- Address `a` lies in an active view of words (R136, R187, R193, R200, R205). -/
def isActiveView (a : Nat) : Bool :=
  (decide (0x06100000 ≤ a ∧ a < 0x06180000) && decide (0x8000 ≤ a % 0x10000)) ||
  decide (0x08038000 ≤ a ∧ a < 0x08040000) || decide (0x08044000 ≤ a ∧ a < 0x08048000) ||
  decide (0x0804A000 ≤ a ∧ a < 0x0804C000) || decide (0x08050800 ≤ a ∧ a < 0x08051000)

/-- The address of the active copy of the shadow word at `a`, where it has one of its own. -/
def activeOf (a : Nat) : Nat :=
  if a < 0x08000000 then a + 0x8000
  else if a < 0x08030000 then a + 4
  else if a < 0x08040000 then a + 0x8000
  else if a < 0x08048000 then a + 0x4000
  else if a < 0x08050000 then a + 0x2000
  else a + 0x800

/-- The number of a glide configuration word at `a`: 64 n + m. -/
def gcfgNo (a : Nat) : Nat := (a - 0x08020400) / 4
/-- Address `a` holds MD_GLIDE_CFGn_m. -/
def isGcfg (a : Nat) : Bool := decide (0x08020400 ≤ a ∧ a < 0x08020C00)

/-- A shadow word, stored. -/
def State.shGet (s : State) (a : Nat) : Word := if a < 0x08000000 then s.rw a else s.rd a
/-- A shadow word set; reserved bits of TEn_SCALE and MD_GLIDE_CFGn_m are not stored (R11). -/
def State.shPut (s : State) (a : Nat) (v : Word) : State :=
  if a < 0x08000000 then s.ww a v
  else match regDesc a with
    | some d => s.wr a (v &&& BitVec.ofNat 32 d.rw)
    | none => s
/-- The active copy of the shadow word at `a`. -/
def State.actGet (s : State) (a : Nat) : Word :=
  if isGcfg a then spGet (fun _ => 0#32) s.md.gcfg (gcfgNo a)
  else if a < 0x08000000 then s.rw (activeOf a) else s.rd (activeOf a)

/-- The objects whose reconcile is in progress, as a commit mask. -/
def State.reconMask (s : State) : Nat := s.md.recons.foldl (fun k m => k ||| m) 0

/-- Object `k` is frozen: named by the frozen commit, or its commit's reconcile has not ended (R119). -/
def State.frozen (s : State) (k : Nat) : Bool :=
  (match s.md.frz with
   | some c => c.mask.testBit k
   | none => false) || s.reconMask.testBit k

/-- The words that a shadow write to `a` reaches: both members of a pair in lockstep (R145). -/
def State.shTargets (s : State) (a : Nat) : List Nat :=
  match objOf a with
  | some k =>
    if k < 8 && s.lockstep k then
      let stride := if a < 0x08000000 then 0x10000 else if a < 0x08020000 then 0x1000 else 0x100
      [a, if k % 2 = 0 then a + stride else a - stride]
    else [a]
  | none => []

/-- Engine words that the cluster's power state hides: coefficient memory (R112) and the TEn registers. -/
def State.shHidden (s : State) (a : Nat) : Bool :=
  match objOf a with
  | some k => k < 8 && !isGcfg a && !s.tePowered k
  | none => true

/-- A shadow write lands and sets its dirty bits (R111). -/
def State.shLand (s : State) (a : Nat) (v : Word) : State :=
  (s.shTargets a).foldl (fun t x =>
    if t.shHidden x then t
    else let u := t.shPut x v; { u with md := { u.md with dirty := setIns x u.md.dirty } }) s

/-- Held writes of the internal queue: those of Indigo cores, DMA and the boot sequencer (R126). -/
def Held.internal (h : Held) : Bool :=
  match h.m with
  | .host _ => false
  | _ => true

/-- A write of a committable shadow word (R111, R112, R126, R127): lands, or is held while its object is frozen. One
to the member of a pair in lockstep that is not frozen lands in both (DESIGN CHOICE, log 137). -/
def State.shWrite (s : State) (m : Master) (a : Nat) (v : Word) : State :=
  match objOf a with
  | none => s.ok
  | some k =>
    if s.shHidden a then s.ok
    else if s.frozen k then
      let h : Held := ⟨m, a, v⟩
      let full := h.internal && decide (64 ≤ (s.md.held.filter Held.internal).length)
      let s1 := { s with md := { s.md with held := s.md.held ++ [h] }, resp := .held }
      s1.setIf full F.mdErrIqStall
    else s.ok.shLand a v

/-- A word of a route entry as it is read: reserved fields read 0 (R11). What was written there stays, since R188 names an entry
with a reserved field that is not 0. -/
def routeRead (a : Nat) (v : Word) : Word :=
  if 0x08030000 ≤ a ∧ a < 0x08040000 then
    match a % 16 with
    | 0 => v &&& 0x8FFF0FFF#32
    | 8 => v &&& 0xFFFFF13F#32
    | _ => v
  else v

/-- A read of a shadow word: while its reconcile runs, a dirty word reads as the new active copy (R128). -/
def State.shRead (s : State) (a : Nat) : Word :=
  match objOf a with
  | none => 0#32
  | some k =>
    if s.shHidden a then 0#32
    else if s.reconMask.testBit k && s.md.dirty.contains a then routeRead a (s.actGet a)
    else routeRead a (s.shGet a)

/-- A read of a word of an active view: coefficient words under a glide read the run's value (R133, R136). -/
def State.actRead (s : State) (a : Nat) : Word :=
  if a < 0x08000000 then
    let e := (a - 0x06100000) / 0x10000
    if s.tePowered e then s.coef e (a % 0x8000 / 4) else 0#32
  else routeRead a (s.rd a)

/-- The mask extended to both engines of a pair in lockstep and of a migration in progress (R117). -/
def State.extendMask (s : State) (mask : Nat) : Nat :=
  let pairs := (List.range 4).foldl (fun k p =>
    if s.get (F.twinStatusState p) == 1 && (k.testBit (2 * p) || k.testBit (2 * p + 1)) then k ||| (3 <<< (2 * p)) else k) mask
  if (s.mig.kind == 1 || s.mig.kind == 2) && (pairs.testBit s.mig.x || pairs.testBit s.mig.y) then
    pairs ||| (1 <<< s.mig.x) ||| (1 <<< s.mig.y)
  else pairs

/-- The mask names an engine whose cluster is not powered (R114). -/
def State.unpoweredIn (s : State) (mask : Nat) : Bool := (List.range 8).any (fun e => mask.testBit e && !s.tePowered e)

/-- Merge an accepted request into the accumulating commit (R115, R116). -/
def mergeReq (c : Option Commit) (q seq mask : Nat) : Commit :=
  match c with
  | none => ⟨mask, seq, q, [(q, seq)]⟩
  | some c => ⟨c.mask ||| mask, seq, q, spPut q seq c.reqs⟩

/-- An accepted commit request by requester `q` (R114 to R117). -/
def State.acceptReq (s : State) (q seq mask : Nat) : State :=
  let c := mergeReq s.md.acc q seq (s.extendMask mask)
  let s1 := { s with md := { s.md with acc := some c } }
  (((s1.put (F.mdHostAccSeq q) seq).put F.mdPendSeq seq).put F.mdPendMask c.mask).put F.mdStatusPending 1

/-- A commit request (R113, R114): a write of MD_REQ or the link's COMMIT. -/
def State.commitReq (s : State) (m : Master) (seq mask : Nat) : State :=
  match requester m with
  | none => s.ok
  | some q =>
    let mk := mask % 2 ^ 12
    if q < 4 && !s.permCommit q mk then s.denied
    else if s.unpoweredIn mk then { s.put F.mdErrUnpowered 1 with resp := .refused }
    else s.ok.acceptReq q (seq % 2 ^ 16) mk

/-- Copy the dirty words of the objects of `mask` from the active copies and clear their bits (R125). -/
def State.reconcileCopy (s : State) (mask : Nat) : State :=
  let mine := s.md.dirty.filter (fun a => match objOf a with
    | some k => mask.testBit k
    | none => false)
  let rest := s.md.dirty.filter (fun a => match objOf a with
    | some k => !mask.testBit k
    | none => true)
  let s1 := mine.foldl (fun t a => t.shPut a (t.actGet a)) s
  { s1 with md := { s1.md with dirty := rest } }

/-- The lowest object of a mask, 15 when it names none (MD_RECON.OBJ). -/
def firstObj (mask : Nat) : Nat := ((List.range 12).find? (fun k => mask.testBit k)).getD 15

/-- The dirty words that a reconcile of `mask` copies (MD_RECON.REMAIN). -/
def State.dirtyIn (s : State) (mask : Nat) : Nat :=
  (s.md.dirty.filter (fun a => match objOf a with
    | some k => mask.testBit k
    | none => false)).length

/-- MD_STATUS.RECON and MD_RECON show the oldest reconcile in progress. -/
def State.reconShow (s : State) : State :=
  match s.md.recons with
  | [] => ((s.put F.mdStatusRecon 0).put F.mdReconObj 15).put F.mdReconRemain 0
  | m :: _ => ((s.put F.mdStatusRecon 1).put F.mdReconObj (firstObj m)).put F.mdReconRemain (s.dirtyIn m)

/-- The held writes whose objects are no longer frozen land in order of arrival (R127). -/
def State.landHeld (s : State) : State :=
  let free := fun (h : Held) => match objOf h.addr with
    | some k => !s.frozen k
    | none => true
  let go := s.md.held.filter free
  let s1 := { s with md := { s.md with held := s.md.held.filter (fun h => !free h) } }
  go.foldl (fun t h => t.shLand h.addr h.val) s1

/-- The oldest whole reconcile ends: the objects of its commit are released and held writes land (R119, R125, R127). -/
def State.reconEnd (s : State) : State :=
  match s.md.recons with
  | [] => s
  | m :: l =>
    let s1 := s.reconcileCopy m
    { s1 with md := { s1.md with recons := l } }.reconShow.landHeld

/-- The glides that a commit starts on engine `e` (R130 to R132): `old` gives the value each word held in the last run,
`cfg m` the new active configuration of channel m. Answers the channels that ramp, whether two enabled channels name one
word, and whether a G is above 12. -/
def glideStarts (e : Nat) (cfg : Nat → Word) (old new : Nat → Word) : List Glide × Bool × Bool :=
  (List.range 64).foldl (fun (st : List Nat × List Glide × Bool × Bool) m =>
    let c := (cfg m).toNat
    if !c.testBit 31 then st
    else
      let a := fieldOf c 0 13
      let g := fieldOf c 16 4
      let big := st.2.2.2 || decide (12 < g)
      if st.1.contains a then (st.1, st.2.1, true, big)
      else
        let gl : Glide := ⟨e, m, a, (old a).toInt, (new a).toInt, min g 12, 1⟩
        let idle := gl.g == 0 || gl.vOld == gl.vNew
        (a :: st.1, if idle then st.2.1 else st.2.1 ++ [gl], st.2.2.1, big))
    ([], [], false, false) |>.2

/-- The swap of engine `e`'s set at E_B: coefficient bank, TEn_SCALE, glide configuration, and the start of its glides
(R120, R130 to R132). -/
def State.swapEngine (s : State) (e : Nat) : State :=
  let old := fun a => s.coef e a
  let s1 := s.memSwap (cfBase e) (cfBase e + 0x8000) 0x8000
  let sc := s1.rd (R.teScale e)
  let s2 := (s1.wr (R.teScale e) (s1.rd (R.teScaleAct e))).wr (R.teScaleAct e) sc
  let s3 : State := (List.range 64).foldl (fun (t : State) m =>
    let a := R.mdGlideCfg e m
    let new := t.rd a
    let t1 := t.wr a (spGet (fun _ => 0#32) t.md.gcfg (64 * e + m))
    { t1 with md := { t1.md with gcfg := spSet (fun _ => 0#32) t1.md.gcfg (64 * e + m) new } }) s2
  let r := glideStarts e (fun m => spGet (fun _ => 0#32) s3.md.gcfg (64 * e + m)) old
    (fun a => s3.rw (cfBase e + 0x8000 + 4 * a))
  let s4 := { s3 with md := { s3.md with glides := s3.md.glides.filter (fun (c : Glide) => c.eng != e) ++ r.1 } }
  (s4.setIf r.2.1 F.mdErrGlideDup).setIf r.2.2 F.mdErrGlideG

/-- The glide step of engine `e` at a boundary: each channel takes its value for the next run; a channel past run N is
idle (R130). -/
def State.glideStep (s : State) (e : Nat) : State :=
  { s with md := { s.md with glides := s.md.glides.filterMap (fun c =>
      if c.eng != e then some c
      else if c.j + 1 > 2 ^ c.g then none else some { c with j := c.j + 1 }) } }

/-- The busy bits of engine `e`'s channels: ramping in runs 1 to N (R130). -/
def State.glideBusy (s : State) (e : Nat) : Nat :=
  s.md.glides.foldl (fun (b : Nat) (c : Glide) => if c.eng == e then b ||| (1 <<< c.ch) else b) 0

/-- The ENG_CLK cycles from a write of an override register to the first that it governs: 8 FAB_CLK cycles (R139). -/
def ovrDelay : Nat := 12

/-- An override register takes a value that governs the samples delivered from 8 FAB_CLK cycles on (R138, R139). -/
def State.ovrSet (s : State) (a : Nat) (v : Word) : State :=
  let s1 : State := if s.runs then { s with md := { s.md with ovr := ⟨a, s.rd a, s.engCyc + ovrDelay⟩ :: s.md.ovr } } else s
  s1.wr a v

/-- The override writes that every later sample stands behind are done with: those of more than the longest tick ago. -/
def State.ovrTrim (s : State) : State :=
  { s with md := { s.md with ovr := s.md.ovr.filter (fun r => decide (s.engCyc < r.at_ + 6 * s.cA)) } }

/-- An override register as it governs a sample delivered in ENG_CLK cycle `x` of the epoch (R139). -/
def State.ovrAt (s : State) (x a : Nat) : Word :=
  s.md.ovr.foldl (fun (v : Word) r => if r.addr == a && decide (x < r.at_) then r.old else v) (s.rd a)

/-- A field of an override register as it governs a sample delivered in cycle `x`. -/
def State.ovrField (s : State) (x : Nat) (f : Fld) : Nat := fieldOf (s.ovrAt x f.addr).toNat f.lo f.w

/-- OVR_WORDm takes the write of the writer at place `k`, unless a later place has written it in this cycle (R142). -/
def State.ovrPut (s : State) (k i : Nat) (v : Word) : State :=
  if s.lastWriter (R.ovrWord i) k then (s.noteWriter (R.ovrWord i) k).ovrSet (R.ovrWord i) (v &&& 0xC0FFFFFF#32) else s

/-- A write of OVR_WORDm (R137). -/
def State.ovrWordWrite (s : State) (m : Master) (i : Nat) (v : Word) : State :=
  s.guard (directWriter m) (fun t => t.ovrPut (writerPlace m) i v)

/-- A write of OVR_SINKm (R138): the old sink is released and the new one bound. -/
def State.ovrSinkWrite (s : State) (m : Master) (i : Nat) (v : Word) : State :=
  s.guard (host0Boot m) (fun t => t.ovrSet (R.ovrSink i) (v &&& 0x801F0FFF#32))

/-- A write to an active view is ignored and sets ACTIVE_WR (R136). -/
def State.actWrite (s : State) : State := s.ok.put F.mdErrActiveWr 1

def execCommitRequest (m : Master) (seq mask cyc : Nat) (s : State) : Out := .next ((s.atCyc cyc).commitReq m seq mask)

def execReconcileEnd (s : State) : Out := .next s.reconEnd

def execShadowWrite (m : Master) (a v : Word) (s : State) : Out :=
  .next (s.shWrite m (a.toNat / 4 * 4) v)

def execActiveViewWrite (_m : Master) (a _v : Word) (s : State) : Out :=
  .next (if isActiveView a.toNat then s.actWrite else s)

/-- GLIDE_END: a channel in run N or past it holds v_new; its record ends when its engine's run after N begins, and at
once when the run is past N (R130). -/
def execGlideEnd (e : Fin 8) (ch : Fin 64) (s : State) : Out :=
  .next { s with md := { s.md with glides := s.md.glides.map (fun c =>
    if c.eng == e.val && c.ch == ch.val && decide (2 ^ c.g ≤ c.j) then { c with vOld := c.vNew } else c) } }

def execOverrideWordWrite (m : Master) (i : Fin 32) (v : Word) (s : State) : Out := .next (s.ovrWordWrite m i v)

def execOverrideSinkWrite (m : Master) (i : Fin 32) (v : Word) (s : State) : Out := .next (s.ovrSinkWrite m i v)

end Sys2Proof.Machine
end

