-- ==== Sys2Proof/Machine/Twin.lean ====
section
/-! DEFINITION. Twin pairs, and migration up to the handover (R143 to R166). -/

namespace Sys2Proof.Machine

/-- The set bits of a pair's tap mask. -/
def State.tapMask (s : State) (p : Nat) : Nat :=
  (s.rd (R.twinTapLo p)).toNat + 2 ^ 32 * (s.rd (R.twinTapHi p)).toNat
/-- The number of set bits among the low `n` of `x`. -/
def popCount (x n : Nat) : Nat := ((List.range n).filter (fun i => x.testBit i)).length

/-- The migration's state code set (MIG_STATUS.STATE): 0 IDLE, 1 CHECK, 2 SWEEP, 3 ARMED, 4 HANDOVER. -/
def State.setMigSt (s : State) (v : Nat) : State := s.put F.migStatusState v
/-- The cycles that the sweep lost to other masters at the delay stores' fabric ports, a free value, count for master 7 (R335). -/
def State.sweepWaits (s : State) : State := s.draw.2.conflict 7 s.draw.1.toNat

/-- The migration unit back to IDLE with nothing named. -/
def State.migIdle (s : State) : State :=
  let s1 := if s.get F.migStatusState == 2 then s.sweepWaits else s
  { s1.setMigSt 0 with mig := { s.mig with kind := 0, armed := false, cmp := 0, bad := false } } |>.put F.migRemainRemain 0

/-- The first four conditions of Table 05-1a and the tap condition, each with the ERR bit it sets (R144). `busy` says
whether a start or check is in progress. The state of the pair is no condition, DEGRADED among them (DESIGN CHOICE, log 138). -/
def State.pairFails (s : State) (p : Nat) (busy : Bool) : List Fld :=
  (if s.flag (F.twinCtrlEn p) then [] else [F.migStatusTwin]) ++
  (if s.teState (2 * p) == teStopped && s.teState (2 * p + 1) == teStopped then [] else [F.migStatusErrState]) ++
  (if s.get (F.teCtrlDomain (2 * p)) == s.get (F.teCtrlDomain (2 * p + 1)) then [] else [F.migStatusDomain]) ++
  (if busy then [F.migStatusBusy] else []) ++
  (if decide (1 ≤ popCount (s.tapMask p) 64) && decide (popCount (s.tapMask p) 64 ≤ 16) then [] else [F.migStatusTap])

/-- Set every field of a list. -/
def State.putAll (s : State) (l : List Fld) : State := l.foldl (fun t f => t.put f 1) s

/-- A pair start (R144): tested, then the check runs with MIG_STATUS.STATE at CHECK. -/
def State.pairStart (s : State) (p : Nat) : State :=
  let f := s.pairFails p (s.mig.kind != 0)
  if f.isEmpty then
    { s.setMigSt 1 with mig := { s.mig with kind := 4, x := 2 * p, y := 2 * p + 1, srcEn := false, armed := false } }
  else s.putAll f

/-- The cells of [lo, lo+n) relative to `lo`. -/
def State.cells (s : State) (lo n : Nat) : List Host.Cell :=
  (s.mem.filter (fun e => decide (lo ≤ e.1 ∧ e.1 < lo + n))).map (fun e => (e.1 - lo, e.2))

/-- Step 1 of the check: PROG_LEN and program slots 0 to LEN - 1 are equal (R154). -/
def State.sameProg (s : State) (x y : Nat) : Bool :=
  let len := s.get (F.teProgLenLen x)
  len == s.get (F.teProgLenLen y) && s.cells (pmBase x) (8 * len) == s.cells (pmBase y) (8 * len)

/-- Step 2 of the check: the active bank, TEn_SCALE_ACT and the active glide configurations are equal (R154). -/
def State.sameSet (s : State) (x y : Nat) : Bool :=
  s.cells (cfBase x + 0x8000) 0x8000 == s.cells (cfBase y + 0x8000) 0x8000 &&
  s.rd (R.teScaleAct x) == s.rd (R.teScaleAct y) &&
  (List.range 64).all (fun m => spGet (fun _ => 0#32) s.md.gcfg (64 * x + m) == spGet (fun _ => 0#32) s.md.gcfg (64 * y + m))

/-- A member of an accepted pair start: the clear of R53 runs and the engine waits for its start (R144); a LEN outside its
range refuses the member's start (R47). -/
def State.pairMember (s : State) (e : Nat) : State :=
  let s1 := (s.put (F.teStatusClrBusy e) 1).setEng e (fun g => { g with dirty := [] })
  if s.lenOk e then
    ((s1.put (F.teCtrlRun e) 1).setTe e teStartPending).setEng e (fun g => { g with startNb := match s.engDom e with
        | some d => s.startAfter d
        | none => 0 })
  else s1.put (F.teStatusLenErr e) 1

/-- The pair-start check ends (R144, R154). An accepted pair reads LOCKSTEP. -/
def State.pairCheckDone (s : State) : State :=
  if s.mig.kind != 4 then s
  else
    let p := s.mig.x / 2
    let f := if !s.sameProg s.mig.x s.mig.y then [F.migStatusProg]
      else if !s.sameSet s.mig.x s.mig.y then [F.migStatusSet]
      else s.pairFails p false
    if f.isEmpty then
      let s1 := (s.migIdle.pairMember (2 * p)).pairMember (2 * p + 1)
      let s2 := (s1.put (F.twinStatusState p) 1).put (F.twinStatusVoice p) 0
      { s2 with mig := { s2.mig with
          fresh := putField s2.mig.fresh p 1 1, exits := putField s2.mig.exits p 1 0, exitDue := putField s2.mig.exitDue p 1 0 } }
    else s.migIdle.putAll f

/-- The voice member of pair `p` (R146). -/
def State.voiceOf (s : State) (p : Nat) : Nat := 2 * p + s.get (F.twinStatusVoice p)

/-- The members stopped without a run, the pair OFF: a pair start cancelled before its first run (R144). A pair that is no
longer MUTED asks for no chime (R149). -/
def State.pairCancel (s : State) (p : Nat) : State :=
  let stop := fun (t : State) e => (t.put (F.teCtrlRun e) 0).setTe e teStopped
  let s1 := ((stop (stop s (2 * p)) (2 * p + 1)).put (F.twinStatusState p) 0)
  { s1 with mig := { s1.mig with fresh := putField s1.mig.fresh p 1 0, chimeReq := putField s1.mig.chimeReq p 1 0 } }.useSync

/-- The other member of pair `p` stops and the pair is OFF (R150). -/
def State.pairLeave (s : State) (p : Nat) : State :=
  let s1 := (s.stopNow (partner (s.voiceOf p))).put (F.twinStatusState p) 0
  { s1 with mig := { s1.mig with exits := putField s1.mig.exits p 1 0, exitDue := putField s1.mig.exitDue p 1 0 } }.useSync

/-- TWIN_CTRLp.EN written to 0 (R144, R149, R150). -/
def State.twinOff (s : State) (p : Nat) : State :=
  let s1 := s.put (F.twinCtrlEn p) 0
  let st := s.get (F.twinStatusState p)
  if st == 1 then
    if s.mig.fresh.testBit p then s1.pairCancel p
    else if s.st == stDrain || s.st == stHalt then s1.pairLeave p
    else { s1 with mig := { s1.mig with exits := putField s1.mig.exits p 1 1 } }
  else if st == 2 then s1.put (F.twinStatusState p) 0
  else s1

/-- TWIN_CTRLp.EN written to 1: cancels an exit that has not reached its boundary (R150). -/
def State.twinOn (s : State) (p : Nat) : State :=
  let s1 := s.put (F.twinCtrlEn p) 1
  { s1 with mig := { s1.mig with exits := putField s1.mig.exits p 1 0 } }

/-- A write of TWIN_CTRLp (R144, R150). -/
def State.twinCtrlWrite (s : State) (p : Nat) (v : Word) : State :=
  let s1 := (s.put (F.twinCtrlPat p) (fieldOf v.toNat 4 2)).put (F.twinCtrlAction p) (fieldOf v.toNat 1 2)
  let en := s.flag (F.twinCtrlEn p)
  let s2 := if v.getLsbD 0 then (if en && !s.mig.exits.testBit p then s1 else s1.twinOn p) else s1.twinOff p
  if v.getLsbD 31 then s2.pairStart p else s2

/-- A write of a tap register: ignored in LOCKSTEP when it would leave more than 16 bits set. -/
def State.tapWrite (s : State) (p : Nat) (hi : Bool) (v : Word) : State :=
  let s1 := s.wr (if hi then R.twinTapHi p else R.twinTapLo p) v
  if s.get (F.twinStatusState p) == 1 && decide (16 < popCount (s1.tapMask p) 64) then s else s1

/-- The engine's pair is not OFF. -/
def State.inPair (s : State) (e : Nat) : Bool := s.get (F.twinStatusState (e / 2)) != 0

/-- The ERR bits of a refused START (R151, R152, R164, R165). -/
def State.migFails (s : State) (mode x y : Nat) (srcEn : Bool) : List Fld :=
  let run := s.teState x == teRunning
  let stp := s.teState y == teStopped
  let dom := s.get (F.teCtrlDomain x) == s.get (F.teCtrlDomain y)
  let p := x / 2
  let pst := s.get (F.twinStatusState p)
  let bad := fun (c : Bool) (f : Fld) => if c then [f] else []
  bad (s.get F.migStatusState != 0) F.migStatusBusy ++
  (match mode with
   | 0 => bad (x == y || !run || !stp) F.migStatusErrState ++ bad (!dom) F.migStatusDomain ++
      bad (!s.tePowered y) F.migStatusPower ++ bad (s.inPair x || s.inPair y) F.migStatusTwin
   | 1 => bad (x == y || !run || !stp) F.migStatusErrState ++ bad (!dom) F.migStatusDomain ++
      bad (!s.tePowered y) F.migStatusPower ++
      bad (y != partner x || !s.flag (F.twinCtrlEn p) || !(pst == 0 || (pst == 2 && s.voiceOf p == x))) F.migStatusTwin
   | 2 => bad (!stp || (srcEn && (x == y || !run))) F.migStatusErrState ++ bad (srcEn && !dom) F.migStatusDomain ++
      bad (!s.tePowered y) F.migStatusPower ++ bad (s.flag (F.twinCtrlEn (y / 2))) F.migStatusTwin
   | _ => [F.migStatusErrState])

/-- START with the mode and engines of MIG_CTRL (R152, R153, R164, R165). A LATE whose Y has no valid LEN or domain is
refused as a start of that engine is (R47). -/
def State.migStart (s : State) : State :=
  let mode := s.get F.migCtrlMode
  let x := s.get F.migCtrlSrc
  let y := s.get F.migCtrlDst
  let srcEn := s.flag F.migCtrlSrcEn
  let f := s.migFails mode x y srcEn
  if !f.isEmpty then s.putAll f
  else if mode == 2 && !s.lenOk y then (s.put (F.teCtrlRun y) 0).put (F.teStatusLenErr y) 1
  else
    let nb := if s.sys.cyc ≤ s.cA - 1024 then s.tickNo + 1 else s.tickNo + 2
    let s1 := { s with mig := { s.mig with
      kind := mode + 1, x := x, y := y, srcEn := srcEn, armed := false, cmp := 0, bad := false, nb := nb } }
    if mode == 2 then s1.setMigSt 3
    else (s1.setMigSt 1).setEng y (fun g => { g with
      dirty := [], live := (s.eng x).live, lpend := (s.eng x).lpend, lnext := (s.eng x).lnext })

/-- The migration, join or late start is abandoned: X continues, Y stays stopped (Table 05-5). -/
def State.migAbandon (s : State) : State := s.migIdle.put F.migStatusAbandoned 1

/-- ABORT (Table 05-5): acts before the handover cutoff, ignored after it. -/
def State.migAbort (s : State) : State :=
  if (s.mig.kind == 1 || s.mig.kind == 2 || s.mig.kind == 3) && !s.mig.armed && s.get F.migStatusState != 4 then s.migAbandon
  else s

/-- A write of MIG_CTRL: the fields while IDLE, then ABORT or START. -/
def State.migCtrlWrite (s : State) (v : Word) : State :=
  let s1 := if s.get F.migStatusState == 0 then s.wr R.migCtrl (v &&& 0x00033707#32) else s
  if v.getLsbD 30 then s1.migAbort else if v.getLsbD 31 then s1.migStart else s1

/-- The words of the history sweep (R156): LEN 0 and values above 262,144 act as 262,144. -/
def State.sweepLen (s : State) : Nat :=
  let l := s.get F.migSweepLen
  if l == 0 then 262144 else min l 262144

/-- The migration check ends (R154, R155). -/
def State.migCheckDone (s : State) : State :=
  if (s.mig.kind == 1 || s.mig.kind == 2) && s.get F.migStatusState == 1 then
    if !s.sameProg s.mig.x s.mig.y then s.migIdle.put F.migStatusProg 1
    else if !s.sameSet s.mig.x s.mig.y then s.migIdle.put F.migStatusSet 1
    else { s with mig := { s.mig with wp0 := s.engWp s.mig.x, n := s.sweepLen } } |>.setMigSt 2 |>.put F.migRemainRemain s.sweepLen
  else s

/-- Physical word `p` lies in the sweep's range (R156). -/
def inSweep (wp0 n p : Nat) : Bool := decide ((wp0 + 262144 - p) % 262144 < n)

/-- The sweep's copy: every swept word of X that is not dirty in Y goes to Y (R156). -/
def State.sweepCopy (s : State) : State :=
  let bx := dlyBase s.mig.x
  let by_ := dlyBase s.mig.y
  let n := s.mig.n
  let dirty := (s.eng s.mig.y).dirty
  let takes := fun (off : Nat) => inSweep s.mig.wp0 n (off / 4) && !dirty.contains (off / 4)
  let inY := fun (e : Host.Cell) => decide (by_ ≤ e.1 ∧ e.1 < by_ + 0x100000)
  let keep := s.mem.filter (fun e => !(inY e && takes (e.1 - by_)))
  let new := (s.cells bx 0x100000).filter (fun e => takes e.1)
  { s with mem := new.foldl (fun m e => spSet memDefault m (by_ + e.1) e.2) keep }

/-- The sweep ends and the migration is ARMED (R156, R158). -/
def State.sweepEnd (s : State) : State :=
  if (s.mig.kind == 1 || s.mig.kind == 2) && s.get F.migStatusState == 2 then
    let nb := if s.sys.cyc ≤ s.cA - 1024 then s.tickNo + 1 else s.tickNo + 2
    let s1 := s.sweepCopy.sweepWaits
    ({ s1 with mig := { s1.mig with nb := nb } }.setMigSt 3).put F.migRemainRemain 0
  else s

/-- The cutoff of the next domain-A boundary has not passed (R118). -/
def State.beforeCutoff (s : State) : Bool :=
  decide (s.sys.cyc ≤ s.cA - 1024) && decide (s.sys.qt % 4 * s.cA / 4 ≤ s.cA - 1024)

/-- The machine stands at the cutoff of the next domain-A boundary. -/
def State.toCutoff (s : State) : State := s.atCyc (s.cA - 1024)

/-- Y's domain is in use. -/
def State.yInUse (s : State) : Bool :=
  match s.engDom s.mig.y with
  | some d => s.inUse d
  | none => false

/-- The handover cutoff selects T when the boundary is eligible (R158); a late start that brings Y's domain into use needs a
rate-set boundary (R171). -/
def State.handoverCutoff (s : State) : State :=
  let b := s.tickNo + 1
  let bt := b % 2 ^ 48
  let req := s.get F.migTreqLoTLo + 2 ^ 32 * s.get F.migTreqHiTHi
  let reqOk := s.flag F.migCtrlTauto || decide (req ≤ bt)
  if s.runs && s.get F.migStatusState == 3 && !s.mig.armed && s.beforeCutoff && s.isCommon b && !s.drainDue &&
      reqOk && decide (s.mig.nb ≤ b) && (s.yInUse || isRateSet b) then
    (({ s with mig := { s.mig with armed := true, t := b } }.put F.migTactLoTLo (bt % 2 ^ 32)).put F.migTactHiTHi
      (bt / 2 ^ 32)).toCutoff
  else s

/-- Y takes X's registers and glide state (R159); the mirror writes in flight are those of the runs before T_D (R160). -/
def State.takeState (s : State) (x y : Nat) : State :=
  let gx := s.eng x
  let s0 : State := { s with mig := { s.mig with ring := s.mig.ring.map (fun (r : Mirror) => { r with early := true }) } }
  let s1 := s0.setEng y (fun (g : Engine) => { g with d := gx.d, a := gx.a, f := gx.f })
  let mine := (s1.md.glides.filter (fun (c : Glide) => c.eng == x)).map (fun c => { c with eng := y })
  { s1 with md := { s1.md with glides := s1.md.glides.filter (fun (c : Glide) => c.eng != y) ++ mine } }

/-- Engine `y` starts with the run that begins at this edge (R159). -/
def State.startRunning (s : State) (y : Nat) : State := ((s.put (F.teCtrlRun y) 1).setTe y teRunning).beginRun y

/-- The alias of X set to Y (R159, R163). -/
def State.setAlias (s : State) (x y : Nat) : State := (s.put (F.migAliasEn x) 1).put (F.migAliasTgt x) y

/-- X of a MOVE, or the placeholder of a LATE, runs runs T_D and T_D + 1 whatever software asks (Table 05-5). -/
def State.keepX (s : State) : State := if s.teState s.mig.x == teStopPending then s.beginRun s.mig.x else s

/-- The handover at E_T (R159, R164, R165), unless a drain begins there (Table 05-5); a stop of X that falls at E_T abandons a JOIN (Table 05-5). -/
def State.handover (s : State) : State :=
  if s.runs && !s.endsHere && s.get F.migStatusState == 3 && s.mig.armed && s.atEdge && s.tickNo == s.mig.t then
    let x := s.mig.x
    let y := s.mig.y
    match s.mig.kind with
    | 1 => (((s.keepX.takeState x y).startRunning y).setAlias x y).setMigSt 4
    | 2 =>
      if s.teState x == teStopPending then (s.stopNow x).migAbandon.useSync
      else
        let s1 := (s.takeState x y).startRunning y
        ((s1.migIdle.put F.migStatusDone 1).put (F.twinStatusState (x / 2)) 1).put (F.twinStatusVoice (x / 2)) (x % 2)
    | _ =>
      if s.mig.srcEn then ((s.keepX.startRunning y).setAlias x y).setMigSt 4
      else (s.startRunning y).migIdle.put F.migStatusDone 1
  else s

/-- A write of MIG_ALIAS becomes pending until the next commit that names ROUTE (R163). -/
def State.aliasWrite (s : State) (v : Word) : State := { s with mig := { s.mig with aliasPend := some v } }

/-- What a drain does to pairs and migrations (R40, R150, Table 05-5). -/
def State.migDrain (s : State) : State :=
  let s1 :=
    if s.mig.kind == 0 then s
    else if s.get F.migStatusState == 4 then
      (s.put (F.migAliasEn s.mig.x) 0).stopNow s.mig.y |>.migAbandon
    else s.migAbandon
  (List.range 4).foldl (fun t p => if t.mig.exits.testBit p then t.pairLeave p else t) s1

def execPairStart (m : Master) (p : Fin 4) (s : State) : Out := .next (s.guard (host0Boot m) (fun t => t.pairStart p))
def execPairStartCheckDone (s : State) : Out := .next s.pairCheckDone
def execTwinDisable (m : Master) (p : Fin 4) (s : State) : Out :=
  .next (s.guard (host0Boot m) (fun t => t.twinOff p))
def execLockstepExit (p : Fin 4) (s : State) : Out := .next (if s.mig.exitDue.testBit p then s.pairLeave p else s)

/-- The three start commands are writes of MIG_CTRL with START set, ABORT clear and their MODE. -/
def isMigStart (mode : Nat) (v : Word) : Bool := v.getLsbD 31 && !v.getLsbD 30 && fieldOf v.toNat 12 2 == mode

def execMigrationMove (m : Master) (v : Word) (s : State) : Out :=
  .next (if isMigStart 0 v then s.guard (host0Boot m) (fun t => t.migCtrlWrite v) else s)
def execTwinJoin (m : Master) (v : Word) (s : State) : Out :=
  .next (if isMigStart 1 v then s.guard (host0Boot m) (fun t => t.migCtrlWrite v) else s)
def execLateStart (m : Master) (v : Word) (s : State) : Out :=
  .next (if isMigStart 2 v then s.guard (host0Boot m) (fun t => t.migCtrlWrite v) else s)
def execMigrationAbort (m : Master) (s : State) : Out := .next (s.guard (host0Boot m) (fun t => t.migAbort))
def execMigrationCheckDone (s : State) : Out := .next s.migCheckDone
def execSweepEnd (s : State) : Out := .next s.sweepEnd
def execHandoverCutoff (s : State) : Out := .next s.handoverCutoff
def execHandover (s : State) : Out := .next s.handover
def execMigAliasWrite (m : Master) (v : Word) (s : State) : Out := .next (s.guard (host0Boot m) (fun t => t.aliasWrite v))

end Sys2Proof.Machine
end

