-- ==== Sys2Proof/Machine/Gen.lean ====
section
/-! DEFINITION. The test generators (R210). -/

namespace Sys2Proof.Machine

/-- A generator with nothing in it. -/
def Tg.zero : Tg := ⟨0#32, 0#32, false, 0#32, 0⟩

/-- Generator `g`. -/
def State.tg (s : State) (g : Nat) : Tg := ng s.rt.tg g Tg.zero
/-- Generator `g` set. -/
def State.setTg (s : State) (g : Nat) (x : Tg) : State := { s with rt := { s.rt with tg := ns s.rt.tg g x } }

/-- One sample of A × sin: one of the integers within 1 LSB of it (R210); which one is a free value. -/
def sineSample (a : Nat) (phase : Word) : Word :=
  let v := (a : Int) * sinPhase phase.toNat
  let lo := v / (2 ^ 96 : Nat)
  let pick := Config.sinePick a phase
  let y := if phase.toNat % 2 ^ 30 == 0 then rnd v 96 - 1 + (pick % 3 : Nat) else lo + (pick % 2 : Nat)
  (sat32 y).1

/-- The sample of a waveform (R210). -/
def tgWave (wave a : Nat) (x : Tg) : Word :=
  match wave with
  | 0 => sineSample a x.phase
  | 1 => wrap32 (if x.phase.toNat < 2 ^ 31 then a else -(a : Int))
  | 2 => wrap32 (asr ((a : Int) * x.lfsr.toInt + (2 ^ 30 : Nat)) 31)
  | _ => wrap32 a

/-- One step of the 32-bit Galois LFSR (R210). -/
def lfsrStep (v : Word) : Word := if v.getLsbD 0 then (v >>> 1) ^^^ 0x80200003#32 else v >>> 1

/-- Generator `g` produces the sample of the tick that begins; a restart starts from phase 0 and the seed (R210). -/
def State.tgNext (s : State) (g : Nat) : State :=
  let old := s.tg g
  let x := if old.running then old else ⟨0#32, 1#32, true, 0#32, old.nb⟩
  let wave := s.get (F.tgCfgWave g)
  s.setTg g { x with
    cur := tgWave wave (tgAmp (s.get (F.tgCfgLevel g))) x
    phase := x.phase + s.rd (R.tgStep g)
    lfsr := if wave == 2 then lfsrStep x.lfsr else x.lfsr }

/-- At a tick of domain `d`, its enabled generators produce their samples, and one that has been disabled outputs 0. -/
def State.tgTick (s : State) (d : RDom) : State :=
  (List.range 8).foldl (fun (t : State) g =>
    if domOf (t.get (F.tgCfgDomain g)) != some d then t
    else if t.flag (F.tgCfgEn g) then t.tgNext g
    else t.setTg g { t.tg g with cur := 0#32 }) s

/-- Generator `g` stops: it outputs 0 and is not running. -/
def State.tgStop (s : State) (g : Nat) : State := s.setTg g { s.tg g with running := false, cur := 0#32 }

/-- A write of TGm_CFG (R210): the sample of the running tick stays (R24), but for a generator that changes its domain. -/
def State.tgCfgWrite (s : State) (g : Nat) (v : Word) : State :=
  let old := s.rd (R.tgCfg g)
  let new := v &&& 0xB30007FF#32
  let s1 := s.wr (R.tgCfg g) new
  let same := old.getLsbD 31 == new.getLsbD 31 && fieldOf old.toNat 28 2 == fieldOf new.toNat 28 2
  if same then s1
  else
    let moved := fieldOf old.toNat 28 2 != fieldOf new.toNat 28 2
    let s2 := if moved then s1.tgStop g else s1.setTg g { s1.tg g with running := false }
    (if new.getLsbD 31 then s2.setTg g { s2.tg g with nb := s2.assignAfter (fieldOf new.toNat 28 2) } else s2).useSync

/-- A write of TGm_STEP (R210). -/
def State.tgStepWrite (s : State) (g : Nat) (v : Word) : State := s.wr (R.tgStep g) v

/-- At an epoch start every enabled generator restarts (R210). -/
def State.tgEpoch (s : State) : State :=
  let s1 := (List.range 8).foldl (fun t g => t.tgStop g) s
  ((s1.tgTick .a).tgTick .b).tgTick .c

def execTestGeneratorConfig (_m : Master) (g : Fin 8) (v : Word) (s : State) : Out := .next (s.ok.tgCfgWrite g v)
def execTestGeneratorStep (_m : Master) (g : Fin 8) (v : Word) (s : State) : Out := .next (s.ok.tgStepWrite g v)

end Sys2Proof.Machine
end

