-- ==== Sys2Proof/Machine/Domain.lean ====
section
/-! DEFINITION. Rate domains: changes of the configuration, domains in use, and the bridges' control (R167 to R182). -/

namespace Sys2Proof.Machine

/-- The 44.1 kHz family (false) or the 48 kHz family (true) of an FSA code. -/
def famOf (fsa : Nat) : Bool := fsa % 2 == 1

/-- A configuration holds no invalid code (Table 06-10). -/
def cfgValid (v : Word) : Bool := decide (cfgFsa v ≤ 5) && decide (cfgKb v ≤ 6) && decide (cfgKc v ≤ 6)

/-- Nothing of an APPLY waits any more (R174). -/
def State.applyClear (s : State) : State :=
  { s with dom := { s.dom with apply := none }, sys := { s.sys with dueFam := false, dueRate := false } }.put F.domStatusPend 0

/-- DOM_ACT takes the pending configuration (R175, Table 06-4). -/
def State.takeApply (s : State) : State :=
  match s.dom.apply with
  | none => s
  | some v => s.applyClear.wr R.domAct v

/-- DOM_CTRL.APPLY (R173, R174, Table 06-4). -/
def State.applyReq (s : State) : State :=
  let v := s.rd R.domCfg
  let act := s.domAct
  let busy := s.st == stDrain || s.st == stHalt
  if busy || !cfgValid v then (s.setIf busy F.domStatusErrBusy).setIf (!cfgValid v) F.domStatusErrCode
  else if s.st == stBoot || s.st == stSafe then s.applyClear.wr R.domAct v
  else if v == act then s.applyClear
  else
    let fam := famOf (cfgFsa v) != famOf (cfgFsa act)
    let rate := cfgFsa v != cfgFsa act || (s.inUse .b && cfgKb v != cfgKb act) || (s.inUse .c && cfgKc v != cfgKc act)
    let s1 := s.applyClear.put F.domStatusPend 1
    { s1 with
      dom := { s1.dom with apply := some v, applyNb := s.afterCutoff s.sys.cyc }
      sys := { s1.sys with dueFam := fam, dueRate := !fam && rate, late := s1.lateDue 0 false ||| s1.lateDue 1 false } }

/-- A pending APPLY only re-bases domains that are not in use. -/
def State.applyRebase (s : State) : Bool := s.dom.apply.isSome && !s.sys.dueFam && !s.sys.dueRate

/-- The tables in force from this edge on. -/
def State.tabNow (s : State) : Tab :=
  match s.commitDue with
  | some c => tabAfter c.mask
  | none => tabActive

/-- A rate-set boundary: TSTAMP is a multiple of 12 (R171, Table 06-4). The k of a domain that an earlier start has brought into use
since its APPLY changes here too, with no epoch (DESIGN CHOICE, log 139). -/
def State.rateSet (s : State) : State :=
  if s.runs && s.atEdge && isRateSet s.tickNo then
    let s1 := if s.applyRebase && decide (s.dom.applyNb ≤ s.tickNo) then s.takeApply else s
    let s2 := s1.recomputeUse s1.tabNow
    let s3 := if s2.inUse .b && !s1.inUse .b then s2.tgTick .b else s2
    if s2.inUse .c && !s1.inUse .c then s3.tgTick .c else s3
  else s

/-- The two sides of a bridge have equal rates, or a side has no domain (R178). -/
def State.brBad (s : State) (b : Nat) : Bool :=
  match domOf (s.get (F.brCfgInDom b)), domOf (s.get (F.brCfgOutDom b)) with
  | some i, some o => s.period i == s.period o
  | _, _ => true

/-- Bridge `b`'s history empty (R36, R179). -/
def State.brZero (s : State) (b : Nat) : State :=
  { s with rt := { s.rt with br := ns s.rt.br b ⟨Vector.replicate 8 []⟩ } }

/-- An enable request of bridge `b` (R178, R179). -/
def State.brEnable (s : State) (b : Nat) : State :=
  let st := s.get (F.brStatusState b)
  if st == 0 then
    if s.brBad b then (s.put (F.brStatusCfgErr b) 1).put (F.brCfgEn b) 0
    else
      let nb := if s.runs then s.afterCutoff s.sys.cyc else 0
      let s1 := (s.put (F.brCfgEn b) 1).put (F.brStatusState b) 1
      { s1 with dom := { s1.dom with brNb := ns s1.dom.brNb b nb } }
  else if st == 3 then (s.put (F.brCfgEn b) 1).put (F.brStatusState b) 2
  else s

/-- A stop request of bridge `b` (R179). -/
def State.brDisable (s : State) (b : Nat) : State :=
  let st := s.get (F.brStatusState b)
  if st == 1 then ((s.put (F.brCfgEn b) 0).put (F.brStatusState b) 0).useSync
  else if st == 2 then
    let s1 := (s.put (F.brCfgEn b) 0).put (F.brStatusState b) 3
    { s1 with dom := { s1.dom with brNb := ns s1.dom.brNb b (s.tickNo + 1) } }
  else s.put (F.brCfgEn b) 0

/-- A write of BRn_CFG (R179): IN_DOM, OUT_DOM and TRIM while OFF, else ignored with CFG_IGN when they would change. -/
def State.brCfgWrite (s : State) (b : Nat) (v : Word) : State :=
  let cur := s.rd (R.brCfg b)
  let mask : Word := 0x00FF0330#32
  let s1 := if s.get (F.brStatusState b) == 0 then s.wr (R.brCfg b) ((v &&& mask) ||| (cur &&& 1#32))
    else s.setIf ((v &&& mask) != (cur &&& mask)) (F.brStatusCfgIgn b)
  if v.getLsbD 0 && !cur.getLsbD 0 then s1.brEnable b
  else if !v.getLsbD 0 && cur.getLsbD 0 then s1.brDisable b
  else s1

/-- Both sides' domains of bridge `b` are in use. -/
def State.brInUse (s : State) (b : Nat) : Bool :=
  match domOf (s.get (F.brCfgInDom b)), domOf (s.get (F.brCfgOutDom b)) with
  | some i, some o => s.inUse i && s.inUse o
  | _, _ => false

/-- A pending bridge starts with zero history (R179). -/
def State.brStart (s : State) (b : Nat) : State :=
  if s.runs && s.atCommon && s.get (F.brStatusState b) == 1 && s.brInUse b && decide (ng s.dom.brNb b 0 ≤ s.tickNo) then
    (s.brZero b).put (F.brStatusState b) 2
  else s

/-- A stop-pending bridge stops at a common boundary (R179). -/
def State.brStop (s : State) (b : Nat) : State :=
  if s.runs && s.atCommon && s.get (F.brStatusState b) == 3 && decide (ng s.dom.brNb b 0 ≤ s.tickNo) then
    ((s.brZero b).put (F.brStatusState b) 0).useSync
  else s

/-- BRn_LAT in units of 2^-16 domain-A tick (R181, R182): with periods in quarter ticks, 1/k = p/4. -/
def State.brLat (s : State) (b : Nat) : Nat :=
  if s.get (F.brStatusState b) == 0 then 0
  else match domOf (s.get (F.brCfgInDom b)), domOf (s.get (F.brCfgOutDom b)) with
    | some i, some o =>
      let pi := s.period i
      let po := s.period o
      (28 * max pi po + pi + po) * 2 ^ 14 + s.get (F.brCfgTrim b) * po * 2 ^ 6
    | _, _ => 0

/-- At a drain: a bridge that was to stop is OFF, others wait for the new epoch (BRn_STATUS.STATE). -/
def State.brDrain (s : State) (b : Nat) : State :=
  let st := s.get (F.brStatusState b)
  let s1 := if st == 3 then s.put (F.brStatusState b) 0 else s
  { s1 with dom := { s1.dom with brNb := ns s1.dom.brNb b 0 } }

/-- At the new epoch's first tick: RUN and PENDING bridges start, or are refused when their sides are equal (R176). -/
def State.brEpoch (s : State) (b : Nat) : State :=
  let st := s.get (F.brStatusState b)
  if st == 1 || st == 2 then
    if s.brBad b then ((s.put (F.brStatusCfgErr b) 1).put (F.brCfgEn b) 0).put (F.brStatusState b) 0
    else (s.brZero b).put (F.brStatusState b) 2
  else s

def execRateSetBoundary (s : State) : Out := .next s.rateSet
/-- BRIDGE_ENABLE is the write of BRn_CFG with EN from 0 to 1. -/
def execBridgeEnable (m : Master) (b : Fin 16) (v : Word) (s : State) : Out :=
  .next (if v.getLsbD 0 then s.guard (host0Boot m) (fun t => t.brCfgWrite b v) else s)
/-- BRIDGE_DISABLE is the write of BRn_CFG with EN from 1 to 0. -/
def execBridgeDisable (m : Master) (b : Fin 16) (v : Word) (s : State) : Out :=
  .next (if v.getLsbD 0 then s else s.guard (host0Boot m) (fun t => t.brCfgWrite b v))
def execBridgeStart (b : Fin 16) (s : State) : Out := .next (s.brStart b)
def execBridgeStop (b : Fin 16) (s : State) : Out := .next (s.brStop b)

end Sys2Proof.Machine
end

