-- ==== Sys2Proof/Machine/Route.lean ====
section
/-! DEFINITION. Endpoints, the check of the route table, patches and the ranking of the graph (R185 to R195, R203, R204). -/

namespace Sys2Proof.Machine

/-! ## Endpoints (R185, R186, R484) -/

/-- An ID that Table 07-1 assigns as a source. -/
def srcValid (id : Nat) : Bool :=
  decide (id < 0x78) || decide (0x80 ≤ id ∧ id < 0x140) || decide (0x200 ≤ id ∧ id < 0x520) || decide (0x520 ≤ id ∧ id < 0x5A8)
/-- An ID that Table 07-1 assigns as a sink. -/
def sinkValid (id : Nat) : Bool :=
  decide (id < 0x60) || decide (0x80 ≤ id ∧ id < 0x140) || decide (0x200 ≤ id ∧ id < 0x5A0)

/-- The kinds of ID. -/
def isTdm (id : Nat) : Bool := decide (id < 0x60)
def isPdm (id : Nat) : Bool := decide (0x60 ≤ id ∧ id < 0x78)
def isAsrc (id : Nat) : Bool := decide (0x80 ≤ id ∧ id < 0xC0)
def isBridge (id : Nat) : Bool := decide (0xC0 ≤ id ∧ id < 0x140)
def isEngine (id : Nat) : Bool := decide (0x200 ≤ id ∧ id < 0x400)
def isNode (id : Nat) : Bool := decide (0x400 ≤ id ∧ id < 0x500)
def isUmb (id : Nat) : Bool := decide (0x500 ≤ id ∧ id < 0x520)
def isBuf (id : Nat) : Bool := decide (0x520 ≤ id ∧ id < 0x5A0)
def isTg (id : Nat) : Bool := decide (0x5A0 ≤ id ∧ id < 0x5A8)
/-- A summing node or an Umber unit. -/
def isUnit (id : Nat) : Bool := isNode id || isUmb id

/-- The engine that serves the endpoints of engine `e` (R163). -/
def State.aliasOf (s : State) (e : Nat) : Nat := if s.flag (F.migAliasEn e) then s.get (F.migAliasTgt e) else e

/-- The byte of ASRC_CHMAP for channel `c` of group `g`: EN in bit 7, DIR in bit 6, SLOT in bits [3:0]. -/
def State.asrcCh (s : State) (g c : Nat) : Nat := fieldOf (s.rd (R.asrcChmapLo g + 4 * (c / 4))).toNat (8 * (c % 4)) 8
/-- Group `g` is enabled and names port `n` (R284). -/
def State.asrcOn (s : State) (g n : Nat) : Bool := s.flag (F.asrcCfgEn g) && s.get (F.asrcCfgPort g) == n
/-- Port `n` is bound (R284). -/
def State.tpBound (s : State) (n : Nat) : Bool := (List.range 8).any (fun g => s.asrcOn g n)
/-- The channel, as 8 g + c, that carries slot `sl` of port `n` in direction `dir` (R285). -/
def State.asrcMap (s : State) (n sl dir : Nat) : Option Nat :=
  (List.range 64).find? (fun k =>
    let v := s.asrcCh (k / 8) (k % 8)
    s.asrcOn (k / 8) n && v.testBit 7 && fieldOf v 6 1 == dir && fieldOf v 0 4 == sl)

/-- One ID for each endpoint: a TDM slot of a bound port that a channel maps is that channel (R285). -/
def State.canon (s : State) (dir id : Nat) : Nat :=
  if isTdm id && s.tpBound (id / 16) then
    match s.asrcMap (id / 16) (id % 16) dir with
    | some k => 0x80 + k
    | none => id
  else id

/-- The domain of an endpoint in force, with the node and Umber configurations of table `t` (R186, R484); `src` says
whether it is named as a source. -/
def State.epDom (s : State) (t : Tab) (src : Bool) (id0 : Nat) : Option RDom :=
  let id := s.canon (if src then 0 else 1) id0
  if isTdm id then some .a
  else if isPdm id then pdmDomOf (s.pdmCfg ((id - 0x60) / 8))
  else if isAsrc id then domOf (s.get (F.asrcCfgDom ((id - 0x80) / 8)))
  else if isBridge id then
    let b := (id - 0xC0) / 8
    domOf (s.get (if src then F.brCfgOutDom b else F.brCfgInDom b))
  else if isEngine id then
    let e := (id - 0x200) / 64
    if s.get (F.teCtrlDomain e) == 3 then none else s.engDom (s.aliasOf e)
  else if isNode id then domOf (fieldOf (s.nodeW t (id - 0x400) 0) 28 2)
  else if isUmb id then domOf (fieldOf (s.umbW t (id - 0x500) 0) 26 2)
  else if isBuf id then
    let f := s.get (F.vatBufCfgFlow (id - 0x520))
    if f == 0 || !s.flag (F.vatFlowCfgEn f) then none else domOf (s.get (F.vatFclkDom (s.get (F.vatFlowCfgFclk f))))
  else domOf (s.get (F.tgCfgDomain (id - 0x5A0)))

/-- The two endpoints of an entry have domains of one rate. -/
def State.sameRate (s : State) (t : Tab) (src sink : Nat) : Bool :=
  match s.epDom t true src, s.epDom t false sink with
  | some x, some y => s.period x == s.period y
  | _, _ => false

/-- The voice member that serves engine `e` of a pair in LOCKSTEP or DEGRADED (R146, R147). -/
def State.voiceFor (s : State) (e : Nat) : Nat :=
  let st := s.get (F.twinStatusState (e / 2))
  if st == 1 || st == 2 then s.voiceOf (e / 2) else e

/-- PDM channel `c` runs (Table 07-2, R297 to R299). -/
def State.pdmRunning (s : State) (c : Nat) : Bool :=
  s.micOn c && (s.pdmCfg (c / 8)).getLsbD 31 && (s.get F.pdmStatusRun).testBit (c / 8) &&
    ng s.pdm.ready (c / 8) false && !(s.get F.pdmStuckMicStuck).testBit c

/-- Slots S of a port (R275). -/
def State.tpSlots (s : State) (n : Nat) : Nat := s.get (F.tpCfgSlots n) + 1

/-- TDM slot `id` runs: its port is in RUN, and the slot is one of its S and enabled in the mask (Table 07-2, R279). -/
def State.slotRunning (s : State) (id : Nat) : Bool :=
  s.get (F.tpStatusState (id / 16)) == 1 && decide (id % 16 < s.tpSlots (id / 16)) &&
    (s.get (F.tpSlotmaskInActive (id / 16))).testBit (id % 16)

/-- The source endpoint is running (Table 07-2). -/
def State.srcRunning (s : State) (id0 : Nat) : Bool :=
  let id := s.canon 0 id0
  if isTdm id then s.slotRunning id
  else if isPdm id then s.pdmRunning (id - 0x60)
  else if isAsrc id then s.get (F.asrcStatusState ((id - 0x80) / 8)) == 2 && (!isTdm id0 || s.slotRunning id0)
  else if isBridge id then s.get (F.brStatusState ((id - 0xC0) / 8)) == 2
  else if isEngine id then s.teState (s.voiceFor (s.aliasOf ((id - 0x200) / 64))) == teRunning
  else if isNode id then
    match s.rt.nodes.find? (fun p => p.1 == id - 0x400) with
    | some p => decide (1 ≤ p.2.nact)
    | none => false
  else if isUmb id then
    match s.rt.umbs.find? (fun p => p.1 == id - 0x500) with
    | some p => p.2.run
    | none => false
  else if isBuf id then s.get (F.vatBufCfgFlow (id - 0x520)) != 0
  else (ng s.rt.tg (id - 0x5A0) ⟨0#32, 0#32, false, 0#32, 0⟩).running

/-! ## Patches (R193 to R195) -/

/-- The chain of patch `p`, closest first, and whether it is broken (R195). `seen` holds the patches already visited. -/
def State.chainFrom (s : State) (t : Tab) : Nat → List Nat → Nat → List Nat × Bool
  | 0, _, _ => ([], true)
  | k + 1, seen, p =>
    let w := s.patW t p 0
    let par := fieldOf w 12 9
    if seen.contains p then ([], true)
    else if !w.testBit 31 then ([p], true)
    else if !w.testBit 30 then ([p], par != 0)
    else
      let r := s.chainFrom t k (p :: seen) par
      (p :: r.1, r.2)

/-- The chain of patch `p`. -/
def State.chain (s : State) (t : Tab) (p : Nat) : List Nat × Bool := s.chainFrom t 513 [] p

/-- Fields of a route entry's words. -/
def entSrc (w0 : Nat) : Nat := fieldOf w0 0 12
def entSink (w0 : Nat) : Nat := fieldOf w0 16 12
def entPatch (w2 : Nat) : Nat := fieldOf w2 23 9
def entRole (w2 : Nat) : Nat := fieldOf w2 20 2
def entInput (w2 : Nat) : Nat := fieldOf w2 15 5
def entXf (w2 : Nat) : Nat := fieldOf w2 12 3
def entDelay (w2 : Nat) : Nat := fieldOf w2 0 6

/-- The ID_ERR condition of Table 07-4. -/
def entIdErr (w0 w2 : Nat) : Bool :=
  !srcValid (entSrc w0) || !sinkValid (entSink w0) || fieldOf w0 28 3 != 0 || fieldOf w0 12 4 != 0 ||
  fieldOf w2 9 3 != 0 || fieldOf w2 6 2 != 0 || decide (2 ≤ entRole w2) || (entRole w2 == 1 && !w2.testBit 22) ||
  decide (5 ≤ entXf w2) || (entInput w2 != 0 && !isNode (entSink w0)) || (entPatch w2 != 0 && !w2.testBit 22)

/-- Multiply two Q3.29 values: rounded, ties toward +infinity, and saturated (R194). -/
def mulGain (a b : Int) : Int × Bool := satTo 32 (rnd (a * b) 29)

/-- The resolved gain: the entry's GAIN times that of each patch of the list, closest first; whether one clipped (R194). -/
def State.chainGain (s : State) (t : Tab) (g : Int) (ps : List Nat) : Int × Bool :=
  ps.foldl (fun (a : Int × Bool) p =>
    let r := mulGain a.1 (sx 32 (s.patW t p 1))
    (r.1, a.2 || r.2)) (g, false)

/-- The conditions of R194 hold for an entry with this ROLE and chain. -/
def State.patchOn (s : State) (t : Tab) (role : Nat) (ps : List Nat) : Bool :=
  let byp := fun p => (s.patW t p 0).testBit 3
  ps.all (fun p => (s.patW t p 0).testBit 0 && !(s.patW t p 0).testBit 2) &&
  (if role == 1 then
    match ps with
    | [] => false
    | p :: up => byp p && !up.any byp
   else !ps.any byp)

/-- The patch chain of an entry with this word 2 (R194, R195). -/
def State.entChain (s : State) (t : Tab) (w2 : Nat) : List Nat × Bool :=
  if w2.testBit 22 then s.chain t (entPatch w2) else ([], false)

/-- Entry `i` meets the condition that sets bit `k` of Table 07-4: 1 ID_ERR, 2 DOM_ERR, 3 PATCH_ERR. An ID that is invalid in
its position names no endpoint, so it has no domain to lack and no rate to compare (R484). -/
def State.entCond (s : State) (t : Tab) (i k : Nat) : Bool :=
  let w0 := s.rtW t i 0
  let w2 := s.rtW t i 2
  match k with
  | 1 => entIdErr w0 w2
  | 2 => (srcValid (entSrc w0) && (s.epDom t true (entSrc w0)).isNone) ||
      (sinkValid (entSink w0) && (s.epDom t false (entSink w0)).isNone) ||
      (srcValid (entSrc w0) && sinkValid (entSink w0) && !s.sameRate t (entSrc w0) (entSink w0))
  | _ => (s.entChain t w2).2

/-- The resolved state of valid entry `i` before the budgets and the ranking; `true` when the gain of its chain clips. -/
def State.resolveEntry (s : State) (t : Tab) (i : Nat) : REnt × Bool :=
  let w0 := s.rtW t i 0
  let w2 := s.rtW t i 2
  let ch := s.entChain t w2
  let err := (([1, 2, 3] : List Nat).find? (fun k => s.entCond t i k)).getD 0
  let g := s.chainGain t (sx 32 (s.rtW t i 1)) (if entRole w2 == 1 then ch.1.drop 1 else ch.1)
  let ok := err == 0
  ({ idx := i, src := entSrc w0, sink := entSink w0, inp := entInput w2, delay := entDelay w2,
     on := ok && s.patchOn t (entRole w2) ch.1, gain := g.1, err := err,
     dis := ok && ch.1.any (fun p => !(s.patW t p 0).testBit 0), late := false }, ok && g.2)

/-! ## Transition lengths (R198) -/

/-- The crossfade length that an XF or FADE code names; codes from 5 act as 4 (Table 07-5). -/
def xfLen (c : Nat) : Nat :=
  match c with
  | 0 => 0
  | 1 => 16
  | 2 => 64
  | 3 => 256
  | _ => 1024

/-- The identity of an entry (R197), a sink ID or a source ID that an alias does not change. -/
def REnt.ident (e : REnt) : Nat × Nat × Nat × Nat := (e.src, e.sink, e.inp, e.delay)

/-- The entry contributes. -/
def REnt.live (e : REnt) : Bool := e.on && e.err == 0

/-- Entry `i`'s own words differ in what Table 07-6 lists: all but TAG. -/
def State.wordsChanged (s : State) (o n : Tab) (i : Nat) : Bool :=
  let v := fun t => (s.rtW t i 0).testBit 31
  if !v o && !v n then false
  else v o != v n || s.rtW o i 0 != s.rtW n i 0 || s.rtW o i 1 != s.rtW n i 1 || s.rtW o i 2 != s.rtW n i 2

/-- Patch `p`'s word 0 or GAIN differ. -/
def State.patchChanged (s : State) (o n : Tab) (p : Nat) : Bool :=
  s.patW o p 0 != s.patW n p 0 || s.patW o p 1 != s.patW n p 1

/-- The outermost ancestor, nearest the root, that changed: on the new chain, or on the old one where the new one is broken
or holds none (Table 07-6). -/
def State.outerChanged (s : State) (o n : Tab) (p : Nat) : Option Nat :=
  let last := fun (t : Tab) => ((s.chain t p).1.filter (fun q => s.patchChanged o n q)).getLast?
  (if (s.chain n p).2 then none else last n).orElse (fun _ => (last o).orElse (fun _ => last n))

/-- Ramp length and law of entry `i` when the tables change from `o` to `n` (Table 07-6). `budget` says that the first row
applies, `newOk` that the new entry is valid and not in error. -/
def State.rampOf (s : State) (o n : Tab) (i : Nat) (budget newOk : Bool) : Nat × Bool :=
  if budget then (0, false)
  else if s.wordsChanged o n i then
    let w2 := s.rtW (if newOk then n else o) i 2
    (xfLen (entXf w2), w2.testBit 8)
  else
    let w2 := s.rtW n i 2
    match if w2.testBit 22 then s.outerChanged o n (entPatch w2) else none with
    | some p => (xfLen (fieldOf (s.patW n p 0) 8 3), w2.testBit 8)
    | none => (0, false)

/-! ## Budgets (R190) -/

/-- The rate, in samples per second, of an entry's sink domain. -/
def State.sinkRate (s : State) (t : Tab) (e : REnt) : Nat :=
  match s.epDom t false e.sink with
  | some d => s.rateHz d
  | none => 0

/-- The run-time record of entry `i`, not one that fades out. -/
def State.runOf (s : State) (i : Nat) : Option RRun := s.rt.run.find? (fun r => r.idx == i && r.mode != 3)

/-- An entry that is off through an ancestor with EN = 0 still fades, or will fade from this check's boundary on. -/
def State.fades (s : State) (n : Tab) (e : REnt) : Bool :=
  s.rt.run.any (fun r => r.idx == e.idx && (if r.mode == 3 then decide (r.j < r.n)
    else r.cur.live && decide (0 < (s.rampOf tabActive n e.idx false (e.err == 0)).1)))

/-- The entry is counted in W and in the delay sum. -/
def State.counted (s : State) (n : Tab) (e : REnt) : Bool := e.err == 0 && (!e.dis || s.fades n e)

/-- Remove entries from the highest index downward while `total` of the counted ones exceeds `limit`. The list comes
highest index first; `f` gives an entry's cost and `can` whether it may go. -/
def removeDown (limit : Nat) (f : REnt → Nat) (can : REnt → Bool) (code : Nat) : Nat → List REnt → List REnt
  | _, [] => []
  | total, e :: l =>
    if limit < total && can e then { e with err := code, on := false } :: removeDown limit f can code (total - f e) l
    else e :: removeDown limit f can code total l

/-- Both budgets applied to entries in ascending order (R190); the load W after removal comes with them. -/
def State.budgets (s : State) (t : Tab) (es : List REnt) : List REnt × Nat :=
  let cost := fun e => if s.counted t e then s.sinkRate t e else 0
  let down := es.reverse
  let w := (down.map cost).foldl (· + ·) 0
  let d1 := removeDown 393216000 cost (fun e => s.counted t e) 4 w down
  let dl := fun (e : REnt) => if s.counted t e then e.delay else 0
  let d2 := removeDown 32768 dl (fun e => s.counted t e && decide (0 < e.delay)) 5 ((d1.map dl).foldl (· + ·) 0) d1
  (d2.reverse, (d2.map cost).foldl (· + ·) 0)

/-! ## Ranking (R203, R204) -/

/-- A link between units: its key, source unit and sink unit. -/
structure Link where
  key : Nat
  src : Nat
  dst : Nat
  deriving DecidableEq, Repr

/-- The enabled Umber units whose sidechain is a source of its own, each with its SC_SRC. -/
def State.sidechains (s : State) (t : Tab) : List (Nat × Nat) :=
  (s.umbsOn t).filterMap (fun u =>
    let w := s.umbW t u 0
    if w.testBit 24 then some (u, fieldOf w 0 12) else none)

/-- The links whose source and sink are units, in ascending key. -/
def State.unitLinks (s : State) (t : Tab) (es : List REnt) : List Link :=
  (es.filter (fun e => e.err == 0 && isUnit e.sink && isUnit e.src)).map (fun e => ⟨e.idx, e.src, e.sink⟩) ++
  ((s.sidechains t).filter (fun p => isUnit p.2)).map (fun p => ⟨2048 + p.1, p.2, 0x500 + p.1⟩)

/-- The units that links lead to from the units in `seen`, with `k` rounds. -/
def reach (ls : List Link) : Nat → List Nat → List Nat
  | 0, seen => seen
  | k + 1, seen =>
    let new := (ls.filter (fun l => seen.contains l.src && !seen.contains l.dst)).map (fun l => l.dst)
    if new.isEmpty then seen else reach ls k (seen ++ new)

/-- The links taken and those that close a cycle, in ascending key (R204, the first pass). -/
def breakLoops (ls : List Link) : List Link × List Nat :=
  ls.foldl (fun (a : List Link × List Nat) l =>
    if (reach a.1 (a.1.length + 1) [l.dst]).contains l.src then (a.1, a.2 ++ [l.key]) else (a.1 ++ [l], a.2)) ([], [])

/-- The rank of a unit in a list of ranks; a unit that is not listed has rank 1. -/
def rankIn (rs : List (Nat × Nat)) (u : Nat) : Nat :=
  match rs.find? (fun p => p.1 == u) with
  | some p => p.2
  | none => 1

/-- Ranks by `k` rounds of R203 over the links taken; a link from a source of rank `cap` does not count (R204). -/
def ranks (cap : Nat) (us : List Nat) (ls : List Link) : Nat → List (Nat × Nat) → List (Nat × Nat)
  | 0, rs => rs
  | k + 1, rs =>
    let rs' := us.map (fun u =>
      (u, 1 + (ls.filter (fun l => l.dst == u)).foldl (fun m l =>
        if rankIn rs l.src < cap then max m (rankIn rs l.src) else m) 0))
    if rs' == rs then rs else ranks cap us ls k rs'

/-- The ranks of the units `us` and of those that only the links name. -/
def ranksOf (cap : Nat) (us : List Nat) (ls : List Link) : List (Nat × Nat) :=
  let all := us ++ (ls.flatMap (fun l => [l.src, l.dst])).eraseDups.filter (fun u => !us.contains u)
  ranks cap all ls (2 * ls.length + us.length + 1) (all.map (fun u => (u, 1)))

/-- Insert in ascending rank, after equal ranks. -/
def rankIns (p : Nat × Nat) : List (Nat × Nat) → List (Nat × Nat)
  | [] => [p]
  | q :: l => if p.2 < q.2 then p :: q :: l else q :: rankIns p l

/-- The units that are late sources (R62): any route into the input, or the sidechain source, has a late source. -/
def lateUnits (es : List REnt) (sc : List (Nat × Nat)) : Nat → List Nat → List Nat
  | 0, us => us
  | k + 1, us =>
    let late := fun (id : Nat) => isEngine id || us.contains id
    let new := ((es.filter (fun e => e.err == 0 && isUnit e.sink && late e.src && !us.contains e.sink)).map (fun e => e.sink)) ++
      ((sc.filter (fun p => late p.2 && !us.contains (0x500 + p.1))).map (fun p => 0x500 + p.1))
    if new.isEmpty then us else lateUnits es sc k (us ++ new)

/-! ## The check (R188, R190, R203, R204) -/

/-- The MODE and DOMAIN codes of Umber set `u` are valid (Table 07-8). -/
def State.umbCodes (s : State) (t : Tab) (u : Nat) : Bool :=
  let w := s.umbW t u 0
  decide (fieldOf w 28 3 < 4) && decide (fieldOf w 26 2 < 3)

/-- Umber unit `u` is enabled with valid codes (Table 07-8). -/
def State.umbValid (s : State) (t : Tab) (u : Nat) : Bool := (s.umbW t u 0).testBit 31 && s.umbCodes t u

/-- The group of a LINK value before exclusions: enabled units alone (DESIGN CHOICE, log 140). -/
def State.linkGroup (s : State) (t : Tab) (k : Nat) : List Nat :=
  (s.umbsOn t).filter (fun u => k != 0 && s.umbValid t u && fieldOf (s.umbW t u 0) 16 4 == k)

/-- The members that stay: the first eight that share the leader's domain (R208). -/
def State.linkMembers (s : State) (t : Tab) (k : Nat) : List Nat :=
  match s.linkGroup t k with
  | [] => []
  | a :: l => (a :: l).take 8 |>.filter (fun u => fieldOf (s.umbW t u 0) 26 2 == fieldOf (s.umbW t a 0) 26 2)

/-- Some unit is excluded from its link group (R208). -/
def State.linkErr (s : State) (t : Tab) : Bool :=
  (List.range 16).any (fun k => (s.linkMembers t k).length != (s.linkGroup t k).length)

/-- The check of tables `t`: what it finds, and the status bits it sets (R188, R190, R195, R203, R204, R205, R208). -/
def State.check (s : State) (t : Tab) : Check × State :=
  let r := (s.routesOn t).map (fun i => s.resolveEntry t i)
  let b := s.budgets t (r.map (fun p => p.1))
  let es := b.1
  let clip := r.any (fun p => p.2 && es.any (fun e => e.idx == p.1.idx && e.live))
  let sc := s.sidechains t
  let taken := breakLoops (s.unitLinks t es)
  let on := (s.nodesOn t).map (fun n => 0x400 + n) ++ (s.umbsOn t).map (fun u => 0x500 + u)
  let us := on ++ ((es.filter (fun e => e.err == 0 && isUnit e.sink)).map (fun e => e.sink)).eraseDups.filter (fun u => !on.contains u)
  let rk := ranksOf 16 us taken.1
  let rest := (taken.1.filter (fun l => rankIn rk l.src == 16)).map (fun l => l.key)
  let delayed := taken.2 ++ rest
  let lateU := lateUnits es sc (us.length + es.length + 1) []
  let es2 := es.map (fun e => { e with
    late := delayed.contains e.idx || (isEngine e.sink && (isEngine e.src || lateU.contains e.src)) })
  let has := fun (k : Nat) => es2.any (fun (e : REnt) => e.err == k)
  let meets := fun (k : Nat) => (s.routesOn t).any (fun i => s.entCond t i k)
  let nodeBad := (List.range 256).any (fun n => fieldOf (s.nodeW t n 0) 28 2 == 3)
  let umbBad := (List.range 32).any (fun u => !s.umbCodes t u)
  let s1 := (((((((((s.setIf (meets 1) F.rtStatusIdErr).setIf (meets 2 || nodeBad) F.rtStatusDomErr).setIf (meets 3)
    F.rtStatusPatchErr).setIf (has 4) F.rtStatusLoadOvf).setIf (has 5) F.rtStatusDlyOvf).setIf (!taken.2.isEmpty)
    F.rtStatusLoop).setIf (!rest.isEmpty) F.rtStatusRankOvf).setIf clip F.rtStatusSat).setIf umbBad
    F.umbStatusCfgErr).setIf (s.linkErr t) F.umbStatusLinkErr
  let s2 := s1.put F.rtLoadW b.2
  let s3 := match es2.find? (fun e => e.err != 0) with
    | some e => s2.wr R.rtErrEntry (BitVec.ofNat 32 (2 ^ 31 + (e.err - 1) * 2 ^ 16 + e.idx))
    | none => s2.wr R.rtErrEntry 0#32
  ({ ents := es2, order := (rk.filter (fun p => us.contains p.1)).foldr rankIns [], scLate := (delayed.filter (fun k => decide (2048 ≤ k))).map (fun k => k - 2048),
     removed := (es2.filter (fun e => e.err == 4 || e.err == 5)).map (fun e => e.idx) }, s3)

/-! ## Transitions at a commit and at an epoch start (R196 to R199, R40) -/

/-- A fresh record of entry `e` with no history, steady. -/
def RRun.fresh (e : REnt) : RRun := ⟨e.idx, e, [], 0, e.gain, 0, false, 0, false⟩

/-- Nothing of the resolved state that R199 speaks of differs. -/
def REnt.sameState (a b : REnt) : Bool :=
  a.live == b.live && (!a.live || (a.ident == b.ident && a.gain == b.gain))

/-- The records of an entry after a commit, from its record `r` before it and the entry `e` of the new check, with N and
the law from Table 07-6 (R196, R197); for a resolved state that changes. -/
def RRun.change (r : RRun) (e : REnt) (n : Nat) (law : Bool) : List RRun :=
  if r.cur.live && e.live && r.cur.ident == e.ident then
    [{ r with cur := e, mode := if n == 0 then 0 else 1, gFrom := r.cur.gain, n := n, law := law, j := 0 }]
  else
    (if r.cur.live && n != 0 then [{ r with mode := 3, gFrom := r.cur.gain, n := n, law := law, j := 0 }] else []) ++
    (if e.live then [{ RRun.fresh e with mode := if n == 0 then 0 else 2, n := n, law := law }] else [])

/-- The records of entry `e` after a commit (R196 to R199). -/
def State.entryAfter (s : State) (o n : Tab) (c : Check) (e : REnt) : List RRun :=
  let r := (s.runOf e.idx).getD (RRun.fresh { e with on := false })
  if r.cur.sameState e then
    (if e.live then [{ r with cur := e }] else []) ++ s.rt.run.filter (fun x => x.idx == e.idx && x.mode == 3)
  else
    let l := s.rampOf o n e.idx (c.removed.contains e.idx || s.rt.chk.removed.contains e.idx) (e.err == 0 && c.ents.contains e)
    r.change e l.1 l.2

/-- The evaluation order once the old contributions among `rs` are placed after the links of the new table: an old
contribution that would close a cycle reads the sample before, as a link that R204 delays does. -/
def State.withFading (s : State) (n : Tab) (c : Check) (rs : List RRun) : Check × List RRun :=
  let old := rs.filter (fun r => r.mode == 3 && !r.cur.late && isUnit r.cur.src && isUnit r.cur.sink)
  if old.isEmpty then (c, rs.map (fun r => { r with back := false }))
  else
    let ls := (s.unitLinks n (c.ents.filter (fun e => !e.late))).filter (fun l =>
      !(decide (2048 ≤ l.key) && c.scLate.contains (l.key - 2048)))
    let a := old.foldl (fun (a : List Link × List Nat) r =>
      if (reach a.1 (a.1.length + 1) [r.cur.sink]).contains r.cur.src then (a.1, a.2 ++ [r.idx])
      else (a.1 ++ [⟨r.idx, r.cur.src, r.cur.sink⟩], a.2)) (ls, [])
    let us := c.order.map (fun p => p.1)
    let rk := ranksOf (us.length + a.1.length + 1) us a.1
    ({ c with order := (rk.filter (fun p => us.contains p.1)).foldr rankIns [] },
      rs.map (fun r => { r with back := r.mode == 3 && a.2.contains r.idx && !r.cur.late }))

/-- The records after a commit that swaps tables `o` for `n`, from the check `c` of `n`. -/
def State.applyCheck (s : State) (o n : Tab) (c : Check) : State :=
  let gone := (s.rt.run.filter (fun r => r.mode != 3 && !c.ents.any (fun e => e.idx == r.idx))).map (fun r =>
    { r.cur with on := false })
  let stray := s.rt.run.filter (fun r => r.mode == 3 && !c.ents.any (fun e => e.idx == r.idx) &&
    !gone.any (fun e => e.idx == r.idx))
  let r := s.withFading n c ((c.ents ++ gone).flatMap (fun e => s.entryAfter o n c e) ++ stray)
  { s with rt := { s.rt with chk := r.1, next := none, run := r.2 } }

/-- The records at an epoch start: every transition ended and every history empty (R40, R189, R199). -/
def State.epochCheck (s : State) (c : Check) : State :=
  { s with rt := { s.rt with
      chk := c
      next := none
      run := (c.ents.filter (fun e => e.live)).map RRun.fresh } }

/-- The record is in a transition or gain ramp. -/
def RRun.busy (r : RRun) : Bool := r.mode != 0 && decide (r.j < r.n)

/-- RT_XF_BUSY.COUNT: entries in a transition or gain ramp. -/
def State.xfBusy (s : State) : Nat := (s.rt.run.filter (fun r => r.busy &&
  !(r.mode == 3 && s.rt.run.any (fun x => x.idx == r.idx && x.mode != 3 && x.busy)))).length

/-- TRANSITION_END: entry `i` has had sample N, and only the new contribution remains (R196, R197). -/
def State.transitionEnd (s : State) (i : Nat) : State :=
  { s with rt := { s.rt with run := (s.rt.run.filter (fun r => !(r.idx == i && r.mode == 3 && !r.busy))).map (fun r =>
      if r.idx == i && !r.busy then { r with mode := 0 } else r) } }

def execTransitionEnd (i : Nat) (s : State) : Out := .next (s.transitionEnd i)

end Sys2Proof.Machine
end

