-- ==== Sys2Proof/Machine/Umber.lean ====
section
/-! DEFINITION. The Umber dynamics units (R205 to R208). Levels and applied gains are in units of 2^-24 dB. What the spec leaves
open, the last ±0.01 dB of the fixed-point logarithm, smoothing and exponential, comes from `Config`. -/

namespace Sys2Proof.Machine

/-- 0.01 dB, the bound of R206. -/
def umbTol : Int := 167772

/-- A free error held within ±0.01 dB. -/
def clampErr (e : Int) : Int := max (-umbTol) (min umbTol e)

/-- The look-ahead line and envelopes of a unit that has none. -/
def Umb.zero : Umb := ⟨0, 0, [], none, 0, 0, 0, 0, false⟩

/-- Unit `u`'s state. -/
def State.umb (s : State) (u : Nat) : Umb := spGet (fun _ => Umb.zero) s.rt.umbs u
/-- Unit `u`'s state set. -/
def State.setUmb (s : State) (u : Nat) (x : Umb) : State := { s with rt := { s.rt with umbs := spPut u x s.rt.umbs } }

/-- The physical value v of vehicle signal `i`, in units of 2^-16, from its raw value in force (R412, R413). -/
def State.sigV (s : State) (i : Nat) : Int :=
  if 48 ≤ i then Config.noSignal i
  else
    let w := fun k => s.rd (0x080D0800 + 32 * i + 4 * k)
    let raw := s.rd (R.canSigval i)
    let r : Int := if (w 0).getLsbD 29 then raw.toInt else raw.toNat
    (satTo 32 (asr (r * (w 1).toInt + 128) 8 + (w 2).toInt)).1

/-- A field whose stated range ends at `hi`: a value above it acts as `Config` says. -/
def umbF (word hi v : Nat) : Nat := if v ≤ hi then v else Config.umbField word v

/-- The threshold T_eff (R206, step 2). -/
def State.umbThresh (s : State) (t : Tab) (u : Nat) : Int :=
  let th : Int := -((min (fieldOf (s.umbW t u 1) 16 10) 960 * 2 ^ 24 / 10 : Nat) : Int)
  let w7 := s.umbW t u 7
  if w7.testBit 31 then max (-(96 * 2 ^ 24 : Nat)) (min 0 (th + sx 16 w7 * s.sigV (fieldOf w7 16 6))) else th

/-- The static gain g_c for a distance `d` from the threshold (Table 07-9): `mode`, RATIO `ratio`, KNEE `kn` and RANGE
`range` as written. -/
def umbStatic (mode ratio kn range : Nat) (d : Int) : Int :=
  let r : Int := ((max ratio 256 : Nat) : Int)
  let k : Int := (kn * 2 ^ 24 : Nat)
  let inf := ratio == 0
  let floor96 : Int := -(96 * 2 ^ 24 : Nat)
  if mode ≤ 1 then
    let num : Int := if inf || mode == 1 then -256 else 256 - r
    let den : Int := if inf || mode == 1 then 256 else r
    if 20 * d ≤ -k then 0
    else if k ≤ 20 * d then num * d / den
    else num * ((20 * d + k) * (20 * d + k)) / (den * (80 * k))
  else if mode == 2 then
    if k ≤ 20 * d then 0
    else if inf then floor96
    else if 20 * d ≤ -k then max floor96 ((r - 256) * d / 256)
    else max floor96 (-((r - 256) * ((20 * d - k) * (20 * d - k)) / (256 * (80 * k))))
  else
    let rg : Int := (range * 2 ^ 24 : Nat)
    if k ≤ 20 * d then 0
    else if 20 * d ≤ -k then -rg
    else -(rg * (k - 20 * d) / (2 * k))

/-- The unit that governs `u`: the leader of its link group, or itself (R208). -/
def State.umbLead (s : State) (t : Tab) (u : Nat) : Nat :=
  let ms := s.linkMembers t (fieldOf (s.umbW t u 0) 16 4)
  if ms.contains u then ms.headD u else u

/-- The units whose levels govern `u` (R208). -/
def State.umbGroup (s : State) (t : Tab) (u : Nat) : List Nat :=
  let ms := s.linkMembers t (fieldOf (s.umbW t u 0) 16 4)
  if ms.contains u then ms else [u]

/-- The sample rate of unit `u`'s domain. -/
def State.umbRate (s : State) (t : Tab) (u : Nat) : Nat :=
  match domOf (fieldOf (s.umbW t u 0) 26 2) with
  | some d => s.rateHz d
  | none => 0

/-- The level L of a sidechain sample `x`, and the RMS envelope after it (R206, step 1). -/
def State.umbLevel (s : State) (t : Tab) (u : Nat) (x : Word) : State :=
  let lead := s.umbLead t u
  let f := s.umbRate t u
  let o := s.umb u
  let mag := x.toInt.natAbs
  if (s.umbW t lead 0).testBit 25 then
    let rt := max 1 (min 1000 (fieldOf (s.umbW t lead 6) 0 10))
    let m := ((o.m : Int) + rnd (((mag * mag * 2 ^ 34 : Nat) - (o.m : Int)) * expAlpha 10000 (rt * f)) 62).toNat
    let l := if m == 0 then Config.umbLevelZero
      else (log2Fix m - (95 * 2 ^ 32 : Nat)) * 6619719610838 / (2 ^ 49 : Nat)
    s.setUmb u { o with m := m, lev := if m == 0 then l else l + clampErr (Config.umbLevelErr l) }
  else
    let l := (log2Fix (max mag 1) - (31 * 2 ^ 32 : Nat)) * 6619719610838 / (2 ^ 48 : Nat)
    s.setUmb u { o with lev := l + clampErr (Config.umbLevelErr l) }

/-- LOOKAHEAD as it acts on unit `u`, in microseconds (Table 07-8, R208). -/
def State.umbLook (s : State) (t : Tab) (u : Nat) : Nat := min 5000 (fieldOf (s.umbW t (s.umbLead t u) 5) 0 13)

/-- The look-ahead delay D in samples (R206, step 5). -/
def State.umbDelay (s : State) (t : Tab) (u : Nat) : Nat :=
  (2 * s.umbLook t u * s.umbRate t (s.umbLead t u) + 1000000) / 2000000

/-- A unit that has no record yet gets one: the delay in force, and the level of a sample of 0 (R206 to R208). -/
def State.umbStart (s : State) (t : Tab) (u : Nat) : State :=
  if s.rt.umbs.any (fun p => p.1 == u) then s
  else (s.setUmb u { Umb.zero with dly := s.umbDelay t u, look := s.umbLook t u }).umbLevel t u 0#32

/-- The gain of a unit as it applies it: the formula's g, within the ±0.01 dB of R206. -/
def Umb.gain (x : Umb) : Int := rnd x.g 16 + clampErr (Config.umbGainErr x.g)

/-- The smoothed gain for the members of `u`'s group (R206 steps 2 to 4, R208): every member takes it. It follows the formula;
the fixed-point error does not enter the next sample. -/
def State.umbGain (s : State) (t : Tab) (u : Nat) : State :=
  let lead := s.umbLead t u
  let ms := s.umbGroup t u
  let f := s.umbRate t lead
  let l := ms.foldl (fun a v => max a (s.umb v).lev) (s.umb u).lev
  let mode := fieldOf (s.umbW t lead 0) 28 3
  let gc := umbStatic mode (fieldOf (s.umbW t lead 1) 0 16) (umbF 2 240 (fieldOf (s.umbW t lead 2) 16 8))
    (umbF 6 96 (fieldOf (s.umbW t lead 6) 16 8)) (l - s.umbThresh t lead)
  let g := (s.umb lead).g
  let tgt := gc * (2 ^ 16 : Nat)
  let al := if tgt < g then expAlpha 100000 (max 5 (min 50000 (fieldOf (s.umbW t lead 3) 0 19)) * f)
    else expAlpha 10000 (max 50 (min 50000 (fieldOf (s.umbW t lead 4) 0 16)) * f)
  let g' := g + rnd ((tgt - g) * al) 62
  ms.foldl (fun t v => t.setUmb v { t.umb v with g := g' }) s

/-- The sample `d` samples back in a line, 0 where the line has not received it. -/
def lineAt (l : List Word) (d : Nat) : Word := (l[d]?).getD 0#32

/-- Unit `u` takes its input sample `x` and gives its output (R206 step 5, R207). The line keeps its samples
while the unit is disabled (DESIGN CHOICE, log 141). -/
def State.umbOut (s : State) (t : Tab) (u : Nat) (x : Word) : Word × State :=
  let o0 := s.umb u
  let d := s.umbDelay t u
  let lk := s.umbLook t u
  let o1 := if d == o0.dly && lk == o0.look then o0
    else { o0 with old := some (o0.line, o0.dly), line := [], dly := d, look := lk, j := 0 }
  let line := (x :: o1.line).take 4096
  let oldLine := o1.old.map (fun p => ((x :: p.1).take 4096, p.2))
  let xd : Word := match oldLine with
    | none => lineAt line d
    | some p =>
      let w := weightIn false (o1.j + 1) 64
      (sat32 (rnd ((lineAt line d).toInt * w + (lineAt p.1 p.2).toInt * ((2 ^ 31 : Nat) - w)) 31)).1
  let mk := umbF 2 240 (fieldOf (s.umbW t (s.umbLead t u) 2) 0 8)
  let gOut := o1.gain + (mk * 2 ^ 24 / 10 : Nat)
  let y := sat32 (rnd (xd.toInt * pow20 (gOut + clampErr (Config.umbOutErr gOut))) 40)
  let o2 := { o1 with line := line, old := if 63 ≤ o1.j then none else oldLine, j := o1.j + 1 }
  let gr := min 9600 ((2 * (-o1.gain) * 100 + (2 ^ 24 : Nat)) / (2 ^ 25 : Nat)).toNat
  let s1 := ((s.setUmb u o2).setIf y.2 F.umbStatusSat).put (F.umbGrGr u) gr
  (y.1, s1.put (F.umbGrmaxGr u) (max gr (s1.get (F.umbGrmaxGr u))))

end Sys2Proof.Machine
end

