-- ==== Sys2Proof/Machine/Fabric.lean ====
section
/-! DEFINITION. The route fabric in one sample: sink sums, overrides, meters, summing nodes, Umber units and bridges
(R139 to R141, R178 to R180, R189, R192, R196 to R202, R211). -/

namespace Sys2Proof.Machine

/-! ## Sinks (R145, R163, R185, R285) -/

/-- One key for each sink: its ID after aliases, pairs in lockstep and ASRC mapping, and its node input index. -/
def State.sinkKey (s : State) (id inp : Nat) : Nat × Nat :=
  if isEngine id then
    let e := s.aliasOf ((id - 0x200) / 64)
    (0x200 + 64 * (if s.lockstep e then e / 2 * 2 else e) + id % 64, 0)
  else (s.canon 1 id, if isNode id then inp else 0)

/-- The override words that act on a sink's sample delivered in cycle `x` (R137, R139, R141). -/
def State.ovrOf (s : State) (x : Nat) (key : Nat × Nat) : List Nat :=
  (List.range 32).filter (fun m => s.ovrField x (F.ovrSinkEn m) != 0 &&
    s.sinkKey (s.ovrField x (F.ovrSinkSink m)) (s.ovrField x (F.ovrSinkInput m)) == key)

/-- An override word mutes the sink (R140). -/
def State.ovrMutes (s : State) (x : Nat) (key : Nat × Nat) : Bool :=
  (s.ovrOf x key).any (fun m => s.ovrField x (F.ovrWordMode m) % 2 == 1)

/-- The sink's value after its override (R140, R141). -/
def State.overridden (s : State) (x : Nat) (key : Nat × Nat) (y : Word) : Word :=
  if s.ovrMutes x key then 0#32
  else match (s.ovrOf x key).find? (fun m => s.ovrField x (F.ovrWordMode m) == 2) with
    | some m => (sat32 (rnd (y.toInt * (s.ovrField x (F.ovrWordGain m) : Nat)) 22)).1
    | none => y

/-- The ENG_CLK cycle, from the epoch start, of the edge that the machine stands at. -/
def State.edgeCyc (s : State) : Nat := s.sys.qt * s.cA / 4

/-- The cycle in which a sink's sample stamped with the tick that ends is delivered (R139). For an engine input word it lies in
that tick, for a TDM slot in the tick after, which begins here, and for any other sink in the one or at the start of the
other; where an override write comes into force in between, the cycle is free. -/
def State.deliverCyc (s : State) (key : Nat × Nat) : Nat × State :=
  let e := s.edgeCyc
  let b := match s.epDom tabActive false key.1 with
    | some d => (s.sys.qt - s.period d) * s.cA / 4
    | none => e
  if !isTdm key.1 && s.md.ovr.any (fun r => decide (b < r.at_) && decide (r.at_ ≤ e)) then
    (b + s.draw.1.toNat % (e - b + (if isEngine key.1 then 0 else 1)), s.draw.2)
  else (e, s)

/-- The meters of a sink take its value (R211). -/
def State.metered (s : State) (key : Nat × Nat) (y : Word) : State :=
  (List.range 16).foldl (fun (t : State) m =>
    if t.flag (F.rtMtrCfgEn m) && sinkValid (t.get (F.rtMtrCfgSink m)) &&
        t.sinkKey (t.get (F.rtMtrCfgSink m)) (t.get (F.rtMtrCfgInput m)) == key then
      t.put (F.rtMtrPkPeak m) (max (t.get (F.rtMtrPkPeak m)) (min y.toInt.natAbs 0x7FFFFFFF))
    else t) s

/-! ## Source samples -/

/-- The sample of source `id` in the latest stamp, or in the one before. -/
def State.srcNow (s : State) (id : Nat) : Word := spGet (fun _ => 0#32) s.rt.now (s.canon 0 id)
def State.srcPrev (s : State) (id : Nat) : Word := spGet (fun _ => 0#32) s.rt.prev (s.canon 0 id)

/-- The output words of engine `x` are discarded: X of a handover, whose runs from T_D on are Y's to deliver (Table 05-3). -/
def State.outDiscarded (s : State) (x : Nat) : Bool := s.get F.migStatusState == 4 && s.mig.x == x

/-- Word `w` of the engine endpoint `e` as the fabric reads it: through the alias, the voice member, and 0 for a pair
that is MUTED and for discarded words (R146, R147, R161). -/
def State.engineOut (s : State) (e w : Nat) : Word :=
  let x := s.aliasOf e
  if s.get (F.twinStatusState (x / 2)) == 3 || s.outDiscarded x then 0#32 else ng (s.eng (s.voiceFor x)).cap w 0#32

/-- The samples that sources other than nodes and units have now, by rising ID, without zeros. -/
def State.sourceSamples (s : State) : List (Nat × Word) :=
  s.rt.inj ++
  ((List.range 512).filterMap (fun k =>
    let v := s.engineOut (k / 64) (k % 64)
    if v == 0#32 then none else some (0x200 + k, v))) ++
  ((List.range 8).filterMap (fun g => if (s.tg g).cur == 0#32 then none else some (0x5A0 + g, (s.tg g).cur)))

/-- Source `id` lies in a domain of the list. -/
def State.srcIn (s : State) (ds : List RDom) (id : Nat) : Bool :=
  match s.epDom tabActive true id with
  | some d => ds.contains d
  | none => false

/-- Sink `id` lies in a domain of the list. -/
def State.sinkIn (s : State) (ds : List RDom) (id : Nat) : Bool :=
  match s.epDom tabActive false id with
  | some d => ds.contains d
  | none => false

/-- A source sample put among those of the latest stamp. -/
def State.setNow (s : State) (id : Nat) (v : Word) : State :=
  { s with rt := { s.rt with now := spSet (fun _ => 0#32) s.rt.now id v } }

/-- A new stamp in the domains `ds`: their sources' samples move to the stamp before, and the samples of ports, bridges,
engines, buffers and generators come in. -/
def State.newStamp (s : State) (ds : List RDom) : State :=
  let mine := fun (p : Nat × Word) => s.srcIn ds p.1
  let prev := (s.rt.now.filter mine).foldl (fun l p => spPut p.1 p.2 l) (s.rt.prev.filter (fun p => !mine p))
  let now := (s.sourceSamples.filter mine).foldl (fun l p => spSet (fun _ => 0#32) l p.1 p.2)
    (s.rt.now.filter (fun p => !mine p))
  { s with rt := { s.rt with now := now, prev := prev } }

/-! ## Contributions (R189, R192, R196 to R198) -/

/-- One sample of a record, stamped t: its exact contribution in Q4.60 and the record after it. `x` and `p` are its source's
samples stamped t and t − 1; `ok` says that the two endpoints' domains have one rate (R484). An entry that R62 or R204
delays reads the sample stamped t − 1 − DELAY. -/
def RRun.sample (r : RRun) (x p : Word) (ok : Bool) : Int × RRun :=
  let j := if r.mode != 0 && r.j < r.n then r.j + 1 else r.j
  let hist := ((if ok then p else 0#32) :: r.hist).take 64
  let at0 := r.cur.delay + (if r.cur.late || r.back then 1 else 0)
  let xv := (if hist.length ≤ r.cur.delay then 0#32 else if at0 == 0 then x else (hist[at0 - 1]?).getD 0#32).toInt
  let g : Int := if r.mode == 1 then r.gFrom + ((r.cur.gain - r.gFrom) * (j : Nat) + ((r.n / 2 : Nat) : Int)) / (r.n : Nat)
    else if r.mode == 3 then r.gFrom else r.cur.gain
  let c : Int := match r.mode with
    | 2 => rnd (xv * g * weightIn r.law j r.n) 31
    | 3 => rnd (xv * g * weightIn r.law (r.n - j) r.n) 31
    | _ => xv * g
  (if ok then c else 0, { r with j := j, hist := hist })

/-- A sink being summed: its key, the sink ID of its first entry, and the sum. -/
structure SinkSum where
  key : Nat × Nat
  id : Nat
  sum : Int
  deriving DecidableEq, Repr

/-- Add a contribution to its sink. -/
def addSum (key : Nat × Nat) (id : Nat) (c : Int) : List SinkSum → List SinkSum
  | [] => [⟨key, id, c⟩]
  | a :: l => if a.key = key then { a with sum := a.sum + c } :: l else a :: addSum key id c l

/-- Every record whose sink meets `p` takes one sample; the sums come with the state. -/
def State.sumRuns (s : State) (p : Nat → Bool) : List SinkSum × State :=
  let step := fun (a : List SinkSum × List RRun) (r : RRun) =>
    if p r.cur.sink then
      let v := r.sample (s.srcNow r.cur.src) (s.srcPrev r.cur.src) (s.sameRate tabActive r.cur.src r.cur.sink)
      (addSum (s.sinkKey r.cur.sink r.cur.inp) r.cur.sink v.1 a.1, a.2 ++ [v.2])
    else (a.1, a.2 ++ [r])
  let out := s.rt.run.foldl step ([], [])
  (out.1, { s with rt := { s.rt with run := out.2 } })

/-- The value that a sink delivers: rounded, saturated with its counters, overridden and metered (R139, R192, R211). -/
def State.sinkValue (s : State) (a : SinkSum) : Word × State :=
  let y := sat32 (rnd a.sum 29)
  let s1 := if y.2 then
      ((s.bump F.rtSatCntCount 1).put F.rtStatusSat 1).wr R.rtSatSink (BitVec.ofNat 32 (a.key.2 * 2 ^ 12 + a.id))
    else s
  let c := s1.deliverCyc a.key
  let v := c.2.overridden c.1 a.key y.1
  (v, c.2.metered a.key v)

/-- The values of a list of sums, with the state. -/
def State.sinkValues (s : State) (l : List SinkSum) : List ((Nat × Nat) × Word) × State :=
  l.foldl (fun (a : List ((Nat × Nat) × Word) × State) x =>
    let r := a.2.sinkValue x
    (a.1 ++ [(x.key, r.1)], r.2)) ([], s)

/-- The value of a sink in a list of values, 0 where it is not listed. -/
def valueOf (l : List ((Nat × Nat) × Word)) (key : Nat × Nat) : Word :=
  match l.find? (fun p => p.1 == key) with
  | some p => p.2
  | none => 0#32

/-! ## Summing nodes (R201, R202) -/

/-- A node with nothing in it. -/
def Node.zero : Node := ⟨0, 2 ^ 31, 2 ^ 31, 2 ^ 31, 0, 0, false⟩
/-- Node `n`'s state. -/
def State.node (s : State) (n : Nat) : Node := spGet (fun _ => Node.zero) s.rt.nodes n
/-- Node `n`'s state set. -/
def State.setNode (s : State) (n : Nat) (x : Node) : State := { s with rt := { s.rt with nodes := spPut n x s.rt.nodes } }

/-- The target scale s(N) for a node's word 0 and TABLE (R202). -/
def State.nodeTarget (s : State) (t : Tab) (n na : Nat) : Nat :=
  match fieldOf (s.nodeW t n 0) 24 2 with
  | 0 => 2 ^ 31
  | 1 => if na == 0 then 2 ^ 31 else (2 ^ 32 + na) / (2 * na)
  | 2 => if na == 0 then 2 ^ 31 else (isqrt (2 ^ 64 / na) + 1) / 2
  | _ => s.nodeW t n (8 + (min (max na 1) 8 - 1))

/-- K of a node: values 11 to 15 act as 10. -/
def State.nodeK (s : State) (t : Tab) (n : Nat) : Nat := min 10 (fieldOf (s.nodeW t n 0) 16 4)

/-- The scale of sample `j` of a node's ramp (R196, R202). -/
def Node.scaleAt (x : Node) (j : Nat) : Nat :=
  ((x.sFrom : Int) + (((x.sTo : Int) - x.sFrom) * (j : Nat) + (2 ^ x.k / 2 : Nat)) / (2 ^ x.k : Nat)).toNat

/-- One sample of a node's ramp. -/
def Node.advance (x : Node) : Node := if x.j < 2 ^ x.k then { x with j := x.j + 1, scale := x.scaleAt (x.j + 1) } else x

/-- A new target: the ramp restarts from the current scale with the next sample (R202). -/
def Node.retarget (x : Node) (tg k : Nat) : Node := { x with sFrom := x.scale, sTo := tg, k := k, j := 0 }

/-- A node at rest at a scale. -/
def Node.rest (x : Node) (tg : Nat) : Node := { x with scale := tg, sFrom := tg, sTo := tg, k := 0, j := 1, live := true }

/-- The gate of a node input (key 32 n + i). -/
def State.gate (s : State) (key : Nat) : Option Gate := s.rt.gates.find? (fun g => g.key == key)
/-- The gate set. -/
def State.setGate (s : State) (g : Gate) : State :=
  { s with rt := { s.rt with gates := g :: s.rt.gates.filter (fun x => x.key != g.key) } }

/-- Input `i` of node `n` needs the activity gate. -/
def State.gated (s : State) (t : Tab) (n i : Nat) : Bool := (s.nodeW t n 1).testBit i

/-- B: samples in a gate block of a domain at rate `f` (R201). -/
def gateBlock (f : Nat) : Nat := f / 100

/-- A gated input measures a value in the sample stamped `t` of a domain at rate `f` (R201). -/
def State.gateSample (s : State) (key t f : Nat) (v : Word) : State :=
  let b := gateBlock f
  let g := (s.gate key).getD ⟨key, false, 0, false, none⟩
  let g1 := if t % b == 0 then { g with acc := 0, whole := true } else g
  let acc := g1.acc + v.toInt.natAbs * v.toInt.natAbs
  s.setGate { g1 with acc := acc, last := if t % b == b - 1 && g1.whole then some acc else g1.last }

/-- Input `i` of node `n` is active in this sample (R201). -/
def State.inputActive (s : State) (n i : Nat) : Bool :=
  let key := (0x400 + n, i)
  s.rt.run.any (fun r => r.mode != 3 && r.cur.live && s.sinkKey r.cur.sink r.cur.inp == key && s.srcRunning r.cur.src) &&
  !s.ovrMutes s.edgeCyc key &&
  (!s.gated tabActive n i || (match s.gate (32 * n + i) with
    | some g => g.opened
    | none => false))

/-- One sample of node `n`, stamped `t` in a domain at rate `f`, from the values that enter its inputs. -/
def State.nodeSample (s : State) (n t f : Nat) (vals : List ((Nat × Nat) × Word)) : State :=
  let na := ((List.range 32).filter (fun i => s.inputActive n i)).length
  let s1 := (List.range 32).foldl (fun (u : State) i =>
    if u.gated tabActive n i then u.gateSample (32 * n + i) t f (valueOf vals (0x400 + n, i)) else u) s
  let x := s1.node n
  let tg := s1.nodeTarget tabActive n na
  let x1 := if !x.live then x.rest tg
    else
      let y := x.advance
      if tg == y.sTo then y else y.retarget tg (s1.nodeK tabActive n)
  let sum : Int := (vals.filter (fun p => p.1.1 == 0x400 + n)).foldl (fun a p => a + p.2.toInt) 0
  let y := sat32 (rnd ((x1.scale : Int) * sum) 31)
  let s2 := (s1.setNode n { x1 with nact := na }).setNow (0x400 + n) y.1
  ((s2.setIf y.2 (F.sumStatSat n)).put (F.sumStatNact n) na).put (F.sumStatRamp n) (b2n (decide (x1.j < 2 ^ x1.k)))

/-- GATE_BLOCK_END: the gates of node `n` take the state that the completed block decides: open when its mean square is at
least 5 × 10^-10 of full scale squared (R201). -/
def State.gateBlockEnd (s : State) (n f : Nat) : State :=
  { s with rt := { s.rt with gates := s.rt.gates.map (fun g =>
      if g.key / 32 == n then
        match g.last with
        | some a => { g with opened := decide (gateBlock f * 2 ^ 62 ≤ a * 2000000000), last := none }
        | none => g
      else g) } }

/-- SCALE_RAMP_END: a ramp that has had its last sample reads as ended (R202). -/
def State.scaleRampEnd (s : State) (n : Nat) : State :=
  let x := s.node n
  if x.live && decide (2 ^ x.k ≤ x.j) then s.put (F.sumStatRamp n) 0 else s

/-! ## Units in rank order (R203, R206) -/

/-- A source named by a sidechain, in unit `u`'s domain; 0 where the domains differ. -/
def State.sideSample (s : State) (u : Nat) (vals : List ((Nat × Nat) × Word)) : Word :=
  let w := s.umbW tabActive u 0
  if w.testBit 24 then
    let id := fieldOf w 0 12
    if srcValid id && s.epDom tabActive true id == domOf (fieldOf w 26 2) then
      if s.rt.chk.scLate.contains u then s.srcPrev id else s.srcNow id
    else 0#32
  else valueOf vals (0x500 + u, 0)

/-- The units of rank `r` in the domains `ds`. -/
def State.unitsAt (s : State) (ds : List RDom) (r : Nat) : List Nat :=
  (s.rt.chk.order.filter (fun p => p.2 == r && s.srcIn ds p.1)).map (fun p => p.1)

/-- Unit `u` has an ON entry into its input whose source is running (Table 07-2). -/
def State.umbFed (s : State) (u : Nat) : Bool :=
  s.rt.run.any (fun r => r.mode != 3 && r.cur.live && r.cur.sink == 0x500 + u && s.srcRunning r.cur.src)

/-- The Umber units of one rank take their samples: levels first, then each group's gain at its first member, then the
outputs. -/
def State.umbSamples (s : State) (us : List Nat) (vals : List ((Nat × Nat) × Word)) : State :=
  let ok := us.filter (fun u => s.umbValid tabActive u)
  let s0 := (ok.flatMap (fun u => s.umbGroup tabActive u)).foldl (fun (t : State) u => t.umbStart tabActive u) s
  let s1 := ok.foldl (fun (t : State) u => t.umbLevel tabActive u (t.sideSample u vals)) s0
  let rk := fun (u : Nat) => rankIn s1.rt.chk.order (0x500 + u)
  let first := fun (u : Nat) =>
    let ms := s1.umbGroup tabActive u
    let lo := ms.foldl (fun m v => min m (rk v)) (rk u)
    (ms.find? (fun v => rk v == lo)).getD u
  let s2 := (ok.filter (fun u => first u == u)).foldl (fun (t : State) u => t.umbGain tabActive u) s1
  ok.foldl (fun (t : State) u =>
    let r := t.umbOut tabActive u (valueOf vals (0x500 + u, 0))
    (r.2.setNow (0x500 + u) r.1).setUmb u { r.2.umb u with run := t.umbFed u }) s2

/-- One rank: the sums into its units, then the units. -/
def State.rankSample (s : State) (ds : List RDom) (r : Nat) : State :=
  let us := s.unitsAt ds r
  let a := s.sumRuns (fun id => us.contains id && s.sinkIn ds id)
  let v := a.2.sinkValues a.1
  let s1 := (us.filter (fun id => isNode id && (s.nodeW tabActive (id - 0x400) 0).testBit 31)).foldl (fun (t : State) id =>
    match t.epDom tabActive true id with
    | some d => t.nodeSample (id - 0x400) (t.stampEnded d) (t.rateHz d) v.1
    | none => t) v.2
  s1.umbSamples ((us.filter isUmb).map (fun id => id - 0x500)) v.1

/-! ## Delivery (R61, R145, R161, R178, R281, R285) -/

/-- The engines that an input word of engine `e` reaches: both of a pair in LOCKSTEP; X and Y of a migration or join in
progress for a sample addressed to X, and from E_T on for one addressed to Y (R145, R155, R161, R162). -/
def State.inputTargets (s : State) (e : Nat) : List Nat :=
  let pair := if s.lockstep e then [e / 2 * 2, e / 2 * 2 + 1] else [e]
  let st := s.get F.migStatusState
  let both := (s.mig.kind == 1 || s.mig.kind == 2 || (s.mig.kind == 3 && s.mig.srcEn)) && decide (2 ≤ st)
  let more := if both && (pair.contains s.mig.x || (st == 4 && pair.contains s.mig.y)) then [s.mig.x, s.mig.y] else []
  pair ++ more.filter (fun x => !pair.contains x)

/-- A sink takes its value; the input of a unit that is off keeps none. -/
def State.deliver (s : State) (key : Nat × Nat) (v : Word) : State :=
  if isUnit key.1 then s
  else if isEngine key.1 then
    (s.inputTargets ((key.1 - 0x200) / 64)).foldl (fun t e => t.setEng e (fun g => { g with pend := ns g.pend (key.1 % 64) v })) s
  else { s with rt := { s.rt with sinks := spSet (fun _ => 0#32) s.rt.sinks key.1 v } }

/-- The sinks outside the units, and the inputs of units that are off, take their values: those that no entry reaches get
0 (R192). -/
def State.deliverAll (s : State) (ds : List RDom) : State :=
  let a := s.sumRuns (fun id => !(isUnit id && s.rt.chk.order.any (fun p => p.1 == id)) && s.sinkIn ds id)
  let v := a.2.sinkValues a.1
  let s1 := { v.2 with rt := { v.2.rt with sinks := v.2.rt.sinks.filter (fun p => !s.sinkIn ds p.1) } }
  v.1.foldl (fun (t : State) p => t.deliver p.1 p.2) s1

/-! ## Bridges (R178 to R180) -/

/-- Bridge `b` runs (RUN or STOP_PENDING). -/
def State.brRuns (s : State) (b : Nat) : Bool := s.get (F.brStatusState b) == 2 || s.get (F.brStatusState b) == 3

/-- The samples delivered to a running bridge's inputs go into its histories. -/
def State.brIn (s : State) (ds : List RDom) : State :=
  (List.range 16).foldl (fun (t : State) b =>
    if t.brRuns b && t.sinkIn ds (0xC0 + 8 * b) then
      let r := ng t.rt.br b ⟨Vector.replicate 8 []⟩
      let h := Vector.ofFn (fun (c : Fin 8) => spGet (fun _ => 0#32) t.rt.sinks (0xC0 + 8 * b + c.val) :: r.hist[c].take 2047)
      { t with rt := { t.rt with br := ns t.rt.br b { r with hist := h } } }
    else t) s

/-- A source sample of a port, channel, bridge or buffer for the tick that ends. -/
def State.inject (s : State) (id : Nat) (v : Word) : State :=
  { s with rt := { s.rt with inj := spSet (fun _ => 0#32) s.rt.inj id v } }

/-- The tap that a bridge with tick lengths `pi` and `po` on its two sides applies to an input sample that stands `x` before the
output sample, both in 1/256 of a quarter tick: a response that is symmetric about L and ends 28 samples of the lower rate on
either side of it (R180, R181). -/
def brTap (k : Config.BridgeFir) (pi po trim : Nat) (x : Int) : Int :=
  let off := (x - ((28 * max pi po + pi + po) * 256 + trim * po : Nat)).natAbs
  if off ≤ 28 * max pi po * 256 then k.tap pi po off else 0

/-- The sum of a bridge's taps over the input samples `h`, newest first, where the newest stands `x` before the output. -/
def brSum (k : Config.BridgeFir) (pi po trim : Nat) : Int → List Word → Int
  | _, [] => 0
  | x, v :: h => v.toInt * brTap k pi po trim x + brSum k pi po trim (x + (pi * 256 : Nat)) h

/-- An output sample of a bridge, rounded and saturated; the flag says that it clipped (R180). -/
def State.brSample (s : State) (pi po trim : Nat) (x : Int) (h : List Word) : (Word × Bool) × State :=
  match Config.bridge with
  | some k => (sat32 (rnd (brSum k pi po trim x h) 48), s)
  | none => ((s.draw.1, false), s.draw.2)

/-- How far the newest delivered input sample stands before the output sample of the tick that ends, in 1/256 quarter ticks. -/
def brLead (q pi po : Nat) : Int := ((q : Int) - po - (((q - 1) / pi * pi : Nat) - (pi : Int))) * (256 : Nat)

/-- Each running bridge produces one output sample per channel for the tick of its output domain that ends (R180); a
bridge that does not run reads 0. -/
def State.brOut (s : State) (ds : List RDom) : State :=
  (List.range 16).foldl (fun (t : State) b =>
    if t.srcIn ds (0xC0 + 8 * b) then
      if t.brRuns b then
        let r := ng t.rt.br b ⟨Vector.replicate 8 []⟩
        let per := fun (d : Option RDom) => match d with
          | some x => t.period x
          | none => 0
        let pi := per (domOf (t.get (F.brCfgInDom b)))
        let po := per (domOf (t.get (F.brCfgOutDom b)))
        (List.range 8).foldl (fun (u : State) c =>
          let y := u.brSample pi po (t.get (F.brCfgTrim b)) (brLead t.sys.qt pi po) (ng r.hist c [])
          (y.2.setIf y.1.2 (F.brStatusSat b)).inject (0xC0 + 8 * b + c) y.1.1) t
      else (List.range 8).foldl (fun (u : State) c => u.inject (0xC0 + 8 * b + c) 0#32) t
    else t) s

/-- The whole fabric in the samples that end at this edge in the domains `ds` (R189, R203). -/
def State.fabric (s : State) (ds : List RDom) : State :=
  let s1 := (s.brOut ds).newStamp ds
  let top := s1.rt.chk.order.foldl (fun m p => max m p.2) 0
  let s2 := (List.range top).foldl (fun (t : State) r => t.rankSample ds (r + 1)) s1
  (s2.deliverAll ds).brIn ds

/-! ## Effects of a commit on nodes, units and gates (R201, R202, R207) -/

/-- LAW, K or TABLE of a node differ (R202). -/
def State.scaleChanged (s : State) (o n : Tab) (k : Nat) : Bool :=
  fieldOf (s.nodeW o k 0) 24 2 != fieldOf (s.nodeW n k 0) 24 2 || fieldOf (s.nodeW o k 0) 16 4 != fieldOf (s.nodeW n k 0) 16 4 ||
  (List.range 8).any (fun i => s.nodeW o k (8 + i) != s.nodeW n k (8 + i))

/-- Run-time state that a commit with the tables `n` in place of `o` leaves: new scale targets, and nodes and units removed. A
gate keeps its state while its GATE bit stays 1; the block that a disable cuts is not whole (R201). NACT and RAMP of a node that is
disabled read 0 (DESIGN CHOICE, log 142). -/
def State.unitsAfter (s : State) (o n : Tab) : State :=
  let on := fun (t : Tab) (k : Nat) => (s.nodeW t k 0).testBit 31 && fieldOf (s.nodeW t k 0) 28 2 != 3
  let nodes := (s.rt.nodes.filter (fun p => on n p.1)).map (fun p =>
    if !on o p.1 then (p.1, { p.2 with live := false })
    else
      let tg := s.nodeTarget n p.1 p.2.nact
      if p.2.live && (tg != p.2.sTo || (decide (p.2.j < 2 ^ p.2.k) && s.scaleChanged o n p.1)) then (p.1, p.2.retarget tg (s.nodeK n p.1)) else p)
  let gates := (s.rt.gates.filter (fun g => s.gated n (g.key / 32) (g.key % 32) && s.gated o (g.key / 32) (g.key % 32))).map
    (fun g => if on n (g.key / 32) then g else { g with whole := false })
  let off := (s.nodesOn o).filter (fun k => !on n k)
  let s1 := off.foldl (fun (t : State) k =>
    let t1 := (t.put (F.sumStatNact k) 0).put (F.sumStatRamp k) 0
    if (s.epDom n true (0x400 + k)).isSome then t1 else t1.setNow (0x400 + k) 0#32) s
  let uoff := (s.umbsOn o).filter (fun u => !s.umbValid n u)
  let s2 := uoff.foldl (fun (t : State) u =>
    let t1 := t.setUmb u { t.umb u with run := false }
    if (s.epDom n true (0x500 + u)).isSome then t1 else t1.setNow (0x500 + u) 0#32) s1
  { s2 with rt := { s2.rt with nodes := nodes, gates := gates } }

/-- The fabric at an epoch start: histories, envelopes, gates, ramps and node states are zero (R36, R201, R202, R207). -/
def State.fabricZero (s : State) : State :=
  let s1 := (List.range 256).foldl (fun (t : State) k =>
    if (t.rd (R.sumStat k)) == 0#32 then t else (t.put (F.sumStatNact k) 0).put (F.sumStatRamp k) 0) s
  let s2 := (List.range 32).foldl (fun (t : State) u => t.put (F.umbGrGr u) 0) s1
  { s2 with rt := { s2.rt with
      nodes := []
      gates := []
      umbs := []
      now := []
      prev := []
      inj := []
      sinks := []
      run := s2.rt.run.map (fun r => { r with hist := [] })
      br := Vector.replicate 16 ⟨Vector.replicate 8 []⟩ } }

/-- The rate of node `n`'s domain. -/
def State.nodeRate (s : State) (n : Nat) : Nat :=
  match s.epDom tabActive true (0x400 + n) with
  | some d => s.rateHz d
  | none => 0

def execGateBlockEnd (n : Nat) (s : State) : Out := .next (s.gateBlockEnd n (s.nodeRate n))
def execScaleRampEnd (n : Nat) (s : State) : Out := .next (s.scaleRampEnd n)

end Sys2Proof.Machine
end

