-- ==== Sys2Proof/Machine/Commit.lean ====
section
/-! DEFINITION. The cutoff and the swap of a Mordant commit (R118 to R122, R40, R163). -/

namespace Sys2Proof.Machine

/-- The commit enables a node or an Umber unit in a domain that is not in use, or moves one there (R30, R118). -/
def State.enablesUnused (s : State) (mask : Nat) : Bool :=
  let n := tabAfter mask
  let unused := fun (v : Nat) => match domOf v with
    | some d => !s.inUse d
    | none => false
  (mask.testBit 9 && (s.nodesOn n).any (fun k => unused (fieldOf (s.nodeW n k 0) 28 2))) ||
  (mask.testBit 10 && (s.umbsOn n).any (fun u => unused (fieldOf (s.umbW n u 0) 26 2)))

/-- A held write waits for an object of the mask. -/
def State.heldFor (s : State) (mask : Nat) : Bool :=
  s.md.held.any (fun h => match objOf h.addr with
    | some k => mask.testBit k
    | none => false)

/-- The accumulating commit may freeze at the cutoff of a boundary `b` that is a common boundary (R118). -/
def State.mayFreeze (s : State) (c : Commit) (b : Nat) : Bool :=
  s.md.frz.isNone && s.reconMask &&& c.mask == 0 && !s.heldFor c.mask && (!s.enablesUnused c.mask || isRateSet b)

/-- A commit that is already frozen for the first tick of the next epoch takes in the accumulating one, so that both apply
there: R40 makes an exception for a reconcile alone. -/
def State.joinFrozen (s : State) : State :=
  match s.md.frz, s.md.acc with
  | some f, some c =>
    if s.md.frzEpoch && s.reconMask &&& c.mask == 0 then
      ({ s with md := { s.md with
          frz := some ⟨f.mask ||| c.mask, c.seq, c.src, c.reqs.foldl (fun (l : List (Nat × Nat)) (p : Nat × Nat) => spPut p.1 p.2 l) f.reqs⟩, acc := none } }.put
        F.mdStatusPending 0).put F.mdPendMask 0
    else s
  | _, _ => s

/-- The commit freezes for the boundary `b`; `ep` says that it is the first tick of the next epoch. A commit that names a
table is checked with the copies that will be active (R188, R203); for the first tick of an epoch, EPOCH_START makes that
check. -/
def State.freeze (s : State) (c : Commit) (b : Nat) (ep : Bool) : State :=
  let s1 := { s with md := { s.md with frz := some c, acc := none, frzAt := b, frzEpoch := ep } }
  let s2 := ((s1.put F.mdStatusFrozen 1).put F.mdStatusPending 0).put F.mdPendMask 0
  if c.mask / 2 ^ 8 == 0 || ep then s2
  else
    let r := s2.check (tabAfter c.mask)
    { r.2 with rt := { r.2.rt with next := some r.1 } }

/-- COMMIT_CUTOFF: the cutoff of the next domain-A boundary, or of the first tick of the next epoch while no epoch runs
(R118, R40). -/
def State.commitCutoff (s : State) : State :=
  match s.md.acc with
  | none => s
  | some c =>
    if s.runs then
      let b := s.tickNo + 1
      if s.isCommon b && s.beforeCutoff && s.mayFreeze c b then (s.freeze c b false).toCutoff else s
    else if s.mayFreeze c 0 then s.freeze c 0 true
    else s.joinFrozen

/-- Every named table swaps its copies (R120). -/
def State.swapTables (s : State) (mask : Nat) : State :=
  let sw := fun (t : State) (k a b n : Nat) => if mask.testBit k then t.regSwap a b n else t
  sw (sw (sw (sw s 8 0x08030000 0x08038000 0x8000) 9 0x08040000 0x08044000 0x4000) 10 0x08050000 0x08050800 0x800)
    11 0x08048000 0x0804A000 0x2000

/-- Every named engine swaps its set (R120). -/
def State.swapEngines (s : State) (mask : Nat) : State :=
  (List.range 8).foldl (fun (t : State) e => if mask.testBit e then t.swapEngine e else t) s

/-- The status that a commit leaves at E_B (R122). -/
def State.commitStatus (s : State) (c : Commit) : State :=
  let s1 := (s.put F.mdStatusCount (s.get F.mdStatusCount + 1)).put F.mdStatusSrc c.src
  let s2 := ((s1.put F.mdAppliedLoTstampLo (s.tstamp % 2 ^ 32)).put F.mdAppliedHiTstampHi (s.tstamp / 2 ^ 32)).put
    F.mdAppliedHiSeq c.seq
  let s3 := c.reqs.foldl (fun (t : State) p => t.put (F.mdHostAppSeq p.1) p.2) s2
  s3.put F.mdStatusFrozen 0

/-- The reconcile starts over the named objects, behind those in progress (R125). -/
def State.reconStart (s : State) (mask : Nat) : State :=
  if mask == 0 then s
  else
    ({ s with md := { s.md with recons := s.md.recons ++ [mask] } }).reconShow

/-- A pending MIG_ALIAS takes effect with a commit that names ROUTE (R163). -/
def State.aliasApply (s : State) (mask : Nat) : State :=
  match s.mig.aliasPend with
  | some v => if mask.testBit 8 then { s with mig := { s.mig with aliasPend := none } }.wr R.migAlias v else s
  | none => s

/-- COMMIT_APPLY: the frozen commit applies at E_B (R120, R122, R125, R163, R196); where a drain begins it waits for the new
epoch (R40). -/
def State.commitApply (s : State) : State :=
  match s.commitDue with
  | none => s
  | some c =>
    if !s.runs || s.endsHere then s
    else
      let n := tabAfter c.mask
      let s1 := if c.mask / 2 ^ 8 == 0 then s
        else match s.rt.next with
          | some k => (s.unitsAfter tabActive n).applyCheck tabActive n k
          | none => s
      let s2 := ((s1.swapEngines c.mask).swapTables c.mask).aliasApply c.mask
      let s3 := { s2 with md := { s2.md with frz := none, frzEpoch := false } }
      ((s3.commitStatus c).reconStart c.mask).useSync

def execCommitCutoff (s : State) : Out := .next s.commitCutoff

end Sys2Proof.Machine
end

