-- ==== Sys2Proof/Machine/Drift.lean ====
section
/-! DEFINITION. Clock values that move between commands: the PLLs' multipliers, outputs, ceiling and band memory, a PLL that
seeks its lock, and Ochre's steering and slew (R302 to R308, R324 to R326, R329). -/

namespace Sys2Proof.Machine

/-- The codes of TPn_STATUS.STATE. -/
def tpStopped : Nat := 0
def tpRun : Nat := 1
def tpResync : Nat := 2
def tpLost : Nat := 3

/-- TPn_STATUS.STATE. -/
def State.tpState (s : State) (n : Nat) : Nat := s.get (F.tpStatusState n)
/-- S, W and F of a port (R274). -/
def State.tpWidth (s : State) (n : Nat) : Nat := 16 + 8 * s.get (F.tpCfgWidth n)
def State.tpF (s : State) (n : Nat) : Nat := s.tpSlots n * s.tpWidth n
/-- Port `n` is a master. -/
def State.tpMaster (s : State) (n : Nat) : Bool := s.flag (F.tpCfgMaster n)

/-- The port is a master whose clock comes from the APLL. -/
def State.tpApll (s : State) (n : Nat) : Bool := s.tpMaster n && s.get (F.tpCfgClksrc n) == 0

/-- Clock group `k` runs. -/
def State.pdmOn (s : State) (k : Nat) : Bool := (s.get F.pdmStatusRun).testBit k
/-! ## Ochre's steering (R324 to R326) -/

/-- The codes of OC_STATE.STATE, and of OC_REF_STATr.STATE. -/
def ocFreerun : Nat := 0
def ocLocked : Nat := 1
def ocHoldover : Nat := 2
def ocHalt : Nat := 3
def rfOff : Nat := 0
def rfFailed : Nat := 1
def rfQual : Nat := 2
def rfWtr : Nat := 3
def rfAvail : Nat := 4

/-- OC_STATE.STATE, and SEL. -/
def State.ocSt (s : State) : Nat := s.get F.ocStateState
def State.ocSel (s : State) : Nat := s.get F.ocStateSel

/-- Ochre changed. -/
def State.setOc (s : State) (g : Ochre → Ochre) : State := { s with oc := g s.oc }
/-- SLEW_MAX in ppm, and in units of 2^-32 (OC_SLEW_MAX). -/
def State.slewPpm (s : State) : Nat := max 1 (min 500 (s.get F.ocSlewMaxSlewMax))
def ppm32 (x : Nat) : Int := (x * 2 ^ 32 / 1000000 : Nat)

/-- `x` held within ±`b`. -/
def holdIn (b x : Int) : Int := max (-b) (min b x)

/-- The remaining phase, and s in force, slew included (R325, R326). -/
def State.ocRem (s : State) : Int := s.oc.remA + s.oc.remS
def State.ocS (s : State) : Int :=
  let d := ppm32 s.slewPpm
  holdIn (ppm32 2500) (if s.ocRem == 0 then s.oc.s0 else if s.ocRem < 0 then s.oc.s0 + d else s.oc.s0 - d)

/-- The seconds that the holdover value averages, and the value (R324). -/
def State.hoSecs (s : State) : List Int :=
  let w := s.get F.ocLoopHoWin
  ((s.oc.means.filter (fun p => decide (s.get F.ocLoopHoldGuard ≤ p.2))).map (·.1)).take (if w == 0 || decide (64 < w) then 64 else w)
def State.hoValue (s : State) : Int :=
  let l := s.hoSecs
  if l.isEmpty then 0 else l.foldl (fun (a : Int) x => a + x) 0 / (l.length : Nat)

/-- OC_FREQ, OC_HOFREQ, OC_PHASE_REM, HO_VALID and SLEWING follow the state. -/
def State.ocShow (s : State) : State :=
  let s1 := (s.wr R.ocFreq (wrap32 s.ocS)).wr R.ocPhaseRem (wrap32 s.ocRem)
  let s2 := (s1.put F.ocStateHoValid (b2n (!s.hoSecs.isEmpty))).put F.ocStateSlewing (b2n (s.ocRem != 0))
  s2.wr R.ocHofreq (wrap32 s.hoValue)

/-- `x` less the part `n` of its size that a slew has carried out. -/
def lessBy (x : Int) (n : Nat) : Int := if 0 ≤ x then x - n else x + n

/-- A slew carries out `n` of the remaining phase (R326): the part comes from the alignment and the step remainders that
point the way of the whole, in a free division `w`; when nothing remains, both are 0. -/
def Ochre.slew (o : Ochre) (n w : Nat) : Ochre :=
  let r := o.remA + o.remS
  if n = r.natAbs then { o with remA := 0, remS := 0, moved := o.moved - r }
  else
    let along := fun (x : Int) => if decide (0 ≤ x) == decide (0 ≤ r) then x.natAbs else 0
    let lo := n - along o.remS
    let a := lo + w % (min n (along o.remA) - lo + 1)
    { o with remA := lessBy o.remA a, remS := lessBy o.remS (n - a), moved := o.moved - (if 0 ≤ r then (n : Int) else -(n : Int)) }

/-- The remainder as it stands now: how far a slew has come since it was last looked at is a free value (R326). Between a
loss of the APLL or a change of family and the start of the next epoch it is kept (R329). -/
def State.ocProgress (s : State) : State :=
  if s.ocRem == 0 || s.oc.held then s
  else
    let r1 := s.draw
    let r2 := r1.2.draw
    r2.2.setOc (fun o => o.slew (r1.1.toNat % (s.ocRem.natAbs + 1)) r2.1.toNat)

/-! ## The PLLs (R302 to R308) -/

/-- The codes of PLLp_STATUS.STATE. -/
def plOff : Nat := 0
def plSearch : Nat := 1
def plHop : Nat := 2
def plAcquire : Nat := 3
def plLocked : Nat := 4
def plRetune : Nat := 5
def plGated : Nat := 6

/-- PLL `p` is LOCKED. -/
def State.pllLocked (s : State) (p : Nat) : Bool := s.flag (F.pllStatusLocked p)

/-- The PLLs' own state changed. -/
def State.setClk (s : State) (g : Clk → Clk) : State := { s with clk := g s.clk }

/-- A multiplier as a fraction: NINT + NUM ÷ DEN. -/
structure Mult where
  num : Nat
  den : Nat
  deriving DecidableEq, Repr

/-- The multiplier that NINT, NUM and DEN name. -/
def multOf (nint num den : Nat) : Mult := ⟨nint * den + num, max 1 den⟩

/-- A multiplier in units of 2^-40, cut toward 0: the steps of a retune are counted so. -/
def Mult.fix (m : Mult) : Nat := m.num * 2 ^ 40 / max 1 m.den

/-- The family nominal of the APLL: NINT, NUM, DEN (R309). -/
def nomFam (fam : Bool) : Nat × Nat × Nat := if fam then (96, 0, 1) else (88, 1, 5)

/-- The multiplier of a family nominal. -/
def nomMult (fam : Bool) : Mult := multOf (nomFam fam).1 (nomFam fam).2.1 (nomFam fam).2.2

/-- The multiplier that PLL1_MULT and the DEN in force name: the target of a retune. -/
def State.pllGoal (s : State) : Mult := multOf (s.get (F.pllMultNint 1)) (s.get (F.pllMultNum 1)) s.clk.den

/-- The multiplier that PLL `p` follows: 130 + 5/24, or the APLL's, which during a retune lies on its way (R308). -/
def State.pllCur (s : State) (p : Nat) : Mult :=
  if p = 0 then multOf 130 5 24 else if s.clk.cur == s.pllGoal.fix then s.pllGoal else ⟨s.clk.cur, 2 ^ 40⟩

/-- The nominal multiplier of PLL `p`, which the checks of R308 use: what NINT, NUM and DEN name, wherever the DCO is on its way. -/
def State.pllNom (s : State) (p : Nat) : Mult := if p = 0 then multOf 130 5 24 else s.pllGoal

/-- A trim applies: the APLL's multiplier is not its family's nominal (R309, R322). -/
def State.trimmed (s : State) : Bool :=
  let n := nomMult (famOf (cfgFsa s.domAct))
  s.pllGoal.num * n.den != n.num * s.pllGoal.den

/-! ## Outputs (Table 11-2) -/

/-- Output `k` of PLL `p` is enabled. -/
def State.outEn (s : State) (p k : Nat) : Bool :=
  if p = 0 then true
  else if k = 0 then s.pllLocked 1
  else if k < 5 then s.flag (F.pllOutCfgEn 1 k)
  else if k < 11 then s.tpApll (k - 5) && s.tpState (k - 5) != tpStopped
  else s.pdmOn (k - 11)

/-- The divider of output `k` in force. -/
def State.outDiv (s : State) (p k : Nat) : Nat :=
  if p = 0 then s.get (F.pllOutCfgDiv 0 k)
  else if k = 0 then 4
  else if k < 5 then s.get (F.pllOutCfgDiv 1 k)
  else if k < 11 then (if s.tpF (k - 5) = 0 then 0 else 4 * s.cA / s.tpF (k - 5))
  else 4 * fieldOf (s.pdmCfg (k - 11)).toNat 0 16

/-- The number of outputs of PLL `p`. -/
def outCount (p : Nat) : Nat := if p = 0 then 4 else 14

/-- The nominal frequency of divider `d` at multiplier `m`, raised by `ppm`, does not exceed `fmax` MHz. -/
def freqOk (m : Mult) (ppm fmax d : Nat) : Bool :=
  decide (24576000 * m.num * (1000000 + ppm) ≤ fmax * 10 ^ 12 * d * m.den)

/-- The ppm by which a nominal is raised in the checks of R308: the largest steering on the APLL. -/
def ceilPpm (p : Nat) : Nat := if p = 0 then 0 else 2500

/-- Output `k` of PLL `p` counts in the checks of R308; ENG_CLK always does. -/
def State.outOn (s : State) (p k : Nat) : Bool := s.outEn p k || (p == 1 && k == 0)

/-- FMAX × DIV of output `k`: the DCO frequency, in MHz, that puts it at its FMAX. -/
def State.outRoom (s : State) (p k : Nat) : Nat := s.get (F.pllOutCfgFmax p k) * s.outDiv p k

/-- A write that takes PLL `p` from `s` at the nominal multiplier `m` to `t` at `m'` puts an enabled output above its FMAX: one that
ends above it, and that was not enabled or stood less far up before (R308). -/
def State.putsAbove (s t : State) (p : Nat) (m m' : Mult) : Bool :=
  (List.range (outCount p)).any (fun k =>
    t.outOn p k && !freqOk m' (ceilPpm p) (t.get (F.pllOutCfgFmax p k)) (t.outDiv p k) &&
    (!s.outOn p k || decide (m.num * m'.den * t.outRoom p k < m'.num * m.den * s.outRoom p k)))

/-- f_CEIL in MHz: the lowest FMAX × DIV over the enabled outputs (R307). -/
def State.fCeil (s : State) (p : Nat) : Nat :=
  (List.range (outCount p)).foldl (fun (m : Nat) k =>
    if s.outOn p k then min m (s.outRoom p k) else m) (2 ^ 40)

/-- The DCO of PLL `p`, which is locked, would run above f_CEIL: the clamp holds it (R307). -/
def State.clamped (s : State) (p : Nat) : Bool :=
  let st : Int := if p = 0 then 0 else s.ocS
  let m := s.pllCur p
  s.pllLocked p &&
    decide (((s.fCeil p * 10 ^ 6 * 2 ^ 32 * m.den : Nat) : Int) < ((24576000 * m.num : Nat) : Int) * (2 ^ 32 + st))

/-- CLAMP_ACT of a locked PLL follows the clamp, and each onset sets CLAMP (R307). -/
def State.clampSync (s : State) : State :=
  (List.range 2).foldl (fun (t : State) p =>
    if t.pllLocked p then
      let c := t.clamped p
      (t.setIf (c && !t.flag (F.pllStatusClampAct p)) (F.pllStatusClamp p)).put (F.pllStatusClampAct p) (b2n c)
    else t) s

/-! ## Band memory (R304) -/

/-- The target DCO frequency of PLL `p` in units of 0.1 MHz, to the nearest. -/
def State.bandKey (s : State) (p : Nat) : Nat :=
  let c := if p = 0 then multOf 130 5 24 else s.pllGoal
  (2 * 24576000 * c.num + 100000 * c.den) / (2 * 100000 * c.den)

/-- The entry of PLL `p` that matches key `x`. -/
def State.bandFind (s : State) (p x : Nat) : Option Nat :=
  (List.range 8).find? (fun k => s.flag (F.pllBandValid p k) && decide (s.get (F.pllBandFkey p k) ≤ x + 1) &&
    decide (x ≤ s.get (F.pllBandFkey p k) + 1))

/-- Entry `k` becomes the most recently used. -/
def State.bandTouch (s : State) (p k : Nat) : State :=
  s.setClk (fun c => { c with lru := ns c.lru p (k :: (ng c.lru p []).filter (fun j => j != k)) })

/-- The entry that a new band takes: an empty one, else the least recently used. -/
def State.bandSlot (s : State) (p : Nat) : Nat :=
  match (List.range 8).find? (fun k => !s.flag (F.pllBandValid p k)) with
  | some k => k
  | none => ((ng s.clk.lru p []).getLast?).getD 0 % 8

/-- The band of PLL `p` is used, or found and stored; which DCO band it is, is a free value. -/
def State.bandUse (s : State) (p : Nat) : State :=
  let x := s.bandKey p
  match s.bandFind p x with
  | some k => s.bandTouch p k
  | none =>
    let k := s.bandSlot p
    let r := s.draw
    (r.2.wr (R.pllBand p k) (BitVec.ofNat 32 (2 ^ 31 + r.1.toNat % 1024 * 2 ^ 16 + x % 2 ^ 16))).bandTouch p k

/-- PLL `p` searches, hops or acquires. -/
def State.pllSeeks (s : State) (p : Nat) : Bool := [plSearch, plHop, plAcquire].contains (s.get (F.pllStatusState p))

/-- How far a seeking PLL has come, and what its clamp does, are free values between its start and its lock: the band search
or load has given way to the fine acquisition, with the band stored (R304); the clamp acts now, or acted since (R307). -/
def State.pllWander (s : State) (p : Nat) : State :=
  if !s.pllSeeks p then s
  else
    let r := s.draw
    let act := r.1.getLsbD 2
    let s1 := if s.get (F.pllStatusState p) != plAcquire && r.1.getLsbD 0 then (r.2.bandUse p).put (F.pllStatusState p) plAcquire
      else r.2
    (s1.setIf (r.1.getLsbD 1 || (act && !s.flag (F.pllStatusClampAct p))) (F.pllStatusClamp p)).put (F.pllStatusClampAct p) (b2n act)

/-- What has moved by now: the seek of each PLL, and the slew with what shows it. -/
def State.drift (s : State) : State := (((s.pllWander 0).pllWander 1).ocProgress.ocShow).clampSync

end Sys2Proof.Machine
end

