-- ==== Sys2Proof/Machine/Peek.lean ====
section
/-! DEFINITION. What registers show that are not stored words, and the snapshot (R12, R32, R49, R56, R72, R450 to R452). -/

namespace Sys2Proof.Machine

/-! ## Interrupt outputs (R396) -/

/-- MD_STATUS.COUNT[0] (Table 13-4). -/
def State.side (s : State) : Bool := s.get F.mdStatusCount % 2 == 1

/-- Any register of a row of `n` at stride `st` has a bit of [lo, lo+w) set. -/
def State.anySet (s : State) (a st n lo w : Nat) : Bool :=
  (List.range n).any (fun i => fieldOf (s.rd (a + st * i)).toNat lo w != 0)

/-- Source `i` of Table 13-7 is active for host `h` (R396). -/
def State.irqSrc (s : State) (h i : Nat) : Bool :=
  match i with
  | 0 => s.get (F.vatCplStatCount h) != 0 && s.flag (F.vatCplStatIe h)
  | 1 => (List.range 32).any (fun n => (s.rd R.dmaEvt).getLsbD n && s.flag (F.dmaCtrlIrqEn n) && s.get (F.dmaCtrlIrqHost n) == h)
  | 2 => s.get (F.hpHdbellPend h) != 0
  | 3 => (List.range 4).any (fun p => s.flag (F.twinStatusTwinMismatch p))
  | 4 => s.anySet R.ocState 4 1 16 4
  | 5 => s.anySet (R.tpStatus 0) 0x1000 6 8 10 || s.anySet (R.asrcStatus 0) 0x20 8 4 5 || s.rd R.pdmStuckEvt != 0#32
  | 6 => s.rd R.vatOvrLo != 0#32 || s.rd R.vatOvrHi != 0#32
  | 7 => s.flag (F.pllStatusLol 0) || s.flag (F.pllStatusLol 1) || s.flag F.clkXtalXtalLoss
  | 8 => s.flag F.vermStatusWiped
  | 9 => s.rd R.canToEvtLo != 0#32 || s.rd R.canToEvtHi != 0#32 || s.anySet R.canStatus 4 1 8 3 || s.rd R.evtStatus != 0#32 ||
      s.flag F.chimeStatusPlayed
  | 10 => s.rd R.pwrEvt != 0#32 || s.anySet R.thermStatus 4 1 17 3 || s.flag F.otpStatusDone
  | _ => false

/-- HPn_IRQ_STAT. -/
def State.irqStat (s : State) (h : Nat) : Nat :=
  (List.range 11).foldl (fun (x : Nat) i => if s.irqSrc h i then x + 2 ^ i else x) 0

/-- IRQn_N is driven low (R396). -/
def State.irqOut (s : State) (h : Nat) : Bool := (s.irqStat h &&& s.get (F.hpIrqEnEn h)) != 0

/-- The RESET reply of port `h`, built now (R389, Table 13-4). -/
def State.resetNow (s : State) (h : Nat) : Reply := resetReply (b2n s.side) (b2n (s.irqOut h))

/-! ## Views -/

/-- A 64-bit count with the epoch number above its bits [47:32]: the high half of a stamp pair (Table 01-11). -/
def State.hiEpoch (s : State) (x : Nat) : Word := BitVec.ofNat 32 (s.get F.sysEpochEpoch * 2 ^ 16 + x / 2 ^ 32)

/-- A register of TEn at offset `o` (Table 02-6): all read 0 while the cluster is not powered. -/
def State.viewTe (s : State) (e o : Nat) : Word :=
  let g := s.eng e
  if !s.tePowered e then 0#32
  else if o = 0x18 then
    match s.engDom e with
    | some d => BitVec.ofNat 32 (s.wp d)
    | none => 0#32
  else if 0x40 ≤ o ∧ o < 0x80 then ng g.live ((o - 0x40) / 4) 0#32
  else if 0x80 ≤ o ∧ o < 0x100 then ng g.insD ((o - 0x80) / 4) 0#32
  else if 0x100 ≤ o ∧ o < 0x140 then
    let a := ng g.insA ((o - 0x100) / 8) 0#34
    if o % 8 = 0 then BitVec.ofNat 32 (a.toNat / 2 ^ 16) else BitVec.ofNat 32 (a.toNat % 2 ^ 16)
  else s.rd (0x08010000 + 0x1000 * e + o)

/-- Frames in the IN FIFO of port `n`. -/
def State.inFrames (s : State) (n : Nat) : Nat := ((s.tp.toList[n]?).map (fun p => p.inF.length)).getD 0

/-- ASRC_DLYg of a locked group, in units of 2^-16 tick: the time of the frames in the IN FIFO and the converter's delay of 1.2 ms
± 1 / F_low (R287). -/
def State.asrcDly (s : State) (g : Nat) : Nat :=
  let ratio := s.get (F.asrcRatioRatio g)
  let frames := s.inFrames (s.get (F.asrcCfgPort g))
  let fsA := fsaHz (cfgFsa s.domAct)
  let rate := (domOf (s.get (F.asrcCfgDom g))).elim 0 s.rateHz
  let frame := fsA * 2 ^ 40 / (rate * ratio)
  let mid := frames * fsA * 2 ^ 40 / (rate * ratio) + 12 * fsA * 2 ^ 16 / 10000
  let tol := max (fsA * 2 ^ 16 / rate) frame
  max (mid - tol) (min (mid + tol) (Config.asrcDelay ratio frames))

/-- The boot sequencer can read: the SPLL runs, and it is at step 6 or past the boot. -/
def State.bootReads (s : State) : Bool :=
  s.pllLocked 0 && s.powered 1 && (s.boot.step == 6 || s.boot.step == 11)

/-- The warm-start record is marked valid: step 6 reads it before it turns to the flash (R438, R439). -/
def State.recordMarked (s : State) : Bool :=
  s.rw 0x07000000 == 0x57444C53#32 && s.rw 0x07000004 == 1#32

/-- Step 6 has its first header still to read, and reads the record for it. -/
def State.recordFirst (s : State) : Bool :=
  s.boot.step == 6 && s.boot.ph == 1 && s.boot.tries == 0 && !s.boot.noWarm && s.recordMarked

/-- The boot sequencer has a flash read under way: a header, or a stage that is not taken from the record. -/
def State.bootReading (s : State) : Bool :=
  s.bootReads && ((s.boot.ph == 1 && !s.recordFirst) || s.boot.ph == 2 || (s.boot.ph == 3 && !(s.boot.warm && s.boot.step == 6)))

/-- The boot sequencer masters HP0 (R401): from step 6 until the epoch start that ends the boot, its backoffs among it, and
while it reads the flash afterwards. -/
def State.bootMasters (s : State) (h : Nat) : Bool :=
  h == 0 && ((decide (6 ≤ s.boot.step) && decide (s.boot.step ≤ 10)) ||
    (s.boot.step == 11 && decide (1 ≤ s.boot.ph) && decide (s.boot.ph ≤ 3)))

/-- HPn_STATUS: SEL, EXEC and REPLY_RDY show the port (Table 13-11). SEL_N is low whoever drives it: the other end, a master frame of
the port, or a flash read of the boot sequencer. -/
def State.viewHpStatus (s : State) (h : Nat) : Word :=
  let p := ng s.hp h Port.fresh
  let run := p.req.isSome || p.built.isSome
  let sel := p.low || p.mrun || (s.bootMasters h && s.bootReading)
  BitVec.ofNat 32 (putField (putField (putField (s.rd (R.hpStatus h)).toNat 0 1 (b2n sel)) 1 1 (b2n run)) 2 1 (b2n p.ready.isSome))

/-- The value that a read of the register at `a` finds, before any effect of the read; `rd` where the word is stored.
PLLp_PHERR of a PLL that compares phases is a free value. -/
def State.view (s : State) (a : Nat) : Word :=
  if 0x08010000 ≤ a ∧ a < 0x08018000 then s.viewTe ((a - 0x08010000) / 0x1000) (a % 0x1000)
  else if a = R.sysTstampLo then BitVec.ofNat 32 (s.tstamp % 2 ^ 32)
  else if a = R.sysTstampHi then s.hiEpoch s.tstamp
  else if a = R.domDtickbLo then BitVec.ofNat 32 (s.dtick .b % 2 ^ 32)
  else if a = R.domDtickbHi then s.hiEpoch (s.dtick .b)
  else if a = R.domDtickcLo then BitVec.ofNat 32 (s.dtick .c % 2 ^ 32)
  else if a = R.domDtickcHi then s.hiEpoch (s.dtick .c)
  else if 0x08020C00 ≤ a ∧ a < 0x08020C40 then
    let b := s.glideBusy ((a - 0x08020C00) / 8)
    BitVec.ofNat 32 (if a % 8 = 0 then b % 2 ^ 32 else b / 2 ^ 32)
  else if 0x08022100 ≤ a ∧ a < 0x08022200 ∧ a % 16 = 4 then BitVec.ofNat 32 (s.brLat ((a - 0x08022100) / 16))
  else if a = R.rtXfBusy then BitVec.ofNat 32 s.xfBusy
  else if 0x08090000 ≤ a ∧ a < 0x08090100 ∧ a % 32 = 0x10 then
    let g := (a - 0x08090000) / 32
    if s.get (F.asrcStatusState g) == 2 then
      BitVec.ofNat 32 (s.asrcDly g)
    else 0#32
  else if a = R.pllPherr 0 || a = R.pllPherr 1 then
    let st := s.get (F.pllStatusState ((a - R.pllPherr 0) / 0x100))
    if st == 0 || st == 6 then 0#32 else BitVec.ofNat 32 ((Config.freeWord s.free).toNat % 2 ^ 16)
  else if 0x080C0000 ≤ a ∧ a < 0x080C4000 ∧ a % 0x1000 = 0xC then s.viewHpStatus ((a - 0x080C0000) / 0x1000)
  else if a = R.dmaActive then
    BitVec.ofNat 32 ((List.range 32).foldl (fun (x : Nat) n => if s.get (F.dmaStatusState n) == 1 then x ||| (1 <<< n) else x) 0)
  else s.rd a

/-! ## Snapshot (R450 to R452) -/

/-- The register that snapshot copy `i` copies (Table 15-11). -/
def snapReg (i : Nat) : Nat :=
  if i = 0 then R.sysState
  else if i = 1 then R.sysEpoch
  else if i = 2 then R.sysTstampLo
  else if i = 3 then R.sysTstampHi
  else if i < 36 then
    let n := (i - 4) / 4
    match (i - 4) % 4 with
    | 0 => R.teStatus n
    | 1 => R.teSatCnt n
    | 2 => R.teWp n
    | _ => R.teFlags n
  else if i < 42 then
    match i - 36 with
    | 0 => R.mdStatus
    | 1 => R.mdAppliedLo
    | 2 => R.mdAppliedHi
    | 3 => R.mdPend
    | 4 => R.mdRecon
    | _ => R.mdErr
  else if i < 46 then
    match i - 42 with
    | 0 => R.migStatus
    | 1 => R.twinStatus
    | 2 => R.migTactLo
    | _ => R.migTactHi
  else if i = 46 then R.ocState
  else if i = 47 then R.ocFreq
  else if i = 48 then R.ocPhaseRem
  else if i < 58 then R.ocRefStat (i - 49)
  else if i < 63 then
    match i - 58 with
    | 0 => R.pllStatus 0
    | 1 => R.pllPherr 0
    | 2 => R.pllStatus 1
    | 3 => R.pllPherr 1
    | _ => R.clkXtal
  else if i < 81 then
    let n := (i - 63) / 3
    match (i - 63) % 3 with
    | 0 => R.tpStatus n
    | 1 => R.tpSlipCnt n
    | _ => R.tpPeriod n
  else if i < 97 then (if (i - 81) % 2 = 0 then R.asrcStatus ((i - 81) / 2) else R.asrcRatio ((i - 81) / 2))
  else if i = 97 then R.pdmStatus
  else if i = 98 then R.pdmStuck
  else if i = 99 then R.dmaActive
  else if i = 100 then R.dmaEvt
  else if i = 101 then R.rtStatus
  else if i < 118 then R.rtMtrPk (i - 102)
  else if i = 118 then R.umbStatus
  else if i < 151 then R.umbGr (i - 119)
  else if i < 155 then R.hpStatus (i - 151)
  else if i < 159 then R.thermTemp (i - 155)
  else R.thermStatus

/-- The 160 copies latch (R451, R452). -/
def State.latchSnap (s : State) : State :=
  (List.range 160).foldl (fun (t : State) i => { t.wr (R.snapData i) (t.view (snapReg i)) with free := t.free + 1 }) s.drift

/-- The sources that the command fired act on the snapshot (R450): one snapshot when armed, else each counts in MISSED. -/
def State.settle (s : State) : State :=
  let src := s.sys.trig &&& s.get F.snapCtrlEn
  let s1 := { s with sys := { s.sys with trig := 0 } }
  if src == 0 then s1
  else if s.flag F.snapSeqArmed then
    ((s1.latchSnap.put F.snapSeqArmed 0).put F.snapSeqSeq (s.get F.snapSeqSeq + 1)).put F.snapSeqSrc src
  else s1.bump F.snapSeqMissed ((List.range 7).filter (fun k => src.testBit k)).length

/-- ARM: the snapshot is armed and MISSED cleared (SNAP_CTRL.ARM). -/
def State.snapArm (s : State) : State := (s.put F.snapSeqArmed 1).put F.snapSeqMissed 0

/-- A write of SNAP_CTRL: the enables, then ARM, then TRIG (R450, Table 15-14). -/
def State.snapCtrlWrite (s : State) (v : Word) : State :=
  let s1 := s.put F.snapCtrlEn (fieldOf v.toNat 0 7)
  let s2 := if v.getLsbD 31 then s1.snapArm else s1
  if v.getLsbD 30 then (s2.fire 0).settle else s2

/-- SNAP_CTRL may be written by hosts, whom the permission table governs, and by the boot sequencer (R457). -/
def snapWriter (m : Master) : Option Bool :=
  match m with
  | .host _ => some true
  | .boot => some true
  | _ => none

def execArm (m : Master) (s : State) : Out := .next (s.guard (snapWriter m) (fun t => t.snapArm))
def execTrig (m : Master) (s : State) : Out := .next (s.guard (snapWriter m) (fun t => (t.fire 0).settle))

end Sys2Proof.Machine
end

