-- ==== Sys2Proof/Machine/Ochre.lean ====
section
/-! DEFINITION. Ochre, the reference selector and holdover unit (R318 to R329). -/

namespace Sys2Proof.Machine

/-- The frame rate in hertz for an FRATE code. -/
def frateHz (c : Nat) : Nat :=
  match c with
  | 0 => 8000
  | 1 => 11025
  | 2 => 12000
  | 3 => 16000
  | 4 => 22050
  | 5 => 24000
  | 6 => 32000
  | 7 => 44100
  | 8 => 48000
  | 9 => 88200
  | 10 => 96000
  | 11 => 176400
  | _ => 192000

/-- Reference `r`, and reference `r` changed. -/
def State.ref (s : State) (r : Nat) : OcRef := ng s.oc.ref r ⟨false, 0, false⟩
def State.setRef (s : State) (r : Nat) (g : OcRef → OcRef) : State :=
  s.setOc (fun o => { o with ref := ns o.ref r (g (s.ref r)) })

/-- Reference `r` is eligible (Table 11-4). -/
def State.refOk (s : State) (r : Nat) : Bool :=
  decide (r < 2) || (!s.tpMaster (r - 2) && s.get (F.tpStatusState (r - 2)) != 0)

/-- FNOM of reference `r` in hertz (Table 11-4). -/
def State.refHz (s : State) (r : Nat) : Nat :=
  if r < 2 then s.get (F.ocRefinFnomFnom r) else frateHz (s.get (F.tpCfgFrate (r - 2)))

/-- P_r in units of 2^-16 of a domain-A period (R318). -/
def State.refPeriod (s : State) (r : Nat) : Nat := max 1 (fsaHz (cfgFsa s.domAct) * 65536 / max 1 (s.refHz r))

/-! ## Selection (R322, R323) -/

/-- The candidates among references 0 to 7. -/
def State.ocCands (s : State) : List Nat := (List.range 8).filter (fun r => s.get (F.ocRefStatState r) == rfAvail)

/-- The candidates in Ochre's state: reference 8 is one in FREERUN, while its EN is 1 (R322, Table 11-5). -/
def State.ocPool (s : State) : List Nat := s.ocCands ++ if s.ocSt == ocFreerun && s.flag (F.ocRefCfgEn 8) then [8] else []

/-- The lowest RANK among references. -/
def State.bestRank (s : State) (l : List Nat) : Nat := l.foldl (fun (m : Nat) r => min m (s.get (F.ocRefCfgRank r))) 8

/-- The candidates that share the preferred RANK. -/
def State.ocTied (s : State) : List Nat := s.ocPool.filter (fun r => s.get (F.ocRefCfgRank r) == s.bestRank s.ocPool)

/-- MUTUAL_TOL in ppm. -/
def State.mutualTol (s : State) : Nat := max 1 (min 4000 (s.get F.ocSelMutualTol))

/-- Two tied candidates differ by more than MUTUAL_TOL (R323). -/
def State.ocDiffer (s : State) : Bool :=
  s.ocTied.any (fun a => s.ocTied.any (fun b =>
    decide ((10 * s.mutualTol : Nat) < s.getS (F.ocRefStatOffset a) - s.getS (F.ocRefStatOffset b))))

/-- The preferred candidate: of the tied ones the current selection, else the one whose offset is closest to 0, and the lower
index of equally close ones (R323); reference 8 has OFFSET 0. -/
def State.ocPref (s : State) : Option Nat :=
  if s.ocTied.contains s.ocSel then some s.ocSel
  else s.ocTied.foldl (fun (m : Option Nat) r =>
    match m with
    | none => some r
    | some q => if (s.getS (F.ocRefStatOffset r)).natAbs < (s.getS (F.ocRefStatOffset q)).natAbs then some r else m) none

/-- The state and selection with none of references 0 to 7: HOLDOVER when its value is valid, else FREERUN. -/
def State.ocNoneSel (s : State) : Nat × Nat :=
  if s.hoSecs.isEmpty then (ocFreerun, if s.flag (F.ocRefCfgEn 8) then 8 else 15) else (ocHoldover, 15)

/-- FREERUN's selection where no reference is taken (Table 11-5). -/
def State.ocFree (s : State) : Nat × Nat := (ocFreerun, if s.flag (F.ocRefCfgEn 8) then 8 else 15)

/-- FREF, with values above 8 as 8. -/
def State.ocFref (s : State) : Nat := min 8 (s.get F.ocSelFref)

/-- In FREERUN, selecting reference 8 or finding no candidate keeps FREERUN (Table 11-5). -/
def State.ocFromFree (s : State) : Nat × Nat :=
  match s.ocPref with
  | none => s.ocFree
  | some r => if r == 8 then s.ocFree else (ocLocked, r)

/-- The rows of Table 11-5 after FORCE; a disagreement with DIS_ACT 1 selects none of the references, whatever the state (R323). -/
def State.ocRows (s : State) : Nat × Nat :=
  if s.flag F.ocSelDisAct && s.flag F.ocStateDisagree then s.ocNoneSel
  else if s.ocSt == ocHoldover then
    (match s.ocPref with
     | some r => (ocLocked, r)
     | none => (ocHoldover, 15))
  else if s.ocSt == ocFreerun then s.ocFromFree
  else if s.get (F.ocRefStatState s.ocSel) != rfAvail then
    (match s.ocPref with
     | some r => (ocLocked, r)
     | none => s.ocNoneSel)
  else if s.flag F.ocSelRevert && decide (s.bestRank s.ocCands < s.get (F.ocRefCfgRank s.ocSel)) then
    (match s.ocPref with
     | some r => (ocLocked, r)
     | none => (ocLocked, s.ocSel))
  else (ocLocked, s.ocSel)

/-- The state and selection that Table 11-5 gives. -/
def State.ocChoose (s : State) : Nat × Nat :=
  if s.flag F.ocSelForce && s.ocFref == 8 && s.flag (F.ocRefCfgEn 8) then (ocFreerun, 8)
  else if s.flag F.ocSelForce && decide (s.ocFref < 8) && s.ocCands.contains s.ocFref then (ocLocked, s.ocFref)
  else s.ocRows

/-- Ochre takes a state and selection (R322, R324, R326, R328): a newly selected reference brings its alignment, a free
value within ±P_r ÷ 2; HOLDOVER and FREERUN discard the alignment remainder (Table 11-6), and the running second is not one
in which a reference is selected. -/
def State.ocTake (s : State) (st sel : Nat) : State :=
  let s0 := if st == s.ocSt && sel == s.ocSel then s else s.ocProgress
  let s1 := if sel == s0.ocSel then s0 else (s0.put F.ocStateSwitch 1).fire 3
  let enter := st == ocHoldover && s0.ocSt != ocHoldover
  let s2 := if enter then (s1.put F.ocStateHoEntry 1).setOc (fun o => { o with hold := s0.hoValue }) else s1
  let s3 :=
    if st == ocLocked && !(s0.ocSt == ocLocked && sel == s0.ocSel) then
      let p := s2.refPeriod sel
      let r := s2.draw
      r.2.setOc (fun o => { o with remA := ((r.1.toNat % p : Nat) : Int) - (p / 2 : Nat) })
    else if st != ocLocked then s2.setOc (fun o => { o with remA := 0, whole := false })
    else s2
  ((s3.put F.ocStateState st).put F.ocStateSel sel).ocShow

/-- The evaluation of the selection; `win` at the end of a window (R322, R323). -/
def State.ocEval (s : State) (win : Bool) : State :=
  let d := s.ocDiffer
  let n := if d then 0 else if win then min 10 (s.oc.agree + 1) else s.oc.agree
  let act := d || (s.flag F.ocStateDisagree && decide (n < 10))
  let s1 := ((s.setIf d F.ocStateRefDisagree).put F.ocStateDisagree (b2n act)).setOc (fun o => { o with agree := n })
  let c := s1.ocChoose
  s1.ocTake c.1 c.2

/-! ## References (R319 to R321) -/

/-- Reference `r` fails. -/
def State.refFail (s : State) (r : Nat) : State := (s.put (F.ocRefStatState r) rfFailed).setRef r (fun x => { x with cnt := 0 })

/-- LOS of reference `r` (R320, R321), without the evaluation. -/
def State.refLos (s : State) (r : Nat) : State :=
  let s1 := (s.put (F.ocRefStatLos r) 1).setRef r (fun x => { x with losWin := true })
  if s.flag (F.ocRefCfgEn r) then
    (s1.refFail r).wr R.ocRefEvt (s1.rd R.ocRefEvt ||| (1#32 <<< r))
  else s1

/-- REFERENCE_LOS: the selected reference's loss is evaluated at once (R322). -/
def State.ocLos (s : State) (r : Nat) : State :=
  if decide (8 ≤ r) || s.flag (F.ocRefStatLos r) then s
  else
    let s1 := s.refLos r
    if s.ocSt == ocLocked && s.ocSel == r && s.flag (F.ocRefCfgEn r) then s1.ocEval false else s1

/-- Port `n` stops: its reference has LOS at once (Table 11-4, Table 11-6). -/
def State.ocPortStop (s : State) (n : Nat) : State := s.ocLos (n + 2)

/-- The first edge after LOS clears it; a port that is not eligible keeps LOS (Table 11-4). -/
def State.refEdge (s : State) (r : Nat) : State :=
  if decide (r < 8) && s.refOk r then s.put (F.ocRefStatLos r) 0 else s

/-- TOL in units of 0.1 ppm. -/
def State.refTol (s : State) (r : Nat) : Nat := 10 * max 10 (min 2000 (s.get (F.ocRefCfgTol r)))

/-- The count of good windows reaches its goal (R321). -/
def State.refGood (s : State) (r : Nat) : State :=
  let st := s.get (F.ocRefStatState r)
  let k := (s.ref r).cnt + 1
  let wtr := s.get (F.ocRefWtrWtr r)
  if st == rfQual && decide (max 1 (s.get (F.ocRefCfgQualTime r)) ≤ k) then
    (s.put (F.ocRefStatState r) (if (s.ref r).quald && wtr != 0 then rfWtr else rfAvail)).setRef r
      (fun x => { x with cnt := 0, quald := true })
  else if st == rfWtr && decide (wtr ≤ k) then (s.put (F.ocRefStatState r) rfAvail).setRef r (fun x => { x with cnt := 0 })
  else s.setRef r (fun x => { x with cnt := k })

/-- Reference `r` at the end of a window with offset `off` in 0.1 ppm (R319, R321). -/
def State.refWindow (s : State) (r : Nat) (off : Option Int) : State :=
  if !s.flag (F.ocRefCfgEn r) then s.setRef r (fun x => { x with losWin := s.flag (F.ocRefStatLos r) })
  else
    let los := s.flag (F.ocRefStatLos r)
    let st := s.get (F.ocRefStatState r)
    let s0 := s.setRef r (fun x => { x with losWin := los })
    match (if (s.ref r).losWin || los then none else off) with
    | none =>
      if los then s0.refFail r
      else if st == rfFailed then (s0.put (F.ocRefStatState r) rfQual).setRef r (fun x => { x with cnt := 0 })
      else if st == rfAvail then s0
      else s0.setRef r (fun x => { x with cnt := 0 })
    | some v =>
      let drift := decide (s.refTol r < 2 * v.natAbs)
      let s1 := (s0.put (F.ocRefStatOffset r) (tc 16 (holdIn 32767 v))).put (F.ocRefStatDrift r) (b2n drift)
      let s2 := if drift then s1.wr R.ocRefEvt (s1.rd R.ocRefEvt ||| (1#32 <<< (16 + r))) else s1
      if decide (s.refTol r < v.natAbs) then s2.refFail r
      else if st == rfFailed then (s2.put (F.ocRefStatState r) rfQual).setRef r (fun x => { x with cnt := 0 })
      else if st == rfAvail then s2
      else s2.refGood r

/-! ## Steering (R324, R325) -/

/-- `x` moved toward `t` by at most `d`. -/
def toward (x t d : Int) : Int := if t < x then max t (x - d) else min t (x + d)

/-- s at the end of a window: by at most SLEW_MAX per second toward the loop's, the holdover or the free-run value; in
FREERUN a trim leaves s where it is (R322, R325). BW codes above 8 act as 8. Without ENG_CLK, and until the epoch after a
loss of the APLL or a change of family starts, s is kept (R329). -/
def State.ocSteer (s : State) : State :=
  let d : Int := ((s.slewPpm * 2 ^ 32 / 10000000 : Nat) : Int)
  let goal :=
    if s.ocSt == ocLocked then Config.ochreTrack (min 8 (s.get F.ocLoopBw)) s.oc.s0 (s.getS (F.ocRefStatOffset s.ocSel))
    else if s.ocSt == ocHoldover then s.oc.hold
    else if s.trimmed then s.oc.s0
    else 0
  if s.oc.held then s else s.setOc (fun o => { o with s0 := holdIn (ppm32 2500) (toward o.s0 goal d) })

/-- The window joins the mean of the running second (R324): s stood still in it but for the slew, which moved the output by
`moved` units of 2^-16 of a domain-A period in 100 ms. -/
def State.ocSum (s : State) : State :=
  s.setOc (fun o => { o with
    sum := o.sum + o.s0 + o.moved * 655360 / (fsaHz (cfgFsa s.domAct) : Nat)
    n := o.n + 1
    moved := 0 })

/-- OCHRE_WINDOW_END (R319 to R325). -/
def State.ocWindow (s : State) (offs : List Int) : State :=
  if s.ocSt == ocHalt then s
  else
    let s1 := (List.range 8).foldl (fun (t : State) r => t.refWindow r offs[r]?) s
    s1.ocProgress.ocSum.ocSteer.ocEval true

/-- The recorded means when one more second ends: each is a second older, and that second's mean joins them if a reference was selected
all through it (R324). -/
def Ochre.nextMeans (o : Ochre) : List (Int × Nat) :=
  let old := o.means.map (fun p => (p.1, min 15 (p.2 + 1)))
  if o.whole && o.n != 0 then ((o.sum / (o.n : Nat), 0) :: old).take 80 else old

/-- OCHRE_SECOND: a second ends (R324). -/
def State.ocSecond (s : State) : State :=
  (s.setOc (fun o => { o with
    means := o.nextMeans
    sum := 0
    n := 0
    whole := s.ocSt == ocLocked })).ocShow

/-- SLEW_END: the remaining phase is 0 (R326); a slew that is held has not ended (R329). -/
def State.slewEnd (s : State) : State :=
  if s.oc.held then s else (s.setOc (fun o => o.slew s.ocRem.natAbs 0)).ocShow

/-- A write of OC_PHASE_STEP (R327). -/
def State.phaseStep (s : State) (v : Word) : State :=
  let x := sx 22 v.toNat
  if s.ocSt == ocHalt || x == 0 then s
  else
    let s1 := s.ocProgress
    let sum := s1.ocRem + x
    let c := holdIn 2097152 sum
    ((s1.setOc (fun o => { o with
      ofs := o.ofs + x
      remA := if c == 0 then 0 else o.remA
      remS := if c == 0 then 0 else c - o.remA })).setIf (c != sum) F.ocStateStepClamp).ocShow

/-! ## Start, halt and configuration -/

/-- A reference enabled or restarted: QUALIFYING, or FAILED where it has LOS or is not eligible (R317, R321, Table 11-4). -/
def State.refEnable (s : State) (r : Nat) : State :=
  let s1 := if s.refOk r then s else s.put (F.ocRefStatLos r) 1
  (s1.put (F.ocRefStatState r) (if s1.flag (F.ocRefStatLos r) then rfFailed else rfQual)).setRef r
    (fun x => { x with cnt := 0, quald := false, losWin := x.losWin || s1.flag (F.ocRefStatLos r) })

/-- Ochre starts in FREERUN with no holdover history and its first window, and its references requalify (R317, R319, R424). -/
def State.ocStart (s : State) : State :=
  let s1 := (List.range 8).foldl (fun (t : State) r =>
    let u := t.setRef r (fun x => { x with losWin := t.flag (F.ocRefStatLos r) })
    if u.flag (F.ocRefCfgEn r) then u.refEnable r else u) s
  let s2 := s1.put (F.ocRefStatState 8) (if s1.flag (F.ocRefCfgEn 8) then rfAvail else rfOff)
  let s3 := s2.setOc (fun o => { o with means := [], sum := 0, n := 0, whole := false, moved := 0, remA := 0, agree := 0 })
  (((s3.put F.ocStateState ocFreerun).put F.ocStateSel (s3.ocFree).2).put F.ocStateDisagree 0).ocShow

/-- Ochre halts with the crystal (R315). -/
def State.ocHaltNow (s : State) : State :=
  ((s.ocProgress.setOc (fun o => { o with remA := 0 })).put F.ocStateState ocHalt).put F.ocStateSel 15 |>.ocShow

/-- A write of OC_REF_CFGr: TOL is clamped, and EN starts or ends the reference (R321). -/
def State.refCfgWrite (s : State) (r : Nat) (v : Word) : State :=
  let was := s.flag (F.ocRefCfgEn r)
  let on := v.getLsbD 31
  let s1 := s.wr (R.ocRefCfg r) (v &&& 0xF7FF00FF#32)
  let s2 := if r < 8 then s1.put (F.ocRefCfgTol r) (max 10 (min 2000 (fieldOf v.toNat 16 11))) else s1
  if r == 8 then (if s.ocSt == ocHalt then s2 else s2.put (F.ocRefStatState 8) (if on then rfAvail else rfOff))
  else if on && !was then s2.refEnable r
  else if !on && was then s2.put (F.ocRefStatState r) rfOff
  else s2

/-- A write of OC_REFIN_FNOMi: clamped, and ignored while reference i is selected. -/
def State.refinWrite (s : State) (i : Nat) (v : Word) : State :=
  if s.ocSel == i then s else s.put (F.ocRefinFnomFnom i) (max 1000 (min 30000000 (fieldOf v.toNat 0 25)))

/-- A write of OC_SLEW_MAX or OC_LOOP acts at once (Table 11-6). -/
def State.ocPlainWrite (s : State) (a : Nat) (mask v : Word) : State := (s.wr a (v &&& mask)).ocShow


end Sys2Proof.Machine
end

