-- ==== Sys2Proof/Machine/Ports.lean ====
section
/-! DEFINITION. TDM ports, ASRC groups and PDM inputs (R274 to R301). -/

namespace Sys2Proof.Machine

/-- Hosts and the boot sequencer write these blocks; writes from cores and DMA are ignored (R301). -/
def hostOrBoot (m : Master) : Option Bool :=
  match m with
  | .host _ => some true
  | .boot => some true
  | _ => none

/-! ## Port configuration (R274, R277, R284) -/

/-- Port `n`'s run-time state. -/
def Tp.zero : Tp := ⟨[], [], [], [], false, false, false, 0, 0, [], 0, 0, 0, 0, Vector.replicate 16 ⟨0, 0, 0#32, 0#32⟩, []⟩
def State.port (s : State) (n : Nat) : Tp := ng s.tp n Tp.zero
def State.setPort (s : State) (n : Nat) (f : Tp → Tp) : State := { s with tp := ns s.tp n (f (s.port n)) }
/-- TPn_STATUS.STATE set; an APLL master's clock is then an enabled output or no longer one (R307). -/
def State.setTp (s : State) (n v : Nat) : State := (s.put (F.tpStatusState n) v).clampSync

/-- L of a port (R282). -/
def State.tpL (s : State) (n : Nat) : Nat := s.get (F.tpCfgStartLvl n) + 1

/-- A group's nominal ratio lies in 1/7 to 7 (R277, R286). -/
def State.asrcNominal (s : State) (g n : Nat) : Bool :=
  match domOf (s.get (F.asrcCfgDom g)) with
  | some d =>
    let f := frateHz (s.get (F.tpCfgFrate n))
    decide (s.rateHz d ≤ 7 * f) && decide (f ≤ 7 * s.rateHz d)
  | none => false

/-- A start of the port is refused (R277). -/
def State.tpBad (s : State) (n : Nat) : Bool :=
  let fmt := s.get (F.tpCfgFmt n)
  let fr := s.get (F.tpCfgFrate n)
  fmt == 3 || s.get (F.tpCfgWidth n) == 3 || decide (13 ≤ fr) || (s.tpMaster n && s.get (F.tpCfgClksrc n) == 3) ||
  (fmt != 2 && s.get (F.tpCfgSlots n) != 1) || decide (24576000 < frateHz fr * s.tpF n) ||
  (!s.tpBound n && frateHz fr != fsaHz (cfgFsa s.domAct)) ||
  (s.tpApll n && s.cA % s.tpF n != 0) ||
  (List.range 8).any (fun g => s.asrcOn g n && !s.asrcNominal g n)

/-! ## Ramps (R292) -/

/-- A ramp with nothing delivered. -/
def Ramp.zero : Ramp := ⟨0, 0, 0#32, 0#32⟩

/-- round(p × k / 32), ties toward +infinity. -/
def ramp32 (p : Word) (k : Nat) : Word := wrap32 (rnd (p.toInt * (k : Nat)) 5)

/-- The ramp's next sample from the sample `x`, which counts only when `have_` holds; the ramp out ends in silence, the
ramp in at full level (R292). -/
def Ramp.next (r : Ramp) (x : Word) (have_ : Bool) : Ramp :=
  match r.ph with
  | 0 => { r with last := 0#32 }
  | 1 => if !have_ then { r with last := 0#32 }
    else { r with last := ramp32 x (r.j + 1), j := r.j + 1, ph := if r.j == 31 then 2 else 1 }
  | 2 => { r with last := x }
  | _ => { r with last := ramp32 r.p (31 - r.j), j := r.j + 1, ph := if r.j == 31 then 0 else 3 }

/-- A ramp out starts from the last sample delivered; one in progress continues. -/
def Ramp.mute (r : Ramp) : Ramp := if r.ph == 3 || r.ph == 0 then r else { r with ph := 3, j := 0, p := r.last }

/-- A ramp in starts. -/
def Ramp.unmute (r : Ramp) : Ramp := { r with ph := 1, j := 0 }

/-! ## ASRC groups (R284 to R289) -/

/-- Group `g`'s run-time state. -/
def Asrc.zero : Asrc := ⟨0, 0, 0, 0, Vector.replicate 8 [], Vector.replicate 8 0, 0⟩
def State.grp (s : State) (g : Nat) : Asrc := ng s.asrc g Asrc.zero
def State.setGrp (s : State) (g : Nat) (f : Asrc → Asrc) : State := { s with asrc := ns s.asrc g (f (s.grp g)) }

/-- The enabled groups that name port `n`; the first is the estimator (R286). -/
def State.grpsOf (s : State) (n : Nat) : List Nat := (List.range 8).filter (fun g => s.asrcOn g n)
/-- Apply `f` to every group that names port `n`. -/
def State.eachGrp (s : State) (n : Nat) (f : State → Nat → State) : State := (s.grpsOf n).foldl f s

/-- Group `g` goes to ACQUIRE; `st` is ACQUIRE's step. -/
def State.grpAcquire (s : State) (g st : Nat) : State :=
  (s.put (F.asrcStatusState g) 1).setGrp g (fun x => { Asrc.zero with step := st, nb := x.nb })
/-- The endpoints of group `g` deliver 0 (R285). -/
def State.grpSilent (s : State) (g : Nat) : State :=
  (List.range 8).foldl (fun (t : State) c => t.inject (0x80 + 8 * g + c) 0#32) s
/-- Group `g` is OFF. -/
def State.grpOff (s : State) (g : Nat) : State :=
  (((s.put (F.asrcStatusState g) 0).put (F.asrcRatioRatio g) 0).setGrp g (fun x => { Asrc.zero with nb := x.nb })).grpSilent g

/-- The ratio, unsigned 8.24, of a frame period in 2^-12 ENG_CLK cycles to the domain of group `g` (R286). -/
def State.ratioOf (s : State) (g per : Nat) : Nat :=
  match domOf (s.get (F.asrcCfgDom g)) with
  | some d => if per == 0 then 0 else (2 * s.cD d * 2 ^ 36 + per) / (2 * per)
  | none => 0

/-- A ratio in 8.24 format lies in 1/7 to 7. -/
def ratioOk (r : Nat) : Bool := decide (2 ^ 24 ≤ 7 * r) && decide (r ≤ 7 * 2 ^ 24)

/-- Every group of port `n` reports the ratio of the estimator `e` for a tracked period (R286). -/
def State.setRatio (s : State) (n e per : Nat) : State :=
  s.eachGrp n (fun t g => (t.put (F.asrcRatioRatio g) (s.ratioOf e per)).setGrp g (fun x => { x with trk := per }))

/-- The estimator `e` follows one more frame of port `n` with bandwidth code `bw` (R286, R288, R289). -/
def State.asrcFollow (s : State) (n e bw per : Nat) : State :=
  let trk := (s.grp e).trk
  match Config.asrcLoop with
  | some l => s.setRatio n e (trk + rnd (((per : Int) - trk) * l.gain (min bw 5) s.engHz trk) 48).toNat
  | none => s.draw.2.setRatio n e (max (min trk per) (min (max trk per) s.draw.1.toNat))

/-- One more frame of period `per` in ACQUIRE: in step 1 the ratio is loaded at 256 frames or the step repeats; in step 2 the
loop runs at 20 Hz (R288). -/
def State.asrcMeasure (s : State) (n per : Nat) : State :=
  match s.grpsOf n with
  | [] => s
  | e :: _ =>
    let x := s.grp e
    if x.step == 2 then s.asrcFollow n e 5 per
    else if x.step != 1 then s
    else if x.cnt + 1 < 256 then s.setGrp e (fun y => { y with sum := y.sum + per, cnt := y.cnt + 1 })
    else
      let mean := (x.sum + per) / 256
      if ratioOk (s.ratioOf e mean) then
        (s.setRatio n e mean).eachGrp n (fun t g => t.setGrp g (fun y => { y with step := 2, sum := 0, cnt := 0 }))
      else s.eachGrp n (fun t g => (t.put (F.asrcStatusRatioErr g) 1).setGrp g (fun y => { y with sum := 0, cnt := 0 }))

/-- RANGE in ppm (R289). -/
def rangePpm (c : Nat) : Nat :=
  match c with
  | 0 => 250
  | 1 => 1000
  | 2 => 4000
  | _ => 20000

/-- The mean of the last 16 periods lies outside ±RANGE of the period tracked (R289). -/
def outOfRange (ppm trk : Nat) (pers : List Nat) : Bool :=
  let sum : Nat := pers.foldl (· + ·) 0
  pers.length == 16 && decide (trk * 16 * ppm < ((sum : Int) - (trk * 16 : Nat)).natAbs * 1000000)

/-! ## RESYNC (R290, R292) -/

/-- Enter RESYNC at qualify. `mute` says that the ramps of step 1 start (entry from RUN); from LOST the output carries
zeros. -/
def State.enterResync (s : State) (n : Nat) (mute : Bool) : State :=
  let s1 := ((s.setTp n tpResync).put (F.tpStatusResyncEvt n) 1).fire 4
  let s2 := s1.setPort n (fun p => { p with
    step := 2
    good := 0
    startPend := false
    slots := if mute then p.slots.map Ramp.mute else p.slots
    oph := if mute then (if p.oph == 0 then 0 else 3) else 0
    oj := if mute && p.oph != 3 then 0 else p.oj })
  s2.eachGrp n (fun t g => t.grpAcquire g 0)

/-- A new RESYNC cause while in RESYNC restarts step 2 (R292). -/
def State.requalify (s : State) (n : Nat) : State :=
  (s.setPort n (fun p => { p with step := 2, good := 0 })).eachGrp n (fun t g => t.grpAcquire g 0)

/-- The port stops (Table 10-4): nothing is delivered, SDOUT is at high impedance, and its reference is lost (Table 11-6). -/
def State.tpStop (s : State) (n : Nat) : State :=
  let s1 := (((s.setTp n tpStopped).ocPortStop n |>.put (F.tpPeriodPeriod n) 0).setPort n (fun _ => Tp.zero)).eachGrp n (fun t g => t.grpOff g)
  (List.range 16).foldl (fun (t : State) i => t.inject (16 * n + i) 0#32) s1

/-- FSYNC or the REFIN in use is lost (Table 10-4); a stop that waits for the end of the frame takes place at once in LOST. -/
def State.fsyncLoss (s : State) (n : Nat) : State :=
  let st := s.tpState n
  if st == tpRun || st == tpResync then
    let s1 := ((((s.setTp n tpLost).put (F.tpStatusClkLoss n) 1).fire 4).bump (F.tpErrCntClkLoss n) 1).put (F.tpPeriodPeriod n) 0
    if (s.port n).stopPend then s1.tpStop n
    else
      (s1.setPort n (fun p => { p with
        pers := []
        psum := 0
        pcnt := 0
        step := 0
        oph := 0
        wire := []
        slots := if st == tpRun then p.slots.map Ramp.mute else p.slots })).eachGrp n (fun t g => t.grpAcquire g 0)
  else s

/-- The first FSYNC edge after the loss (Table 10-4). -/
def State.fsyncReturn (s : State) (n : Nat) : State := if s.tpState n == tpLost then s.enterResync n false else s

/-! ## Starts and stops (R277, R290) -/

/-- EN written from 0 to 1. -/
def State.tpEnable (s : State) (n : Nat) : State :=
  if s.flag (F.tpCtrlEn n) then s
  else if (s.port n).stopPend then (s.put (F.tpCtrlEn n) 1).setPort n (fun p => { p with stopPend := false })
  else if s.tpState n != tpStopped then s
  else if s.tpBad n then s.put (F.tpStatusCfgErr n) 1
  else if s.tpApll n && !s.tpBound n then (s.put (F.tpCtrlEn n) 1).setPort n (fun p => { p with startPend := true })
  else (s.put (F.tpCtrlEn n) 1).enterResync n false

/-- EN written from 1 to 0. -/
def State.tpDisable (s : State) (n : Nat) : State :=
  if !s.flag (F.tpCtrlEn n) then s
  else
    let s1 := s.put (F.tpCtrlEn n) 0
    if s.tpState n == tpStopped then s1.setPort n (fun p => { p with startPend := false })
    else if s.tpState n == tpLost then s1.tpStop n
    else s1.setPort n (fun p => { p with stopPend := true })

/-- TPn_CTRL.RESYNC written 1 (Table 10-4, Table 10-8). -/
def State.tpResyncReq (s : State) (n : Nat) : State :=
  let st := s.tpState n
  if st == tpRun then s.enterResync n true
  else if st == tpResync then s.requalify n
  else s.put (F.tpStatusCfgIgn n) 1

/-- A write of TPn_CTRL. -/
def State.tpCtrlWrite (s : State) (n : Nat) (v : Word) : State :=
  let s1 := if v.getLsbD 0 then s.tpEnable n else s.tpDisable n
  if v.getLsbD 1 then s1.tpResyncReq n else s1

/-- A write of TPn_CFG or TPn_CLK: only while STOPPED (R301, R482). -/
def State.tpStoppedWrite (s : State) (n a : Nat) (mask v : Word) : State :=
  if s.tpState n == tpStopped then s.wr a (v &&& mask)
  else s.setIf (s.rd a != v &&& mask) (F.tpStatusCfgIgn n)

/-- A write of a slot-mask shadow (R279). -/
def State.maskWrite (s : State) (n : Nat) (out : Bool) (v : Word) : State :=
  if out then (s.put (F.tpSlotmaskOutShadow n) (fieldOf v.toNat 0 16)).put (F.tpStatusMaskPendOut n) 1
  else (s.put (F.tpSlotmaskInShadow n) (fieldOf v.toNat 0 16)).put (F.tpStatusMaskPendIn n) 1

/-- The port enters RUN: its FIFOs restart (R282, R292 step 4). `ramp` says that the slots ramp in. -/
def State.enterRun (s : State) (n : Nat) (ramp : Bool) : State :=
  (s.setTp n tpRun).setPort n (fun p => { p with
    inF := []
    outF := List.replicate (s.tpL n) (List.replicate (s.tpSlots n) 0#32)
    taking := false
    startPend := false
    step := 0
    psum := 0
    pcnt := 0
    slots := p.slots.map (fun r => if !ramp then { r with ph := 2 } else if r.ph == 3 then r else r.unmute)
    oph := if !ramp then 2 else if p.oph == 3 then 3 else 1
    oj := if ramp && p.oph == 3 then p.oj else 0 })

/-- PORT_ENTER_RUN: a pending start at a domain-A boundary, or step 4 of RESYNC at a frame start (Table 10-4, R292). -/
def State.portEnterRun (s : State) (n : Nat) : State :=
  if (s.port n).startPend && s.runs && s.atEdge then s.enterRun n false
  else if s.tpState n == tpResync && (s.port n).step == 4 then s.enterRun n true
  else s

/-! ## Frames (R276, R281, R283, R289 to R291) -/

/-- A frame of FIFO samples from the words received: bits [31:32-W] (R276); the slots that the mask in force in the frame
shuts are 0 (R279, R280). -/
def frameIn (w slots mask : Nat) (words : List Word) : List Word :=
  (List.range slots).map (fun i => if mask.testBit i then ((words[i]?).getD 0#32) <<< (32 - w) else 0#32)

/-- k / 32 of a Q1.31 sample as a W-bit word: rounded once, ties toward +infinity, and saturated (R276, R292). -/
def wordOut (w k : Nat) (x : Word) : Nat := tc w (satTo w (rnd (x.toInt * (k : Nat)) (37 - w))).1

/-- The period lies within ±5,000 ppm of 1/FsA. -/
def State.nearFsa (s : State) (n16 sum : Nat) : Bool :=
  let nom := s.cA * 2 ^ 12 * n16
  decide (((sum : Int) - (nom : Nat)).natAbs * 1000000 ≤ nom * 5000)

/-- The measured period of the last 16 frames (TPn_PERIOD). -/
def State.periodShow (s : State) (n : Nat) : State :=
  let l := (s.port n).pers
  s.put (F.tpPeriodPeriod n) (if l.length == 16 then l.foldl (· + ·) 0 / 16 else 0)

/-- Step 2 of RESYNC after a frame: 16 good frames lead on (R292). -/
def State.qualify (s : State) (n : Nat) (good : Bool) : State :=
  let g := if good then (s.port n).good + 1 else 0
  if g < 16 then s.setPort n (fun p => { p with good := g })
  else if s.tpBound n then (s.setPort n (fun p => { p with good := g, step := 3 })).eachGrp n (fun t x => t.grpAcquire x 1)
  else s.setPort n (fun p => { p with good := g, step := 4 })

/-- The unbound slave's check of the mean over 256 frames in RUN (Table 10-4). -/
def State.rateCheck (s : State) (n per : Nat) : State :=
  if s.tpMaster n || s.tpBound n then s
  else
    let p := s.port n
    if p.pcnt + 1 < 256 then s.setPort n (fun p => { p with psum := p.psum + per, pcnt := p.pcnt + 1 })
    else
      let s1 := s.setPort n (fun p => { p with psum := 0, pcnt := 0 })
      if s.nearFsa 256 (p.psum + per) then s1 else (s1.put (F.tpStatusRateErr n) 1).enterResync n true

/-- The estimator follows one more frame, and loses lock when the mean leaves RANGE (R289). -/
def State.lockCheck (s : State) (n per : Nat) : State :=
  match s.grpsOf n with
  | [] => s
  | e :: _ =>
    if s.get (F.asrcStatusState e) != 2 then s
    else
      let trk := (s.grp e).trk
      if outOfRange (rangePpm (s.get (F.asrcCfgRange e))) trk (s.port n).pers then
        (s.eachGrp n (fun t g => t.put (F.asrcStatusUnlock g) 1)).enterResync n true
      else s.asrcFollow n e (s.get (F.asrcCfgBw e)) per

/-- A frame enters the IN FIFO of a port in RUN, or slips (Table 10-2). -/
def State.pushIn (s : State) (n : Nat) (f : List Word) : State :=
  if 8 ≤ (s.port n).inF.length then (s.put (F.tpStatusInOver n) 1).bump (F.tpSlipCntInOver n) 1
  else s.setPort n (fun p => { p with inF := p.inF ++ [f] })

/-- A repeated frame obeys the mask in force when it is repeated. -/
def maskFrame (mask : Nat) (f : List Word) : List Word :=
  (List.range f.length).map (fun i => if mask.testBit i then (f[i]?).getD 0#32 else 0#32)

/-- The oldest frame of the IN FIFO is removed, once the FIFO has held L frames; an empty FIFO is an IN_UNDER slip (R282,
Table 10-2). The flag says whether takes have begun. -/
def State.popIn (s : State) (n : Nat) : List Word × Bool × State :=
  let p := s.port n
  if !p.taking && decide (p.inF.length < s.tpL n) then ([], false, s)
  else
    match p.inF with
    | f :: l => (f, true, s.setPort n (fun p => { p with inF := l, inLast := f, taking := true }))
    | [] =>
      let s1 := (s.put (F.tpStatusInUnder n) 1).bump (F.tpSlipCntInUnder n) 1
      (if s.flag (F.tpCfgUnderRep n) then maskFrame (s.get (F.tpSlotmaskInActive n)) p.inLast else [], true, s1)

/-- The ASRC of a bound port reads one frame for each frame period of its port; the samples go into the histories of the input
channels (R285, R287). -/
def State.asrcIn (s : State) (n : Nat) : State :=
  let a := s.popIn n
  if !a.2.1 then a.2.2
  else a.2.2.eachGrp n (fun t g =>
    if t.get (F.asrcStatusState g) != 2 then t
    else t.setGrp g (fun x => { x with hist := Vector.ofFn (fun (c : Fin 8) =>
      let v := t.asrcCh g c.val
      if v.testBit 7 && !v.testBit 6 then (a.1[fieldOf v 0 4]?).getD 0#32 :: x.hist[c] else x.hist[c]) }))

/-- The bit clock of port `n` runs: an APLL master drives none while ENG_CLK is gated and until the first tick of the next epoch
(R293, R38). -/
def State.tpClocked (s : State) (n : Nat) : Bool :=
  !s.tpApll n || s.runs || (s.st == stDrain && s.sys.engClk && s.sys.cause != 2 && s.sys.cause != 3)

/-- INPUT_FRAME_COMPLETE: a frame of `edges` sampling edges and period `per` (2^-12 ENG_CLK cycles) has ended (R281, R288
to R292). Samples captured outside an epoch are discarded (R35). -/
def State.inputFrame (s : State) (n edges per : Nat) (words : List Word) : State :=
  let st := s.tpState n
  if st == tpStopped || st == tpLost || !s.tpClocked n then s
  else
    let whole := s.tpMaster n || edges == s.tpF n
    let s1 := (s.setPort n (fun p => { p with pers := (per :: p.pers).take 16 })).periodShow n
    let s2 := if whole then s1 else ((s1.put (F.tpStatusFrameErr n) 1).fire 4).bump (F.tpErrCntFrameErr n) 1
    if st == tpResync then
      match (s2.port n).step with
      | 2 => s2.qualify n (whole && (s.tpMaster n || s.tpBound n || s.nearFsa 1 per))
      | 3 => s2.asrcMeasure n per
      | _ => s2
    else
      let s3 := if whole && s.runs then s2.pushIn n (frameIn (s.tpWidth n) (s.tpSlots n) (s.get (F.tpSlotmaskInActive n)) words) else s2
      ((if s.tpBound n && s.runs then s3.asrcIn n else s3).rateCheck n per).lockCheck n per

/-- Pending masks latch at a frame start (R279). -/
def State.latchMasks (s : State) (n : Nat) : State :=
  let s1 := if s.flag (F.tpStatusMaskPendIn n) then
      (s.put (F.tpSlotmaskInActive n) (s.get (F.tpSlotmaskInShadow n))).put (F.tpStatusMaskPendIn n) 0 else s
  if s.flag (F.tpStatusMaskPendOut n) then
    (s1.put (F.tpSlotmaskOutActive n) (s.get (F.tpSlotmaskOutShadow n))).put (F.tpStatusMaskPendOut n) 0 else s1

/-- The frame that the port shifts out: the oldest of the OUT FIFO, or an OUT_UNDER slip (Table 10-2). -/
def State.popOut (s : State) (n : Nat) : List Word × State :=
  match (s.port n).outF with
  | f :: l => (f, s.setPort n (fun p => { p with outF := l, outLast := f }))
  | [] =>
    let s1 := if s.tpState n == tpRun && s.runs then (s.put (F.tpStatusOutUnder n) 1).bump (F.tpSlipCntOutUnder n) 1 else s
    (if s.flag (F.tpCfgUnderRep n) then (s.port n).outLast else [], s1)

/-- One output frame's factor in 1/32, and the ramp after it (R292). -/
def Tp.outStep (p : Tp) : Nat × Tp :=
  match p.oph with
  | 0 => (0, p)
  | 1 => (p.oj + 1, { p with oj := p.oj + 1, oph := if p.oj == 31 then 2 else 1 })
  | 2 => (32, p)
  | _ => (31 - p.oj, { p with oj := p.oj + 1, oph := if p.oj == 31 then 0 else 3 })

/-- The words on the pin: masked slots are zeros or high impedance (R280); outside an epoch enabled slots carry 0 (R35). -/
def State.shape (s : State) (n k : Nat) (f : List Word) : List (Option Nat) :=
  (List.range (s.tpSlots n)).map (fun i =>
    if (s.get (F.tpSlotmaskOutActive n)).testBit i then
      if s.runs then some (wordOut (s.tpWidth n) k ((f[i]?).getD 0#32)) else some 0
    else if s.flag (F.tpCfgMaskHiz n) then none else some 0)

/-- The sum of a converter's taps over the input samples `h`, newest first, where the newest stands `x` from the centre of the
response, in 2^-24 input samples (R287). -/
def asrcSum (k : Config.AsrcFir) (rate ratio dir : Nat) : Int → List Word → Int
  | _, [] => 0
  | x, v :: h =>
    (if x.natAbs ≤ k.delay rate ratio dir then v.toInt * k.tap rate ratio dir x.natAbs else 0) +
      asrcSum k rate ratio dir (x + (2 ^ 24 : Nat)) h

/-- The rate of the domain of group `g`, in hertz. -/
def State.asrcHz (s : State) (g : Nat) : Nat :=
  match domOf (s.get (F.asrcCfgDom g)) with
  | some d => s.rateHz d
  | none => 0

/-- The input samples that pass from one output of a converter to the next, in units of 2^-24. -/
def asrcStep (ratio dir : Nat) : Nat := if dir == 0 then ratio else 2 ^ 48 / ratio

/-- The next output of channel `c` of group `g` in direction `dir`, rounded with ties up and saturated; the flag says that it clipped
(R287). -/
def State.asrcSample (s : State) (g c dir : Nat) : (Word × Bool) × State :=
  let x := s.grp g
  let ratio := s.get (F.asrcRatioRatio g)
  let h := ng x.hist c []
  match Config.asrc with
  | some k =>
    let lead : Int := ng x.outs c 0 + k.first (s.asrcHz g) ratio dir - ((h.length : Int) - 1) * (2 ^ 24 : Nat)
    (sat32 (rnd (asrcSum k (s.asrcHz g) ratio dir (lead - k.delay (s.asrcHz g) ratio dir) h) 48), s)
  | none => ((s.draw.1, false), s.draw.2)

/-- Channel `c` of group `g` has given a sample: SAT where it clipped, and the next output's place. -/
def State.asrcGave (s : State) (g c dir : Nat) (sat : Bool) : State :=
  (s.setIf sat (F.asrcStatusSat g)).setGrp g (fun x =>
    { x with outs := ns x.outs c (ng x.outs c 0 + asrcStep (s.get (F.asrcRatioRatio g)) dir) })

/-- The ASRC's output frame for a bound port: one word for each mapped output channel of a LOCKED group (R285, R287). -/
def State.asrcOutFrame (s : State) (n : Nat) : List Word × State :=
  (List.range 16).foldl (fun (a : List Word × State) sl =>
    match a.2.asrcMap n sl 1 with
    | none => (a.1 ++ [0#32], a.2)
    | some k =>
      let g := k / 8
      if a.2.get (F.asrcStatusState g) != 2 then (a.1 ++ [0#32], a.2)
      else
        let y := a.2.asrcSample g (k % 8) 1
        (a.1 ++ [y.1.1], y.2.asrcGave g (k % 8) 1 y.1.2)) ([], s)

/-- A frame of sink samples enters the OUT FIFO, or slips (R281, Table 10-2). -/
def State.pushOut (s : State) (n : Nat) (f : List Word) : State :=
  if 8 ≤ (s.port n).outF.length then
    if s.tpState n == tpRun then (s.put (F.tpStatusOutOver n) 1).bump (F.tpSlipCntOutOver n) 1 else s
  else s.setPort n (fun p => { p with outF := p.outF ++ [f] })

/-- The number of output `k` of PLL `p` among all outputs. -/
def outNo (p k : Nat) : Nat := 4 * p + k

/-- The least and the greatest delay that output `k` of PLL `p` may have now (R311). -/
def State.dlySpan (s : State) (p k : Nat) : Nat × Nat :=
  let d := ng s.clk.dly (outNo p k) 0
  if s.flag (F.pllOutDlyMoving p k) then ng s.clk.swing (outNo p k) (d, d) else (d, d)

/-- The cycle of the domain-A tick in which a frame of an APLL master `n` starts, if it starts before the next tick edge and not
before now: the boundary and the fine delay of its output, 256 steps to a cycle (R278, R311). A delay that moves fixes no cycle; this
is the first that it allows. -/
def State.frameCyc (s : State) (n : Nat) : Option Nat :=
  let w := s.dlySpan 1 (n + 5)
  let base := s.sys.qt % 4 * s.cA / 4
  let first := fun (j : Nat) => max (max s.sys.cyc base) (w.1 / 256 - j * s.cA)
  (([0, 1].map (fun j => (j, first j))).find? (fun p =>
    decide (p.2 + p.1 * s.cA ≤ w.2 / 256) && decide (p.2 < base + s.stepQ * s.cA / 4))).map (·.2)

/-- The state at the start of a frame of port `n`, where one may start: in an epoch the frames of an APLL master start at their
cycle alone (R278). -/
def State.frameMayStart (s : State) (n : Nat) : Option State :=
  if !s.tpClocked n then none
  else if s.tpApll n && s.runs then (s.frameCyc n).map s.atCyc
  else some s

/-- OUTPUT_FRAME_START: a stop waits for it; masks latch; the oldest frame is removed and shifted out (R279, R281, R292,
Table 10-4). -/
def State.outputFrame (s : State) (n : Nat) : State :=
  match s.frameMayStart n with
  | none => s
  | some u =>
    let st := u.tpState n
    if (u.port n).stopPend then u.tpStop n
    else if st == tpRun || st == tpResync then
      let s1 := u.latchMasks n
      let s2 := if s1.tpBound n && s1.runs then (let a := s1.asrcOutFrame n; a.2.pushOut n a.1) else s1
      let a := s2.popOut n
      let o := (a.2.port n).outStep
      let s3 := a.2.setPort n (fun _ => if u.runs then o.2 else a.2.port n)
      let s4 := s3.setPort n (fun p => { p with wire := a.2.shape n o.1 a.1 })
      if st == tpRun && (s4.port n).oph == 0 then s4.setPort n (fun p => { p with oph := 1, oj := 0 }) else s4
    else u

/-- A slot's ramp takes one sample and gives the sample delivered. A port back in RUN ramps in after a mute ramp has
ended. -/
def State.slotNext (s : State) (n sl : Nat) (x : Word) (have_ : Bool) : Word × State :=
  let r0 := ng (s.port n).slots sl Ramp.zero
  let r := if s.tpState n == tpRun && r0.ph == 0 then r0.unmute else r0
  let r1 := r.next x have_
  (r1.last, s.setPort n (fun p => { p with slots := ns p.slots sl r1 }))

/-- The frame that a take gets, and whether takes have begun (R282, Table 10-2). -/
def State.takeIn (s : State) (n : Nat) : List Word × Bool × State :=
  if s.tpState n != tpRun || !s.runs then ([], false, s) else s.popIn n

/-- TAKE_POINT of an unbound port: the oldest frame becomes the source samples of the running tick; the frame of the sink
samples stamped before it enters the OUT FIFO (R281, R282). -/
def State.takePoint (s : State) (n : Nat) : State :=
  if s.tpBound n || s.tpState n == tpStopped || !s.runs then s
  else
    let a := s.takeIn n
    let s1 := (List.range 16).foldl (fun (t : State) sl =>
      let r := t.slotNext n sl ((a.1[sl]?).getD 0#32) a.2.1
      r.2.inject (16 * n + sl) r.1) a.2.2
    let st := s.tpState n
    if st == tpRun || st == tpResync then
      s1.pushOut n ((List.range (s.tpSlots n)).map (fun sl => spGet (fun _ => 0#32) s1.rt.sinks (16 * n + sl)))
    else s1

/-- At a tick of domain `d` that ends, the ASRC groups of that domain give the samples of their input channels and take
those of their output channels (R285, R287, R292). -/
def State.asrcTick (s : State) (d : RDom) : State :=
  (List.range 64).foldl (fun (t : State) k =>
    let g := k / 8
    let c := k % 8
    let v := t.asrcCh g c
    let n := t.get (F.asrcCfgPort g)
    if !t.flag (F.asrcCfgEn g) || !v.testBit 7 || domOf (t.get (F.asrcCfgDom g)) != some d then t
    else
      let locked := t.get (F.asrcStatusState g) == 2
      if v.testBit 6 then
        if locked then
          t.setGrp g (fun y => { y with hist := ns y.hist c (spGet (fun _ => 0#32) t.rt.sinks (0x80 + k) :: ng y.hist c []) })
        else t
      else
        let live := locked && (t.port n).taking
        let y := if live then t.asrcSample g c 0 else ((0#32, false), t)
        let t1 := if live then y.2.asrcGave g c 0 y.1.2 else y.2
        let r := t1.slotNext n (fieldOf v 0 4) y.1.1 live
        r.2.inject (0x80 + k) r.1) s

/-! ## ASRC configuration (R284, R285) -/

/-- Two enabled channels of the groups that name port `n` map one slot in one direction (R285). -/
def State.asrcDup (s : State) (n : Nat) : Bool :=
  let l := ((List.range 64).filter (fun k => s.asrcOn (k / 8) n && (s.asrcCh (k / 8) (k % 8)).testBit 7)).map (fun k =>
    fieldOf (s.asrcCh (k / 8) (k % 8)) 6 1 * 16 + fieldOf (s.asrcCh (k / 8) (k % 8)) 0 4)
  l.any (fun x => decide (1 < (l.filter (fun y => y == x)).length))

/-- A port that the model has: PORT 6 and 7 name none. -/
def State.asrcLocked (s : State) (n : Nat) : Bool := decide (n < 6) && s.tpState n != tpStopped

/-- A write of ASRC_CFGg (which = 0) or of ASRC_CHMAP_LOg or HIg (R284, R285). -/
def State.asrcWrite (s : State) (g which : Nat) (v : Word) : State :=
  let a := R.asrcCfg g + 4 * which
  let new := v &&& (if which == 0 then 0x87373000#32 else 0xCFCFCFCF#32)
  let old := s.rd a
  let busy := s.asrcLocked (s.get (F.asrcCfgPort g)) || (which == 0 && s.asrcLocked (fieldOf v.toNat 24 3))
  if busy then s.put (F.asrcStatusCfgIgn g) 1
  else
    let s1 := (s.wr a new).grpSilent g
    if which != 0 then
      if s1.flag (F.asrcCfgEn g) && s1.asrcDup (s1.get (F.asrcCfgPort g)) then s.put (F.asrcStatusCfgErr g) 1 else s1
    else if !new.getLsbD 31 then (s1.grpOff g).useSync
    else
      let n := fieldOf new.toNat 24 3
      if decide (6 ≤ n) || fieldOf new.toNat 20 2 == 3 || s1.tpApll n || s1.asrcDup n then
        ((s1.put (F.asrcCfgEn g) 0).put (F.asrcStatusCfgErr g) 1).useSync
      else if old.getLsbD 31 && fieldOf old.toNat 20 2 == fieldOf new.toNat 20 2 then s1
      else (s1.setGrp g (fun x => { x with nb := s.assignAfter (fieldOf new.toNat 20 2) })).useSync

/-- ASRC_LOOP_TIMER: 100 ms of the 20 Hz loop have passed; the groups of the port lock (R286, R288). -/
def State.asrcLock (s : State) (g : Nat) : State :=
  let n := s.get (F.asrcCfgPort g)
  if s.flag (F.asrcCfgEn g) && s.get (F.asrcStatusState g) == 1 && (s.grp g).step == 2 then
    let s1 := s.eachGrp n (fun t x => (t.put (F.asrcStatusState x) 2).setGrp x (fun y => { y with step := 0 }))
    if s1.tpState n == tpResync && (s1.port n).step == 3 then s1.setPort n (fun p => { p with step := 4 }) else s1
  else s

/-! ## PDM (R294 to R299) -/

/-- Channel `c`'s run-time state. -/
def PdmCh.zero : PdmCh := ⟨Ramp.zero, 0, 0, false, 0#32, 0, []⟩
def State.mic (s : State) (c : Nat) : PdmCh := ng s.pdm.ch c PdmCh.zero
def State.setMic (s : State) (c : Nat) (f : PdmCh → PdmCh) : State :=
  { s with pdm := { s.pdm with ch := ns s.pdm.ch c (f (s.mic c)) } }
/-- Bit `k` of PDM_STATUS.RUN set or cleared. -/
def State.pdmRun (s : State) (k : Nat) (on : Bool) : State :=
  (s.put F.pdmStatusRun (putField (s.get F.pdmStatusRun) k 1 (b2n on))).clampSync
/-- The hold of R297 of group `k`. -/
def State.pdmReady (s : State) (k : Nat) (on : Bool) : State := { s with pdm := { s.pdm with ready := ns s.pdm.ready k on } }
/-- MIC_STUCK of channel `c`. -/
def State.stuck (s : State) (c : Nat) : Bool := (s.get F.pdmStuckMicStuck).testBit c

/-- PDIV of a PDM_CLKCFG word. -/
def pdmDiv (v : Word) : Nat := fieldOf v.toNat 0 10

/-- D for a PDM_CLKCFG word, 0 where PDIV does not divide C_DOM (R295). -/
def State.pdmD (s : State) (v : Word) : Nat :=
  match pdmDomOf v with
  | some d => if pdmDiv v == 0 || s.cD d % pdmDiv v != 0 then 0 else s.cD d / pdmDiv v
  | none => 0

/-- The check of R295 fails for a PDM_CLKCFG word. -/
def State.pdmBad (s : State) (v : Word) : Bool :=
  let div := pdmDiv v
  let dd := s.pdmD v
  !s.flag F.pdmCtrlVout18En || div == 0 || decide (s.engHz < 768000 * div) || decide (6144000 * div < s.engHz) ||
  dd == 0 || dd % 8 != 0 || decide (dd < 32) || decide (768 < dd) ||
  (match pdmDomOf v with
   | some d => decide (96000 < s.rateHz d)
   | none => true)

/-- The channels of group `k`. -/
def micsOf (k : Nat) : List Nat := (List.range 8).map (fun i => 8 * k + i)

/-- Every channel of group `k` changed by `f`. -/
def State.eachMic (s : State) (k : Nat) (f : PdmCh → PdmCh) : State := (micsOf k).foldl (fun (t : State) c => t.setMic c f) s

/-- A channel with its decimator cleared and nothing delivered: what waits and what is enabled stays. -/
def PdmCh.clear (x : PdmCh) : PdmCh := { PdmCh.zero with nb := x.nb, on := x.on }

/-- Group `k` goes off: its clock stops, MIC_STUCK of its channels clears, and they ramp out (R297, PDM_STUCK). -/
def State.pdmOff (s : State) (k : Nat) : State :=
  let s1 := (s.pdmRun k false).pdmReady k false
  let s2 := s1.put F.pdmStuckMicStuck (putField (s.get F.pdmStuckMicStuck) (8 * k) 8 0)
  s2.eachMic k (fun x => { x with ramp := x.ramp.mute, wait := 0 })

/-- At a domain-A boundary PDM_CLKCFGk comes into force: a group that is disabled, or that was disabled and enabled again with
another divider or domain, goes off (Table 01-2a, R297). -/
def State.pdmTakeGroup (s : State) (k : Nat) : State :=
  let v := s.rd (R.pdmClkcfg k)
  if v == s.pdmCfg k then s
  else
    let s1 := if s.pdmOn k then s.pdmOff k else s
    { s1 with pdm := { s1.pdm with cfg := ns s1.pdm.cfg k v } }

/-- At a domain-A boundary PDM_CHCFGc.EN comes into force: the channel ramps in after 20 samples of its running group, or ramps
out (Table 01-2a, R297). -/
def State.pdmTakeCh (s : State) (c : Nat) : State :=
  let en := s.flag (F.pdmChcfgEn c)
  if en == s.micOn c then s
  else if en then s.setMic c (fun x => { x with on := true, wait := if s.pdmOn (c / 8) then 20 else 0 })
  else s.setMic c (fun x => { x with on := false, wait := 0, ramp := x.ramp.mute })

/-- The PDM configuration comes into force at a domain-A boundary (Table 01-2a). -/
def State.pdmTake (s : State) : State :=
  ((List.range 24).foldl (fun (t : State) c => t.pdmTakeCh c) ((List.range 3).foldl (fun (t : State) k => t.pdmTakeGroup k) s)).useSync

/-- The channels among `cs` that are enabled and were not before may bring their domain into use (R171). -/
def State.pdmAssign (s old : State) (cs : List Nat) : State :=
  cs.foldl (fun (t : State) c =>
    if t.pdmEn c && !old.pdmEn c then t.setMic c (fun x => { x with nb := old.assignAfter (old.get (F.pdmClkcfgDom (c / 8))) }) else t) s

/-- A write of PDM_CLKCFGk (R295). -/
def State.pdmClkWrite (s : State) (k : Nat) (v : Word) : State :=
  let old := s.rd (R.pdmClkcfg k)
  let mask : Word := 0x300003FF#32
  if s.flag (F.pdmClkcfgEn k) then
    let s1 := s.setIf ((v &&& mask) != (old &&& mask)) F.pdmStatusCfgIgn
    if v.getLsbD 31 then s1 else (s1.put (F.pdmClkcfgEn k) 0).useSync
  else
    let s1 := s.wr (R.pdmClkcfg k) (v &&& mask)
    if !v.getLsbD 31 then s1
    else if s1.pdmBad (v &&& mask) then s1.put F.pdmStatusCfgErr 1
    else (s1.put (F.pdmClkcfgEn k) 1).pdmAssign s1 (micsOf k)

/-- A write of PDM_CTRL: clearing VOUT18_EN while a group is enabled is ignored. -/
def State.pdmCtrlWrite (s : State) (v : Word) : State :=
  let any := (List.range 3).any (fun k => s.flag (F.pdmClkcfgEn k))
  let s1 := s.put F.pdmCtrlWake (fieldOf v.toNat 0 8)
  if s.flag F.pdmCtrlVout18En && !v.getLsbD 31 && any then s1.put F.pdmStatusCfgIgn 1
  else s1.put F.pdmCtrlVout18En (fieldOf v.toNat 31 1)

/-- PDM_CLOCK_START: the clock of an enabled group starts at a domain-A boundary, and the hold begins (R297). -/
def State.pdmClockStart (s : State) (k : Nat) : State :=
  if s.runs && s.atEdge && (s.pdmCfg k).getLsbD 31 && !s.pdmOn k && !s.pdmBad (s.pdmCfg k) then
    let s1 := (s.pdmRun k true).pdmReady k false
    let s2 := { s1 with pdm := { s1.pdm with d := ns s1.pdm.d k (s1.pdmD (s1.pdmCfg k)) } }
    s2.eachMic k PdmCh.clear
  else s

/-- PDM_WAKE_EXPIRY: the hold and its 20 samples have passed; the enabled channels ramp in (R297). One that was enabled within the
last 20 samples still waits. -/
def State.pdmWake (s : State) (k : Nat) : State :=
  if s.pdmOn k && !ng s.pdm.ready k false then
    (micsOf k).foldl (fun (t : State) c =>
      if t.micOn c && !t.stuck c && (t.mic c).wait == 0 then t.setMic c (fun x => { x with ramp := x.ramp.unmute })
      else t) (s.pdmReady k true)
  else s

/-- A write of PDM_CHCFGc (R296, R297): EN waits for a domain-A boundary, GAIN and DCF for the channel's next sample. -/
def State.pdmChWrite (s : State) (c : Nat) (v : Word) : State :=
  ((s.wr (R.pdmChcfg c) (v &&& 0x830000FF#32)).pdmAssign s [c]).useSync

/-- MIC_STUCK (R299). -/
def State.micStuck (s : State) (c : Nat) : State :=
  if s.micOn c && s.pdmOn (c / 8) && !s.stuck c then
    ((s.put F.pdmStuckMicStuck (putField (s.get F.pdmStuckMicStuck) c 1 1)).put (F.pdmStuckEvtBit c) 1).setMic c
      (fun x => { x with ramp := x.ramp.mute })
  else s

/-- MIC_STUCK clears: the channel ramps in, unless it still waits (R299). -/
def State.micClear (s : State) (c : Nat) : State :=
  if s.stuck c then
    let s1 := s.put F.pdmStuckMicStuck (putField (s.get F.pdmStuckMicStuck) c 1 0)
    if ng s.pdm.ready (c / 8) false && s.micOn c && (s.mic c).wait == 0 then s1.setMic c (fun x => { x with ramp := x.ramp.unmute })
    else s1
  else s

/-- Channel state `m` after the DC filter of code `dcf` at output rate `f` takes the decimated value `x`: first order, with no output
for a constant input; its output is in units of 2^-47 (R296). -/
def PdmCh.filter (m : PdmCh) (dcf f : Nat) (x : Word) : Option PdmCh :=
  if dcf == 0 then some { m with dcX := x, dcY := x.toInt * (2 ^ 16 : Nat) }
  else Config.dcFilter.map (fun k => { m with
    dcX := x
    dcY := rnd (k.gain dcf f * (x.toInt - m.dcX.toInt) * (2 ^ 16 : Nat) + k.pole dcf f * m.dcY) 48 })

/-- `n` bits that a microphone gives, newest first: free values, one word for each 32. -/
def State.drawBits (s : State) (n : Nat) : List Bool × State :=
  ((List.range n).map (fun i => (Config.freeWord (s.free + i / 32)).getLsbD (i % 32)), { s with free := s.free + (n + 31) / 32 })

/-- The sum of a decimator's taps over its bits, newest first, where the newest stands `x` from the centre in half bits: a bit 1
counts 1 and a bit 0 counts -1 (R296). -/
def pdmSum (tap : Nat → Int) : Int → List Bool → Int
  | _, [] => 0
  | x, b :: l => (if b then tap x.natAbs else -tap x.natAbs) + pdmSum tap (x + 2) l

/-- GAIN of PDM_CHCFGc in units of 2^-24 dB, held within −24 dB to +48 dB and exact to ±0.01 dB (R296). -/
def State.micGain (s : State) (c : Nat) : Int :=
  max (-48) (min 96 (s.getS (F.pdmChcfgGain c))) * (2 ^ 23 : Nat) + clampErr (Config.pdmGainErr (s.get (F.pdmChcfgGain c)))

/-- The decimated value of microphone `c` for a tick of D bits, saturated: the taps of Table 10-5 over its bits of the last 40
ticks (R296). -/
def State.micValue (s : State) (c d : Nat) : Word × State :=
  let a := s.drawBits d
  match Config.pdmFir with
  | some k =>
    let bits := (a.1 ++ (s.mic c).bits).take (40 * d)
    ((sat32 (rnd (pdmSum (k.tap d) (1 - (40 * d : Nat)) bits) 17)).1, a.2.setMic c (fun m => { m with bits := bits }))
  | none => s.draw

/-- The sample of microphone `c`: the decimated value through the DC filter and the gain, rounded and saturated; the flag says that
it clipped (R296). -/
def State.micSample (s : State) (c f : Nat) : (Word × Bool) × State :=
  let a := s.micValue c (ng s.pdm.d (c / 8) 0)
  match (a.2.mic c).filter (s.get (F.pdmChcfgDcf c)) f a.1 with
  | some m => (sat32 (rnd (m.dcY * pow20 (s.micGain c)) 56), a.2.setMic c (fun _ => m))
  | none => ((a.2.draw.1, false), a.2.draw.2)

/-- At a tick of domain `d` that ends, channel `c` gives its sample (R296, R297, R299). -/
def State.micTick (s : State) (c f : Nat) : State :=
  let k := c / 8
  let a := if s.pdmOn k && s.micOn c then s.micSample c f else ((0#32, false), s)
  let m := a.2.mic c
  let r := m.ramp.next a.1.1 true
  let ends := m.wait == 1 && r.ph == 0
  let r1 := if ends && ng s.pdm.ready k false && !s.stuck c then r.unmute else r
  let heard := m.ramp.ph == 1 || m.ramp.ph == 2
  let s1 := if heard && a.1.2 then (a.2.bump F.pdmSatCntCount 1).put F.pdmStatusSat 1 else a.2
  (s1.setMic c (fun x => { x with ramp := r1, wait := if ends then 0 else max (x.wait - 1) (min x.wait 1) })).inject (0x60 + c) r.last

/-- At a tick of domain `d` that ends, the PDM channels of its groups give their samples. -/
def State.pdmTick (s : State) (d : RDom) : State :=
  (List.range 24).foldl (fun (t : State) c =>
    if pdmDomOf (t.pdmCfg (c / 8)) == some d then t.micTick c (t.rateHz d) else t) s

/-! ## Epoch starts (R293, R298) -/

/-- A rate of domain `d` in an arbitrary configuration word, in hertz. -/
def rateIn (cfg : Word) (d : RDom) : Nat :=
  let p := match d with
    | .a => 4
    | .b => periodOf (cfgKb cfg)
    | .c => periodOf (cfgKc cfg)
  fsaHz (cfgFsa cfg) * 4 / p

/-- Port `n` enters RESYNC at qualify at an epoch start: its inputs and outputs are silent (R293). -/
def State.epochResync (s : State) (n : Nat) : State :=
  (s.setPort n (fun p => { p with slots := Vector.replicate 16 Ramp.zero })).enterResync n false

/-- The groups of port `n`, which is in RUN, at the first tick of an epoch of cause `cause` (R293, R300). -/
def State.asrcEpoch (s : State) (n cause : Nat) : State :=
  match s.grpsOf n with
  | [] => s
  | e :: _ =>
    if cause == 3 then s.epochResync n
    else if s.get (F.asrcStatusState e) == 2 then
      match domOf (s.get (F.asrcCfgDom e)) with
      | none => s
      | some d =>
        let new := s.get (F.asrcRatioRatio e) * rateIn s.dom.oldAct d / rateIn s.domAct d
        if (cause == 2 || cause == 5) && rateIn s.dom.oldAct d != rateIn s.domAct d then
          if ratioOk new then
            s.eachGrp n (fun t g => (t.put (F.asrcRatioRatio g) new).setGrp g (fun x => { x with
              trk := (2 * s.cD d * 2 ^ 36 + new) / (2 * new) }))
          else (s.eachGrp n (fun t g => t.put (F.asrcStatusRatioErr g) 1)).epochResync n
        else s
    else s

/-- ENG_CLK in hertz in the family of a configuration word. -/
def engHzOf (v : Word) : Nat := fsaHz (cfgFsa v) * cyclesOf (cfgFsa v)

/-- The frame periods that a port has measured, in cycles of the ENG_CLK of the new family (R293). -/
def State.persEpoch (s : State) (n : Nat) : State :=
  let new := engHzOf s.domAct
  let old := engHzOf s.dom.oldAct
  if new == old then s
  else s.setPort n (fun p => { p with pers := p.pers.map (fun x => x * new / old), psum := p.psum * new / old })

/-- The ports at the first tick of an epoch: those in RUN restart their FIFOs without a ramp (R293). -/
def State.portsEpoch (s : State) (cause : Nat) : State :=
  (List.range 6).foldl (fun (t : State) n =>
    let t0 := t.persEpoch n
    if t0.tpState n != tpRun then t0
    else
      let t1 := t0.asrcEpoch n cause
      if t1.tpState n == tpRun then t1.enterRun n false else t1) s

/-- What a drain does to the ports at once: every output slot that is enabled carries 0 (R35). -/
def State.portsStop (s : State) : State :=
  (List.range 6).foldl (fun (t : State) n => t.setPort n (fun p => { p with wire := p.wire.map (fun w => w.map (fun _ => 0)) })) s

/-- The PDM groups at the first tick of an epoch (R297, R298). -/
def State.pdmEpoch (s : State) (cause : Nat) : State :=
  (List.range 3).foldl (fun (t : State) k =>
    if !(t.pdmCfg k).getLsbD 31 then t
    else if t.pdmBad (t.pdmCfg k) && (!t.pdmOn k || cause == 2 || cause == 5) then
      (((t.put F.pdmStatusCfgErr 1).pdmRun k false).pdmReady k false).eachMic k PdmCh.clear
    else if cause == 2 || cause == 3 || ng t.pdm.d k 0 != t.pdmD (t.pdmCfg k) || !ng t.pdm.ready k false then
      (t.pdmRun k false).pdmClockStart k
    else t) s

/-! ## Meanings -/

def execPortEnable (m : Master) (n : Fin 6) (s : State) : Out := .next (s.guard (hostOrBoot m) (fun t => (t.tpEnable n).settle))
def execPortDisable (m : Master) (n : Fin 6) (s : State) : Out := .next (s.guard (hostOrBoot m) (fun t => (t.tpDisable n).settle))
def execPortResyncRequest (m : Master) (n : Fin 6) (s : State) : Out :=
  .next (s.guard (hostOrBoot m) (fun t => (t.tpResyncReq n).settle))
def execPortEnterRun (n : Fin 6) (s : State) : Out := .next (s.portEnterRun n).settle
def execInputFrameComplete (n : Fin 6) (edges period : Nat) (words : List Word) (s : State) : Out :=
  .next (s.inputFrame n edges period words).settle
def execOutputFrameStart (n : Fin 6) (s : State) : Out := .next (s.outputFrame n).settle
def execTakePoint (n : Fin 6) (s : State) : Out := .next ((s.atCyc 1024).takePoint n).settle
def execSlotmaskWrite (m : Master) (n : Fin 6) (out : Bool) (v : Word) (s : State) : Out :=
  .next (s.guard (hostOrBoot m) (fun t => t.maskWrite n out v))
def execFsyncLoss (n : Fin 6) (s : State) : Out := .next (if s.tpApll n then s else (s.fsyncLoss n).settle)
def execFsyncReturn (n : Fin 6) (s : State) : Out := .next (s.fsyncReturn n).settle
def execAsrcConfig (m : Master) (g : Fin 8) (which : Fin 3) (v : Word) (s : State) : Out :=
  .next (s.guard (hostOrBoot m) (fun t => t.asrcWrite g which v))
def execAsrcLoopTimer (g : Fin 8) (s : State) : Out := .next (s.asrcLock g).settle
def execPdmGroupEnable (m : Master) (k : Fin 3) (v : Word) (s : State) : Out :=
  .next (s.guard (hostOrBoot m) (fun t => t.pdmClkWrite k v))
def execPdmClockStart (k : Fin 3) (s : State) : Out := .next (s.pdmClockStart k)
def execPdmWakeExpiry (k : Fin 3) (s : State) : Out := .next (s.pdmWake k)
def execPdmChannelEnable (m : Master) (c : Fin 24) (v : Word) (s : State) : Out :=
  .next (s.guard (hostOrBoot m) (fun t => t.pdmChWrite c v))
def execMicStuck (c : Fin 24) (s : State) : Out := .next (s.micStuck c)
def execMicStuckClear (c : Fin 24) (s : State) : Out := .next (s.micClear c)

end Sys2Proof.Machine
end

