-- ==== Sys2Proof/Machine/Mem.lean ====
section
/-! DEFINITION. The memories below 0x0800_0000 as every master meets them: shared memory, its aliases and retention,
Vermilion, the MRAM store, and the windows of engines and cores (R331 to R357, R44, R79, R136, R240). -/

namespace Sys2Proof.Machine

/-- The error types of Table 12-2. -/
def errDecode : Nat := 0
def errAlign : Nat := 1
def errPerm : Nat := 2
def errRet : Nat := 3
def errEcc : Nat := 4
def errDesc : Nat := 5

/-- A failed access: nothing changes at the target; DECODE, ALIGN and RET show in SMEM_ERR (R341). -/
def State.fail (s : State) (k : Nat) : State :=
  let s1 := (s.setIf (k == errDecode) F.smemErrDecode).setIf (k == errAlign) F.smemErrAlign
  { s1.setIf (k == errRet) F.smemErrRet with resp := .error k }

/-- Address `a` lies in [lo, lo + n). -/
def within (lo n a : Nat) : Bool := decide (lo ≤ a) && decide (a < lo + n)

/-- Ranges of Table 01-9. -/
def isShared (a : Nat) : Bool := decide (a < 0xC00000)
def isSetAlias (a : Nat) : Bool := within 0x01000000 0xC00000 a
def isClrAlias (a : Nat) : Bool := within 0x02000000 0xC00000 a
/-- The word of shared memory that an address names, itself or through an alias (R336); any other address is its own. -/
def plainAddr (a : Nat) : Nat := if isSetAlias a then a - 0x01000000 else if isClrAlias a then a - 0x02000000 else a
def isVerm (a : Nat) : Bool := within 0x03000000 0x40000 a
def isLocal (a : Nat) : Bool := within 0x04000000 0x400000 a
def isDelay (a : Nat) : Bool := within 0x05000000 0x800000 a
def isPmem (a : Nat) : Bool := within 0x06000000 0x100000 a
def isCoef (a : Nat) : Bool := within 0x06100000 0x80000 a
def isMram (a : Nat) : Bool := within 0x07000000 0x80000 a

/-- Table 01-9 lists address `a`. -/
def isMemory (a : Nat) : Bool :=
  isShared a || isSetAlias a || isClrAlias a || isVerm a || isLocal a || isDelay a || isPmem a || isCoef a || isMram a

/-- An access of `n` bytes at `a` is of a size of R332 and aligned to it. -/
def accessOk (a n : Nat) : Bool := (n == 1 || n == 2 || n == 4 || n == 8 || n == 16) && a % n == 0

/-! ## Shared memory (R331 to R340) -/

/-- SMEM_RET_STAT.STATEg of the group of address `a`: 0 ON, 1 ENTERING, 2 RET, 3 WAKING. -/
def State.grpState (s : State) (a : Nat) : Nat := s.get (F.smemRetStatState (a / 2 ^ 20))

/-- The group of shared memory that an address reaches, itself or through an alias. -/
def grpOf (a : Nat) : Option Nat :=
  if isShared a || isSetAlias a || isClrAlias a then some (a % 2 ^ 24 / 2 ^ 20) else none

/-- A new access at `a` fails with RET: its group is in ENTERING or RET (R339). -/
def State.refuses (s : State) (a : Nat) : Bool :=
  match grpOf a with
  | some g => s.get (F.smemRetStatState g) == 1 || s.get (F.smemRetStatState g) == 2
  | none => false

/-- A group in WAKING makes the access wait (R340). -/
def State.mustWait (s : State) (a : Nat) : Bool :=
  match grpOf a with
  | some g => s.get (F.smemRetStatState g) == 3
  | none => false

/-- The word `u` of MRAM is wholly replaced by a write in the queue, whose data a read finds in front of it (R353). -/
def State.queuedOver (s : State) (u : Nat) : Bool :=
  isMram u && (s.sm.wq.take 8).any (fun e => e.addr == u && e.data.length == 8)

/-- The first word of `gran` bytes in [a, a+n) that holds an uncorrectable error. -/
def State.ueIn (s : State) (a n gran : Nat) : Option Nat :=
  s.sm.ue.find? (fun u => decide (u < a + n) && decide (a < u + gran) && !s.queuedOver u)

/-- The words that an access wholly replaces no longer hold an error (R337). -/
def State.ueClear (s : State) (a n gran : Nat) : State :=
  { s with sm := { s.sm with ue := s.sm.ue.filter (fun u => !(decide (a ≤ u) && decide (u + gran ≤ a + n))) } }

/-- A read met a two-bit error at `u` in shared memory (R337) or in the MRAM store (R357). -/
def State.ueSeen (s : State) (u : Nat) : State :=
  let s1 := if isShared u then (s.wr R.smemUeAddr (BitVec.ofNat 32 u)).put F.smemErrUe 1
    else (s.wr R.mramcErraddr (BitVec.ofNat 32 u)).put F.mramcStatusUe 1
  ((s1.cntInc 7).flog 0x0C (if isShared u then 0#32 else 1#32) (BitVec.ofNat 32 u)).fail errEcc

/-- A read found one-bit errors, corrected in the data and in the array (R337, R357). -/
def State.ceSeen (s : State) (a : Nat) : State :=
  if isShared a then s.bump F.smemCeCntCount 1 else s.bump F.mramcStatusCeCnt 1

/-- The array meets the error that the access is told of: 1 a one-bit, 2 a two-bit error in its first word. -/
def State.eccMark (s : State) (a gran ecc : Nat) : State :=
  if ecc == 2 then { s with sm := { s.sm with ue := setIns (a / gran * gran) s.sm.ue } }
  else if ecc == 1 then s.ceSeen a
  else s

/-- A read of the array at `a` in words of `gran` bytes: the data, or ECC. -/
def State.eccRead (s : State) (a n gran ecc : Nat) (data : State → List Byte) : List Byte × State :=
  let s1 := s.eccMark a gran ecc
  match s1.ueIn a n gran with
  | some u => (List.replicate n 0#8, s1.ueSeen u)
  | none => (data s1, s1.ok)

/-- A read of shared memory (R332, R337, R339); `old`: it was issued before its group refused accesses. -/
def State.sharedRead (s : State) (a n ecc : Nat) (old : Bool) : List Byte × State :=
  if s.refuses a && !old then (List.replicate n 0#8, s.fail errRet)
  else s.eccRead a n 4 ecc (fun t => t.rbs a n)

/-- The bytes that a write leaves: plain (1), bit-set (2), bit-clear (3) (R336). -/
def mixBytes (kind : Nat) (old new : List Byte) : List Byte :=
  match kind with
  | 2 => List.zipWith (fun o n => o ||| n) old new
  | 3 => List.zipWith (fun o n => o &&& ~~~n) old new
  | _ => new

/-- A write of shared memory lands (R336, R337). -/
def State.sharedLand (s : State) (a kind : Nat) (data : List Byte) : State :=
  let n := data.length
  let s1 := if kind == 1 then s.ueClear a n 4 else s
  (s1.wbs a (mixBytes kind (s.rbs a n) data)).ok

/-- A write of shared memory (R336, R339). -/
def State.sharedWrite (s : State) (a kind : Nat) (data : List Byte) (old : Bool) : State :=
  if s.refuses a && !old then s.fail errRet else s.sharedLand a kind data

/-! ## Vermilion (R342 to R351) -/

/-- The codes of VERM_STATUS.ACCESS. -/
def accLocked : Nat := 0
def accUnlocked : Nat := 1
def accOpen : Nat := 2
def accBlocked : Nat := 3

/-- VERM_STATUS.ACCESS. -/
def State.verm (s : State) : Nat := s.get F.vermStatusAccess

/-- SYS_STATE.LC: 0 BLANK, 1 DEVELOP, 2 PRODUCTION, 3 FIELD_RETURN. -/
def State.lc (s : State) : Nat := s.get F.sysStateLc

/-- Master `m` may access Vermilion (R342). -/
def State.vermMay (s : State) (m : Master) : Bool :=
  match m with
  | .boot => !s.flag F.vermStatusWiping && !s.flag F.vermStatusWipeFail
  | .host h => h.val == 0 && (s.verm == accUnlocked || s.verm == accOpen)
  | _ => false

/-- A refused Vermilion access: PERM, DENIED for a host (R342). -/
def State.vermRefuse (s : State) (m : Master) : State :=
  let s1 := s.bump F.vermStatusDenyCnt 1
  match m with
  | .host _ => s1.denied
  | _ => s1.fail errPerm

/-- ACCESS by life cycle (Table 12-4). -/
def State.vermAccess (s : State) : Nat := if s.lc == 0 || s.lc == 3 then accOpen else accLocked

/-- ACCESS after a boot or a wipe, BLOCKED until power-on reset after a failed wipe or a life-cycle request (R349, R351). -/
def State.vermBack (s : State) : Nat :=
  if s.sm.lcPhase != 0 || s.flag F.vermStatusWipeFail then accBlocked else s.vermAccess

/-- A write of Vermilion: to the sealed page it waits while a seal runs (R345). -/
def State.vermWrite (s : State) (m : Master) (a : Nat) (data : List Byte) : State :=
  if !s.vermMay m then s.vermRefuse m
  else if s.flag F.vermStatusSealing && decide (a < 0x03002000) then
    { s with sm := { s.sm with heldSeal := s.sm.heldSeal ++ [(a, data)] }, resp := .held }
  else (s.wbs a data).ok

/-- Token word `w` of slot `t`, and the slot's validity (Table 12-3). -/
def State.slotWord (s : State) (t w : Nat) : Word := s.rw (0x03000040 + 0x40 * t + 4 * w)
def State.slotValid (s : State) (t : Nat) : Bool := s.rw (0x03000060 + 0x40 * t) == 1#32

/-- The comparison of an unlock attempt (Table 12-4). -/
def State.tokenOk (s : State) : Bool :=
  s.lc == 1 ||
  (List.range 8).all (fun t => !s.slotValid t) ||
  (List.range 8).any (fun t => s.slotValid t && (List.range 8).all (fun w => s.slotWord t w == s.rd (R.vermToken w)))

/-- The token registers zeroed (R347). -/
def State.tokensZero (s : State) : State := (List.range 8).foldl (fun (t : State) w => t.wr (R.vermToken w) 0#32) s

/-- An unlock attempt of host 0 (R346, R347). -/
def State.unlockTry (s : State) : State :=
  if s.flag F.vermStatusLockout || s.verm != accLocked then s
  else if s.tokenOk then s.tokensZero.put F.vermStatusAccess accUnlocked
  else
    let s1 := (s.tokensZero.bump F.vermStatusFail 1).cntInc 6
    s1.setIf (decide (8 ≤ s1.get F.vermStatusFail)) F.vermStatusLockout

/-- LOCK (R347). -/
def State.lockReq (s : State) : State := if s.verm == accUnlocked then s.put F.vermStatusAccess accLocked else s

/-- SEAL (R345, Table 12-4). -/
def State.sealReq (s : State) (m : Master) : State :=
  if s.flag F.vermStatusSealing then s
  else if s.vermMay m && s.lc != 3 then { s.put F.vermStatusSealing 1 with sm := { s.sm with pageSt := 2#32, sealLost := false } }
  else s.put F.vermStatusSealErr 1

/-- The cells of the sealed page. -/
def State.sealedPage (s : State) : List Host.Cell := s.cells 0x03000000 0x2000

/-- The CRC over a page of 8 KiB given by its cells. -/
def pageCrcOf (p : List Host.Cell) : Word := crc32 ((List.range 0x2000).map (fun i => spGet memDefault p i))

/-- The seal sequence ends: page, CRC and state word stand in the partition, and held writes land (R345). Whether a word of the
partition will read with an uncorrectable error is a free bit (R344). -/
def State.sealEnd (s : State) : State :=
  if s.flag F.vermStatusSealing then
    let p := s.sealedPage
    let ue := s.draw.1.getLsbD 0
    let s1 := { s.draw.2.put F.vermStatusSealing 0 with
      sm := { s.sm with page := p, pageCrc := pageCrcOf p, pageSt := 1#32, heldSeal := [], pageUe := ue } }
    s.sm.heldSeal.foldl (fun (t : State) h => t.wbs h.1 h.2) s1
  else s

/-- A wipe starts with a cause; one that runs absorbs it, and below the brown-out threshold none starts (R348, R349, R465). A
seal in progress is abandoned, and a write that it held fails (R349). -/
def State.wipeStart (s : State) (cause : Nat) : State :=
  if s.flag F.vermStatusWiping || s.sm.brown then s
  else
    let s1 := ((s.put F.vermStatusAccess accBlocked).put F.vermStatusWiping 1).put F.vermStatusSealing 0
    { s1 with sm := { s1.sm with wcause := cause, pageSt := 2#32, heldSeal := [], sealLost := !s.sm.heldSeal.isEmpty } }

/-- The wipe ends, verified or with WIPE_FAIL (R349, R351). -/
def State.wipeEnd (s : State) (ok : Bool) : State :=
  if !s.flag F.vermStatusWiping then s
  else if !ok then
    let s1 := (s.put F.vermStatusWiping 0).put F.vermStatusWipeFail 1
    if s.sm.lcPhase == 1 then { s1.put F.otpStatusBusy 0 with sm := { s1.sm with lcPhase := 0 } } else s1
  else
    let s1 := (((s.memClear 0x03000000 0x03040000).put F.vermStatusWiping 0).put F.vermStatusWiped 1).put F.vermStatusWcause
      s.sm.wcause
    let s2 := (s1.cntInc 5).flog 0x0B (BitVec.ofNat 32 s.sm.wcause) 0#32
    let lcw := s.sm.lcPhase == 1
    let s3 := { s2 with sm := { s2.sm with
      page := []
      pageCrc := 0#32
      pageSt := 0#32
      pageUe := false
      lcPhase := if lcw then 2 else s2.sm.lcPhase } }
    s3.put F.vermStatusAccess s.vermBack

/-- The restore reads a word of the partition with an uncorrectable error (R344, R357): the partition has no address, so what
MRAMC_ERRADDR and the log entry take is free. -/
def State.pageUeSeen (s : State) : State :=
  let r := s.draw
  (((r.2.wr R.mramcErraddr r.1).put F.mramcStatusUe 1).cntInc 7).flog 0x0C 1#32 r.1

/-- The restore at boot by the partition's state word; an uncorrectable error counts as a CRC mismatch (R344). -/
def State.vermRestore (s : State) : State :=
  if s.sm.pageSt == 0#32 then s.put F.vermStatusAccess s.vermBack
  else if s.sm.pageSt == 1#32 && s.sm.pageUe then s.pageUeSeen.wipeStart 6
  else if s.sm.pageSt == 1#32 && pageCrcOf s.sm.page == s.sm.pageCrc then
    let s1 := s.memClear 0x03000000 0x03002000
    { s1 with mem := s.sm.page.foldl (fun (m : List Host.Cell) (e : Host.Cell) => spSet memDefault m (0x03000000 + e.1) e.2) s1.mem }.put F.vermStatusAccess
      s.vermBack
  else s.wipeStart (if s.sm.pageSt == 2#32 then 7 else 6)

/-- A write of VERM_CTRL: only the highest set bit acts; WIPE, LOCK and UNLOCK are host 0's, SEAL also the boot
sequencer's (R373). -/
def State.vermCtrlWrite (s : State) (m : Master) (v : Word) : State :=
  if v.getLsbD 3 then s.guard (host0Only m) (fun t => t.wipeStart 5)
  else if v.getLsbD 2 then s.guard (host0Boot m) (fun t => t.sealReq m)
  else if v.getLsbD 1 then s.guard (host0Only m) (fun t => t.lockReq)
  else if v.getLsbD 0 then s.guard (host0Only m) (fun t => t.unlockTry)
  else s.guard (host0Boot m) id

/-! ## The MRAM store (R352 to R357) -/

/-- Host 0 owns DMA channel `n` (R358). -/
def State.dmaOwner (s : State) (n : Nat) : Nat := s.get (F.dmaOwnOwner n)

/-- Master `m` may write the store at `a` by its region (Table 12-6). -/
def State.mramMay (s : State) (m : Master) (a : Nat) : Bool :=
  let o := a - 0x07000000
  if o < 0x41000 then
    match m with
    | .boot => true
    | .host h => h.val == 0 && s.flag F.mramcCtrlWsWen
    | .dma n => s.dmaOwner n == 0 && s.flag F.mramcCtrlWsWen
    | _ => false
  else if o < 0x77000 then
    match m with
    | .boot => true
    | .host _ => true
    | .dma _ => true
    | .core _ => true
    | _ => false
  else false

/-- A write of the store: its word operations arrive, or PERM (R353, R355); a narrow one reads its word, and fails where that cannot be
read (R357). The answer comes once they stand in the array. -/
def State.mramPut (s : State) (m : Master) (a : Nat) (data : List Byte) : State :=
  if s.mramMay m a then
    match (if data.length < 8 then s.ueIn a data.length 8 else none) with
    | some u => s.ueSeen u
    | none => { s.mramPush (some m) (if data.length == 16 then [(a, data.take 8), (a + 8, data.drop 8)] else [(a, data)]) with resp := .held }
  else
    ((s.put F.mramcStatusProt 1).wr R.mramcErraddr (BitVec.ofNat 32 (a / 8 * 8))).fail errPerm

/-- Writes of the warm-start record are in the queue. -/
def State.recordQueued (s : State) : Bool := s.sm.wq.any (fun e => e.own == some .boot && decide (e.addr < 0x07041000))

/-- The record's next word writes enter the queue as far as there is room; when the last has landed, the record's turn ends, with
WS_WRITTEN where it was written (R353, R438). -/
def State.recordFeed (s : State) : State :=
  if s.boot.wsGo == 0 then s
  else
    let n := 8 - s.sm.wq.length
    let s1 := ({ s with boot := { s.boot with wsRest := s.boot.wsRest.drop n } }).mramPush (some .boot) (s.boot.wsRest.take n)
    if s1.boot.wsRest.isEmpty && !s1.recordQueued then
      { s1.setIf (s.boot.wsGo == 1) F.bootStatusWsWritten with boot := { s1.boot with wsGo := 0, wsTodo := false } }
    else s1

/-- The oldest word write stands in the array, and the next that waits enters the queue (R353). -/
def State.mramDone (s : State) : State :=
  match s.sm.wq with
  | [] => s
  | e :: l => ((({ s with sm := { s.sm with wq := l } }.ueClear e.addr e.data.length 8).wbs e.addr e.data).mramShow).recordFeed

/-- MRAMC_CNT_INC (R356). -/
def State.cntIncWrite (s : State) (v : Word) : State :=
  let c := fieldOf v.toNat 0 6
  if c < 16 then s.put F.mramcStatusProt 1 else s.cntInc c

/-! ## Any memory -/

/-- A store made word by word through `wr`, a narrow one merged with what `rd` finds. -/
def State.byWords (s : State) (a : Nat) (data : List Byte) (rd : State → Nat → Word) (wr : State → Nat → Word → State) : State :=
  let n := data.length
  if n < 4 then
    let w := a / 4 * 4
    wr s w (BitVec.ofNat 32 (putField (rd s w).toNat (8 * (a % 4)) (8 * n) (leNat data)))
  else
    (List.range (n / 4)).foldl (fun (t : State) i => wr t (a + 4 * i) (BitVec.ofNat 32 (leNat ((data.drop (4 * i)).take 4)))) s

/-- A load made word by word through `rd`. -/
def byteAt (rd : Nat → Word) (a : Nat) : Byte := BitVec.ofNat 8 (fieldOf (rd (a / 4 * 4)).toNat (8 * (a % 4)) 8)

/-- The word at `a` of the windows of engines. -/
def State.teMemRead (s : State) (a : Nat) : Word :=
  if isDelay a then s.dlyFabRead ((a - 0x05000000) / 0x100000) (a % 0x100000 / 4)
  else if isPmem a then
    let e := (a - 0x06000000) / 0x20000
    if !s.tePowered e || decide (0x18000 ≤ a % 0x20000) then 0#32 else s.rw a
  else if isActiveView a then s.actRead a
  else s.shRead a

/-- A word written in the windows of engines. -/
def State.teMemWrite (s : State) (m : Master) (a : Nat) (v : Word) : State :=
  if isDelay a then s.ok.dlyFabWrite ((a - 0x05000000) / 0x100000) (a % 0x100000 / 4) v
  else if isPmem a then s.ok.pmemWrite ((a - 0x06000000) / 0x20000) (a % 0x20000) v
  else if isActiveView a then s.actWrite
  else s.shWrite m a v

/-! ## Collisions with a core's port C (R240, R241) -/

/-- The core and the local address of an address of the local memories. -/
def coreAt (a : Nat) : Nat := (a - 0x04000000) / 0x40000
def localAt (a : Nat) : Nat := (a - 0x04000000) % 0x40000

/-- The words that the core's last bundle stored and that an access of `n` bytes at `a` meets. -/
def State.portMeets (s : State) (a n : Nat) : List (Nat × Word × Word) :=
  (s.core (coreAt a)).st.filter (fun p => decide (p.1 < localAt a + n) && decide (localAt a < p.1 + 4))

/-- A word stored by the core differs in a byte that the fabric's `data` at local address `o` write too. -/
def dataDiffer (o : Nat) (data : List Byte) (p : Nat × Word × Word) : Bool :=
  (List.range 4).any (fun i => decide (o ≤ p.1 + i) && decide (p.1 + i < o + data.length) &&
    (wordBytes p.2.2)[i]? != data[p.1 + i - o]?)

/-- A write through port F; `same`: in the CORE_CLK cycle of the core's last bundle. The fabric's bytes stand, and each word
that the two write differently counts (R241). -/
def State.localWrite (s : State) (a : Nat) (data : List Byte) (same : Bool) : State :=
  if s.igPowered (coreAt a) then
    let n := if same then ((s.portMeets a data.length).filter (dataDiffer (localAt a) data)).length else 0
    ((s.wbs a data).bump (F.igCollideCntCount (coreAt a)) n).ok
  else s.ok

/-- A byte as it was before the core's last bundle. -/
def State.byteBefore (s : State) (a : Nat) : Byte :=
  match (s.core (coreAt a)).st.find? (fun p => decide (p.1 ≤ localAt a) && decide (localAt a < p.1 + 4)) with
  | some p => ((wordBytes p.2.1)[localAt a - p.1]?).getD 0#8
  | none => s.rb a

/-- A read through port F: in the cycle of a store it finds the word as it was before (R241). -/
def State.localRead (s : State) (a n : Nat) (same : Bool) : List Byte × State :=
  if s.igPowered (coreAt a) then
    (if same then (List.range n).map (fun i => s.byteBefore (a + i)) else s.rbs a n, s.ok)
  else (List.replicate n 0#8, s.ok)

/-- No ENG_CLK cycle has passed since the last bundle of core `c`, but for the one that may share its CORE_CLK cycle (R241). -/
def State.stNow (s : State) (c : Nat) : Bool :=
  decide ((s.core c).stAt ≤ s.engCyc) && decide (s.engCyc < (s.core c).stAt + 2)

/-- Whether an access of `n` bytes at `a` falls into the cycle of the core's last bundle: a free value where both meet a word. -/
def State.sameCycle (s : State) (a n : Nat) : Bool × State :=
  if (s.portMeets a n).isEmpty || !s.stNow (coreAt a) then (false, s) else (s.draw.1.getLsbD 0, s.draw.2)

/-- A read of `n` bytes at `a` by master `m`; `ecc` tells of an error that the array meets now, `old` that the read was issued
before its group refused accesses (R332 to R357). -/
def State.memRead (s : State) (m : Master) (a n ecc : Nat) (old : Bool) : List Byte × State :=
  let zero := List.replicate n 0#8
  if !isMemory a then (zero, s.fail errDecode)
  else if !accessOk a n then (zero, s.fail errAlign)
  else if s.mustWait a then
    (zero, { s with sm := { s.sm with waits := s.sm.waits ++ [⟨some m, a, 0, n, []⟩] }, resp := .held })
  else if isShared a then s.sharedRead a n ecc old
  else if isSetAlias a then s.sharedRead (a - 0x01000000) n ecc old
  else if isClrAlias a then s.sharedRead (a - 0x02000000) n ecc old
  else if isVerm a then (if s.vermMay m then (s.rbs a n, s.ok) else (zero, s.vermRefuse m))
  else if isLocal a then (s.sameCycle a n).2.localRead a n (s.sameCycle a n).1
  else if isMram a then s.eccRead a n 8 ecc (fun t => (List.range n).map (fun i => t.mramByte (a + i)))
  else ((List.range n).map (fun i => byteAt s.teMemRead (a + i)), s.ok)

/-- A write of bytes at `a` by master `m`. -/
def State.memWrite (s : State) (m : Master) (a : Nat) (data : List Byte) (old : Bool) : State :=
  let n := data.length
  if !isMemory a then s.fail errDecode
  else if !accessOk a n then s.fail errAlign
  else if s.mustWait a then
    let k := if isSetAlias a then 2 else if isClrAlias a then 3 else 1
    { s with sm := { s.sm with waits := s.sm.waits ++ [⟨some m, a, k, n, data⟩] }, resp := .held }
  else if isShared a then s.sharedWrite a 1 data old
  else if isSetAlias a then s.sharedWrite (a - 0x01000000) 2 data old
  else if isClrAlias a then s.sharedWrite (a - 0x02000000) 3 data old
  else if isVerm a then s.vermWrite m a data
  else if isLocal a then (s.sameCycle a n).2.localWrite a data (s.sameCycle a n).1
  else if isMram a then s.mramPut m a data
  else s.byWords a data (fun t w => t.teMemRead w) (fun t w v => t.teMemWrite m w v)

/-- The data of a write command, at its size. -/
def sizedBytes (data : List Byte) (n : Nat) : List Byte := (data ++ List.replicate n 0#8).take n

/-- What a read returns to its master: the bytes, and their first word (R332). -/
def State.answer (p : List Byte × State) : State := { p.2 with rbytes := p.1, rdata := BitVec.ofNat 32 (leNat (p.1.take 4)) }

/-- A memory access of `n` bytes, the data of a write among them. -/
def State.memAccess (s : State) (m : Master) (a : Nat) (wr : Bool) (n : Nat) (data : List Byte) (ecc : Nat) (old : Bool) :
    State :=
  if wr then s.memWrite m a data old else State.answer (s.memRead m a n ecc old)

/-! ## Conflict cycles (R335) -/

/-- Address `a` lies at a target whose conflict cycles count: shared memory, a delay store, port F of a core. -/
def isConf (a : Nat) : Bool := (grpOf a).isSome || isDelay a || isLocal a

/-- Master number `k` has waited `n` cycles at `a` while others were served (R335). -/
def State.waited (s : State) (k : Option Nat) (a n : Nat) : State :=
  match k with
  | some i => if isConf a then s.conflict i n else s
  | none => s

/-- The cycles that an access of another command waits are a free value, at most 30 at a bank (R334). -/
def State.waitedFree (s : State) (k : Option Nat) (a : Nat) : State :=
  if k.isSome && isConf a then s.draw.2.waited k a (if (grpOf a).isSome then s.draw.1.toNat % 31 else s.draw.1.toNat) else s

/-- A read that another command makes. -/
def State.fabRead (s : State) (m : Master) (a n : Nat) (old : Bool) : List Byte × State :=
  (s.waitedFree (masterNo m) a).memRead m a n 0 old

/-- A write that another command makes. -/
def State.fabWrite (s : State) (m : Master) (a : Nat) (data : List Byte) (old : Bool) : State :=
  (s.waitedFree (masterNo m) a).memWrite m a data old

/-! ## Retention (R339, R340) -/

/-- State of group `g` set. -/
def State.setGrpState (s : State) (g v : Nat) : State := s.put (F.smemRetStatState g) v

/-- Cache misses under way in group `g` were issued before it refuses accesses (R339, R340). -/
def State.missesOld (s : State) (g : Nat) : State :=
  (List.range 16).foldl (fun (t : State) c =>
    if (t.igState c == 2 || t.igState c == 3) && (t.core c).missing && grpOf (t.core c).pc == some g then
      t.setCore c (fun k => { k with fillOld := true })
    else t) s

/-- RET[g] written (R339, R340). -/
def State.retBit (s : State) (g : Nat) (on : Bool) : State :=
  let s1 := s.put F.smemRetRet (putField (s.get F.smemRetRet) g 1 (b2n on))
  let st := s.get (F.smemRetStatState g)
  if on then (if st == 0 then (s1.missesOld g).setGrpState g 1 else s1)
  else (if st == 2 then s1.setGrpState g 3 else s1)

/-- A write of SMEM_RET: each changed bit by its rule. -/
def State.retWrite (s : State) (v : Word) : State :=
  (List.range 12).foldl (fun (t : State) g =>
    if (t.get F.smemRetRet).testBit g == v.getLsbD g then t else t.retBit g (v.getLsbD g)) s

/-- An access to group `g` that was issued before the group refused accesses is outstanding (R339). -/
def State.grpBusy (s : State) (g : Nat) : Bool :=
  s.dma.ch.toList.any (fun k => k.out.any (fun x => x.ok && grpOf x.addr == some g)) ||
  s.ig.toList.any (fun k => (k.stall == 1 && k.fldOk && grpOf k.fldAddr == some g) ||
    k.fst_.any (fun x => x.ok && grpOf x.addr == some g) || (k.fillOld && grpOf k.pc == some g)) ||
  s.hp.toList.any (fun p => p.woken.any (fun a => grpOf a == some g)) || s.boot.memOld.testBit g

/-- RETENTION_ENTERED: the last access issued earlier has completed, and the group is in RET, or wakes at once when RET[g] was
cleared meanwhile (R339, R340). -/
def State.retEntered (s : State) (g : Nat) : State :=
  if s.get (F.smemRetStatState g) == 1 && !s.grpBusy g then
    s.setGrpState g (if (s.get F.smemRetRet).testBit g then 2 else 3)
  else s

/-- One access that has waited for the group. -/
def State.runWait (s : State) (x : MemWait) : State :=
  match x.m with
  | some m => s.memAccess m x.addr (x.kind != 0) x.size x.data 0 true
  | none => s.sharedLand x.addr 1 x.data

/-- GROUP_WAKE_DONE: the group is ON, the accesses that waited take effect, and an entry asked for meanwhile starts; line fetches and
reads of the boot sequencer that wait keep their turn before it (R340). -/
def State.wakeDone (s : State) (g : Nat) : State :=
  if s.get (F.smemRetStatState g) == 3 then
    let mine := fun (x : MemWait) => grpOf x.addr == some g
    let go := s.sm.waits.filter mine
    let s1 := { s.setGrpState g 0 with sm := { s.sm with waits := s.sm.waits.filter (fun x => !mine x) } }
    let s2 := go.foldl State.runWait s1
    if (s2.get F.smemRetRet).testBit g then (s2.missesOld g).setGrpState g 1
    else { s2 with boot := { s2.boot with memOld := putField s2.boot.memOld g 1 0 } }
  else s

/-! ## The frame-buffer engine (R334, R341) -/

/-- The word that a read of four bytes found. -/
def wordRead (r : List Byte × State) : Word × State := (BitVec.ofNat 32 (leNat r.1), r.2)

/-- A word of local memory as a frame buffer's access finds it. -/
def State.fbLocal (s : State) (a : Nat) : Word × State :=
  wordRead ((s.sameCycle a 4).2.localRead a 4 (s.sameCycle a 4).1)

/-- A sample of a frame-buffer word: 0 with SMEM_ERR.BUF where the access fails (R341). One that arrives in WAKING finds the word
as it is once the group is ON (R340). -/
def State.fbRead (s : State) (a : Nat) : Word × State :=
  let t := s.waitedFree (some 5) a
  if isShared a then
    if s.refuses a then (0#32, (t.fail errRet).put F.smemErrBuf 1)
    else
      let u := if s.mustWait a then s.wakeDone (a / 2 ^ 20) else s
      match u.ueIn a 4 4 with
      | some w => (0#32, (t.ueSeen w).put F.smemErrBuf 1)
      | none => (u.rw a, t)
  else if isLocal a then
    t.fbLocal a
  else (0#32, (t.fail errDecode).put F.smemErrBuf 1)

/-- A frame-buffer word written; dropped with SMEM_ERR.BUF where the access fails (R341), waiting in WAKING (R340). -/
def State.fbWrite (s : State) (a : Nat) (v : Word) : State :=
  let t := s.waitedFree (some 5) a
  if isShared a then
    if s.refuses a then (t.fail errRet).put F.smemErrBuf 1
    else if s.mustWait a then { t with sm := { t.sm with waits := t.sm.waits ++ [⟨none, a, 1, 4, wordBytes v⟩] } }
    else t.sharedLand a 1 (wordBytes v)
  else if isLocal a then (t.sameCycle a 4).2.localWrite a (wordBytes v) (t.sameCycle a 4).1
  else (t.fail errDecode).put F.smemErrBuf 1

/-! ## Meanings -/

/-- SHARED_MEMORY_ACCESS: an access to a memory of Table 01-9 that has waited `lost` cycles; addresses of the register range
are no memory. `ecc` tells of an error that the array meets. -/
def execSharedMemoryAccess (m : Master) (a : Word) (wr : Bool) (data : List Byte) (ecc lost : Nat) (s : State) : Out :=
  .next (if 0x08000000 ≤ a.toNat then s else (s.waited (masterNo m) a.toNat lost).memAccess m a.toNat wr data.length data ecc false)
/-- DELAY_STORE_FABRIC_ACCESS: an access at a byte offset of the window of engine `e` (R78, R79). -/
def execDelayStoreFabricAccess (m : Master) (e : Fin 8) (off : Nat) (wr : Bool) (x : Payload) (s : State) : Out :=
  .next ((s.waited (masterNo m) (dlyBase e) x.lost).memAccess m (dlyBase e + off % 0x100000) wr x.bytes.length x.bytes 0 false)
/-- BIT_SET_WRITE at a shared-memory address or at its alias. -/
def execBitSetWrite (m : Master) (a : Word) (data : List Byte) (lost : Nat) (s : State) : Out :=
  let d := if isShared a.toNat then 0x01000000 + a.toNat else a.toNat
  .next (if isSetAlias d then (s.waited (masterNo m) d lost).memWrite m d data false else s)
/-- BIT_CLEAR_WRITE at a shared-memory address or at its alias. -/
def execBitClearWrite (m : Master) (a : Word) (data : List Byte) (lost : Nat) (s : State) : Out :=
  let d := if isShared a.toNat then 0x02000000 + a.toNat else a.toNat
  .next (if isClrAlias d then (s.waited (masterNo m) d lost).memWrite m d data false else s)
def execRetentionRequest (m : Master) (g : Fin 12) (s : State) : Out :=
  .next (s.guard (host0Boot m) (fun t => if (t.get F.smemRetRet).testBit g then t else t.retBit g true))
def execRetentionEntered (g : Fin 12) (s : State) : Out := .next (s.retEntered g)
def execWakeRequest (m : Master) (g : Fin 12) (s : State) : Out :=
  .next (s.guard (host0Boot m) (fun t => if (t.get F.smemRetRet).testBit g then t.retBit g false else t))
def execGroupWakeDone (g : Fin 12) (s : State) : Out := .next (s.wakeDone g)
def execUnlock (m : Master) (s : State) : Out := .next (s.guard (host0Only m) (fun t => t.unlockTry))
def execLock (m : Master) (s : State) : Out := .next (s.guard (host0Only m) (fun t => t.lockReq))
def execVermSeal (m : Master) (s : State) : Out := .next (s.guard (host0Boot m) (fun t => t.sealReq m))
def execSealDone (s : State) : Out := .next s.sealEnd
def execWipe (m : Master) (s : State) : Out := .next (s.guard (host0Only m) (fun t => t.wipeStart 5))
def execWipeDone (ok : Bool) (s : State) : Out := .next (s.wipeEnd ok)
def execTamper (s : State) : Out := .next (s.wipeStart 1)
def execVoltageGlitch (s : State) : Out := .next (s.wipeStart 2)
def execClockGlitch (s : State) : Out := .next (s.wipeStart 3)
def execMramWrite (m : Master) (a : Word) (size : Nat) (data : List Byte) (s : State) : Out :=
  .next (if isMram a.toNat then s.memWrite m a.toNat (sizedBytes data size) false else s)
def execMramWordWriteDone (s : State) : Out := .next s.mramDone
def execCounterIncrement (m : Master) (v : Word) (s : State) : Out :=
  .next (s.guard (host0Boot m) (fun t => t.cntIncWrite v))
/-- LOCAL_MEMORY_FABRIC_ACCESS: an access through port F, one aligned access of up to 16 bytes; `same` tells that it falls into
the CORE_CLK cycle of the core's last bundle (R240, R241). -/
def execLocalMemoryFabricAccess (m : Master) (c : Fin 16) (off : Nat) (wr : Bool) (x : Payload) (same : Bool) (s : State) : Out :=
  let a := lmBase c + off % 0x40000
  let t := s.waited (masterNo m) a x.lost
  .next (if !accessOk a x.bytes.length then t.fail errAlign
    else if wr then t.localWrite a x.bytes same else State.answer (t.localRead a x.bytes.length same))

end Sys2Proof.Machine
end

