-- ==== Sys2Proof/Machine/Vat.lean ====
section
/-! DEFINITION. The Vat: descriptors, submission, partitions, dispatch and item start, completion records, frame clocks and
buffers (R213, R247 to R273). Release, which may start a DMA channel, is in Release.lean. -/

namespace Sys2Proof.Machine

/-- The signed 32-bit difference of two frame numbers (R252). -/
def frameDiff (a b : Nat) : Int := sx 32 (a + 2 ^ 32 - b % 2 ^ 32)

/-- The Vat changed by `g`. -/
def State.setVat (s : State) (g : VatS → VatS) : State := { s with vat := g s.vat }

/-- Frame clock `c` changed by `g`. -/
def State.setFclk (s : State) (c : Nat) (g : FClk → FClk) : State :=
  s.setVat (fun v => { v with clk := ns v.clk c (g (s.fclk c)) })
/-- VAT_FNUMc. -/
def State.fnum (s : State) (c : Nat) : Nat := s.get (F.vatFnumFnum c)
/-- Playback buffer `b`'s state. -/
def State.pbuf (s : State) (b : Nat) : PBuf := spGet (fun _ => ⟨false, false, 0, 0#32, 0#32⟩) s.vat.buf b
/-- Playback buffer `b`'s state set. -/
def State.setPbuf (s : State) (b : Nat) (x : PBuf) : State :=
  s.setVat (fun v => { v with buf := spSet (fun _ => ⟨false, false, 0, 0#32, 0#32⟩) v.buf b x })

/-- The machine stands at a tick boundary of the clock's domain whose DTICK is a multiple of N, and no drain begins here (R265,
R271). -/
def State.atFence (s : State) (c : Nat) : Bool :=
  match domOf (s.get (F.vatFclkDom c)) with
  | some d => s.runs && !s.endsHere && s.sys.cyc == 0 && s.tickAt d s.sys.qt && s.dtick d % s.frameLen c == 0
  | none => false

/-- A fence of clock `c` falls on this edge and its FRAME_FENCE has not come. -/
def State.fenceDue (s : State) (c : Nat) : Bool :=
  s.flag (F.vatFclkRun c) && s.atFence c && (s.fclk c).at_ != some s.sys.qt

/-- The clock runs in the frame in progress: at its fence, in the frame that the fence opens (R265). At the edge at which it starts
it does not run yet, since TICK_BOUNDARY comes before FRAME_CLOCK_START (DESIGN CHOICE, log 135). -/
def State.clkRuns (s : State) (c : Nat) : Bool := s.flag (F.vatFclkRun c) && (!s.fenceDue c || s.flag (F.vatFclkEn c))

/-- The number of the frame in progress: at a fence that of the frame that it opens (R252). -/
def State.frameNow (s : State) (c : Nat) : Nat := if s.fenceDue c then (s.fnum c + 1) % 2 ^ 32 else s.fnum c

/-! ## Descriptors (R247, R248, R251 to R253) -/

/-- Word `i` of a descriptor. -/
def dsc (d : List Word) (i : Nat) : Nat := ((d[i]?).getD 0#32).toNat

/-- The TGT bits that an action uses (Table 09-1). -/
def tgtMask (act : Nat) : Nat :=
  match act with
  | 1 => 0xFF
  | 2 => 0x03
  | 3 => 0x1F
  | 4 => 0x7F
  | _ => 0

/-- A descriptor is invalid (R248). -/
def State.dscInvalid (s : State) (d : List Word) : Bool :=
  let act := fieldOf (dsc d 4) 0 3
  let tgt := fieldOf (dsc d 4) 8 8
  let flow := fieldOf (dsc d 2) 0 6
  dsc d 2 &&& 0xFFFF48C0 != 0 || dsc d 4 &&& 0xFFFF00F8 != 0 || dsc d 6 != 0 || dsc d 7 != 0 ||
  (decide (act ≤ 4) && tgt &&& tgtMask act != tgt) ||
  !isShared (dsc d 0) || dsc d 0 % 8 != 0 || decide (5 ≤ act) ||
  ((dsc d 2).testBit 15 && flow == 0) ||
  (act == 4 && (flow == 0 || s.get (F.vatBufCfgMode tgt) != 1 || s.get (F.vatBufCfgFlow tgt) != flow))

/-- Pending items of partition `p`. -/
def State.pendingIn (s : State) (p : Nat) : Nat := (s.vat.pend.filter (fun i => i.part == p)).length

/-- The item that a descriptor describes; with FAUTO its frame is the one before the frame in progress (R252). -/
def State.itemOf (s : State) (d : List Word) : Item :=
  let flow := fieldOf (dsc d 2) 0 6
  let clk := s.get (F.vatFlowCfgFclk flow)
  { id := s.vat.nextId
    entry := dsc d 0
    arg := BitVec.ofNat 32 (dsc d 1)
    part := fieldOf (dsc d 2) 12 2
    prio := fieldOf (dsc d 2) 8 3
    flow := flow
    frame := if (dsc d 2).testBit 15 then (s.frameNow clk + 2 ^ 32 - 1) % 2 ^ 32 else dsc d 3
    act := fieldOf (dsc d 4) 0 3
    tgt := fieldOf (dsc d 4) 8 8
    tag := BitVec.ofNat 32 (dsc d 5)
    clk := clk
    expired := false }

/-- The result code of a descriptor, by the order of Table 09-2. -/
def State.dscCheck (s : State) (d : List Word) (host : Option Nat) : Nat :=
  let it := s.itemOf d
  let quota := s.get (F.vatPartCfgQuota it.part)
  if s.dscInvalid d then 1
  else if (match host with
    | some h => !(s.get (F.vatPartCfgHosts it.part)).testBit h
    | none => false) then 2
  else if !s.flag (F.vatPartCfgEn it.part) then 3
  else if it.flow != 0 && (!s.flag (F.vatFlowCfgEn it.flow) || s.get (F.vatFlowCfgPart it.flow) != it.part ||
      !s.clkRuns it.clk) then 4
  else if it.flow != 0 && (decide (frameDiff it.frame (s.frameNow it.clk) < -1) ||
      decide (frameDiff it.frame (s.fclk it.clk).first < 0)) then 5
  else if it.flow != 0 && decide (2 < frameDiff it.frame (s.frameNow it.clk)) then 6
  else if decide (1024 ≤ s.vat.pend.length) || decide ((if quota = 0 then 1024 else quota) ≤ s.pendingIn it.part) then 7
  else 0

/-- The paths by which descriptors come (R249). -/
inductive VatPath where
  | host
  | engine
  | dma
  | core
  | boot
  deriving DecidableEq, Repr

/-- A refusal counts by its path (VAT_REFUSE_CNT). -/
def State.refused (s : State) (p : VatPath) : State :=
  match p with
  | .host => s.bump F.vatRefuseCntHost 1
  | .engine => s.bump F.vatRefuseCntEngine 1
  | .dma => s.bump F.vatRefuseCntDma 1
  | .core => s.bump F.vatRefuseCntCore 1
  | .boot => s

/-- The Vat accepts or refuses a descriptor (R251): its result code, and the state after. -/
def State.vatOffer (s : State) (d : List Word) (p : VatPath) (host : Option Nat) : Nat × State :=
  let r := s.dscCheck d host
  if r == 0 then (0, s.setVat (fun v => { v with pend := v.pend ++ [s.itemOf d], nextId := v.nextId + 1 }))
  else (r, s.refused p)

/-- The path of a master's staged submission. -/
def pathOf (m : Master) : VatPath :=
  match m with
  | .host _ => .host
  | .core _ => .core
  | .dma _ => .dma
  | _ => .boot

/-- The host number of a submitting master (R251). -/
def hostOf (m : Master) : Option Nat :=
  match m with
  | .host h => some h.val
  | _ => none

/-- The result that master `m` reads in VAT_SUBMIT_RES (R250). -/
def State.vatRes (s : State) (m : Master) : Word := spGet (fun _ => 0#32) s.vat.res (latchNo m)

/-- A write of VAT_SUBMIT_Ww: it fills the writer's set, and word 7 submits it (R250). -/
def State.vatStage (s : State) (m : Master) (w : Nat) (v : Word) : State :=
  let k := 8 * latchNo m
  let s1 := s.setVat (fun x => { x with stage := spSet (fun _ => 0#32) x.stage (k + w) v })
  if w != 7 then s1
  else
    let d := (List.range 8).map (fun i => spGet (fun _ => 0#32) s1.vat.stage (k + i))
    let r := s1.vatOffer d (pathOf m) (hostOf m)
    let cnt := ((s.vatRes m).toNat / 2 ^ 16 + 1) % 2 ^ 16
    r.2.setVat (fun x => { x with res := spSet (fun _ => 0#32) x.res (latchNo m) (BitVec.ofNat 32 (cnt * 2 ^ 16 + r.1)) })

/-! ## Configuration (R254, R265, R266, R273) -/

/-- The number of cores of a SIZE code. -/
def partSize (c : Nat) : Nat := 2 ^ c

/-- A partition word is misaligned or shares a core with another enabled partition (R254). -/
def State.partBad (s : State) (p : Nat) (v : Word) : Bool :=
  let sz := fieldOf v.toNat 28 3
  let first := fieldOf v.toNat 24 4
  let n := partSize sz
  decide (4 < sz) || first % n != 0 || decide (16 < first + n) ||
  (List.range 4).any (fun q => q != p && s.flag (F.vatPartCfgEn q) &&
    decide (first < s.get (F.vatPartCfgFirst q) + partSize (s.get (F.vatPartCfgSize q))) &&
    decide (s.get (F.vatPartCfgFirst q) < first + n))

/-- A write of VAT_PART_CFGp (R254). -/
def State.partWrite (s : State) (p : Nat) (v : Word) : State :=
  if v.getLsbD 31 && s.partBad p v then s.put F.vatEvtCfgErr 1 else s.wr (R.vatPartCfg p) (v &&& 0xFFF3FFFF#32)

/-- A write of VAT_FCLKc (R265). -/
def State.fclkWrite (s : State) (c : Nat) (v : Word) : State :=
  let en := s.flag (F.vatFclkEn c)
  let run := s.flag (F.vatFclkRun c)
  let dom := fieldOf v.toNat 4 2
  let len := fieldOf v.toNat 0 3
  let s1 := if !en && !run then (s.put (F.vatFclkDom c) dom).put (F.vatFclkLen c) len
    else s.setIf (dom != s.get (F.vatFclkDom c) || len != s.get (F.vatFclkLen c)) F.vatEvtCfgIgn
  if v.getLsbD 31 && !en then
    if !run && (s1.get (F.vatFclkDom c) == 3 || decide (5 < s1.get (F.vatFclkLen c))) then s1.put F.vatEvtCfgErr 1
    else
      let nb := if s.runs then s.afterCutoff s.sys.cyc else 0
      (s1.put (F.vatFclkEn c) 1).setFclk c (fun k => { k with startNb := nb })
  else if !v.getLsbD 31 && en then s1.put (F.vatFclkEn c) 0
  else s1

/-- The frame clock of a flow runs. -/
def State.flowRuns (s : State) (f : Nat) : Bool := f != 0 && s.flag (F.vatFclkRun (s.get (F.vatFlowCfgFclk f)))

/-- Bytes of a buffer bound to flow `f`: two halves of N words; for no flow, only its first word counts. -/
def State.bufBytes (s : State) (f : Nat) : Nat := if f = 0 then 4 else 8 * s.frameLen (s.get (F.vatFlowCfgFclk f))

/-- A buffer of `n` bytes at `a` lies in shared memory or in one local memory. -/
def bufFits (a n : Nat) : Bool :=
  (isShared a && decide (a + n ≤ 0xC00000)) || (isLocal a && decide (a % 0x40000 + n ≤ 0x40000))

/-- A write of VAT_BUF_ADDRb (R266). -/
def State.bufAddrWrite (s : State) (b : Nat) (v : Word) : State :=
  let f := s.get (F.vatBufCfgFlow b)
  if s.flowRuns f || v.toNat % 16 != 0 || !bufFits v.toNat (s.bufBytes f) then s.put F.vatEvtCfgIgn 1
  else s.wr (R.vatBufAddr b) v

/-- A write of VAT_BUF_CFGb (R266). -/
def State.bufCfgWrite (s : State) (b : Nat) (v : Word) : State :=
  if s.flowRuns (s.get (F.vatBufCfgFlow b)) || s.flowRuns (fieldOf v.toNat 0 6) then s.put F.vatEvtCfgIgn 1
  else (s.wr (R.vatBufCfg b) (v &&& 0x33F#32)).setPbuf b ⟨false, false, 0, 0#32, 0#32⟩

/-! ## Dispatch (R255 to R259) and item start (R213) -/

/-- Core `c` belongs to enabled partition `p`. -/
def State.inPart (s : State) (p c : Nat) : Bool :=
  s.flag (F.vatPartCfgEn p) && decide (s.get (F.vatPartCfgFirst p) ≤ c) &&
    decide (c < s.get (F.vatPartCfgFirst p) + partSize (s.get (F.vatPartCfgSize p)))

/-- The partition of core `c`. -/
def State.partOf (s : State) (c : Nat) : Option Nat := (List.range 4).find? (fun p => s.inPart p c)

/-- Core `c` is eligible (R255, R448), and its clock runs: with CORE_CLK gated it holds its state (R316). -/
def State.eligible (s : State) (c : Nat) : Bool :=
  s.flag (F.pllStatusLocked 0) &&
  (s.partOf c).isSome && s.igState c == 1 && s.pwr (igPd c) == 3 && !(s.get F.thermStatusParked).testBit (c / 4)

/-- The window of an item's frame has opened (R266), or its frame belongs to an earlier epoch (R271). -/
def State.windowOpen (s : State) (it : Item) : Bool :=
  it.flow == 0 || decide (frameDiff it.frame (s.fclk it.clk).first < 0) ||
    (match (s.fclk it.clk).opened with
     | some k => decide (frameDiff it.frame k ≤ 0)
     | none => false)

/-- An item may be dispatched: no earlier item of its flow is pending, and its window is open (R256). -/
def State.dispatchable (s : State) (it : Item) : Bool :=
  (it.flow == 0 || !s.vat.pend.any (fun j => j.flow == it.flow && decide (j.id < it.id))) && s.windowOpen it

/-- The affinity core of an item (R257). -/
def State.affinity (s : State) (it : Item) : Option Nat :=
  if it.flow != 0 then (s.vat.aff.find? (fun p => p.1 == it.flow)).map Prod.snd
  else ((ng s.vat.ent it.part []).find? (fun p => p.1 == it.entry)).map Prod.snd

/-- Core `c` of a partition that dispatches by affinity may take the item (R257). -/
def State.mayTake (s : State) (c : Nat) (it : Item) : Bool :=
  match s.affinity it with
  | none => true
  | some a => a == c || it.expired || s.get (F.vatPartCfgAffWait it.part) == 0

/-- The first item of a list by PRIO descending, then submission order. -/
def bestItem (l : List Item) : Option Item :=
  l.foldl (fun b it => match b with
    | none => some it
    | some x => if x.prio < it.prio then some it else some x) none

/-- The item that an eligible core `c` takes (R257, R258). -/
def State.pick (s : State) (c : Nat) : Option Item :=
  match s.partOf c with
  | none => none
  | some p =>
    let aff := decide (s.get (F.vatPartCfgSize p) ≤ 2)
    bestItem (s.vat.pend.filter (fun it => it.part == p && s.dispatchable it && (!aff || s.mayTake c it)))

/-- The affinity records of an item that core `c` starts: the core of its flow, and the core of its ENTRY whatever the flow
(R257). -/
def State.affNote (s : State) (c : Nat) (it : Item) : State :=
  s.setVat (fun v => { v with
    aff := if it.flow != 0 then spPut it.flow c v.aff else v.aff
    ent := ns v.ent it.part (((it.entry, c) :: (ng v.ent it.part []).filter (fun p => p.1 != it.entry)).take 16) })

/-- Item start (R213): the core's state and its first bundle's address. -/
def State.itemStart (s : State) (c : Nat) (it : Item) : State :=
  let sc := s.rd (R.igScale c)
  let scale := if fieldOf sc.toNat 28 2 = 0 then BitVec.ofNat 32 (putField sc.toNat 28 2 1) else sc
  (s.put (F.igStatusState c) 2).setCore c (fun k => { Core.zero with
    w := ns (ns (ns Core.zero.w 0 it.arg) 1 (BitVec.ofNat 32 it.frame)) 2 (BitVec.ofNat 32 (it.prio * 2 ^ 8 + it.flow))
    scale := scale
    pc := it.entry
    limit := 16 * s.get (F.igWdtLimit c)
    pDbg := k.pDbg
    pWdt := k.pWdt
    pIll := k.pIll
    pFetch := k.pFetch
    pOvf := k.pOvf
    pDbell := k.pDbell
    ic := k.ic })

/-- VAT_DISPATCH: core `c` takes its item, unless a lower-numbered eligible core would take the same (R257 to R259). -/
def State.dispatch (s : State) (c : Nat) : State :=
  if !s.eligible c then s
  else match s.pick c with
    | none => s
    | some it =>
      if (List.range c).any (fun x => s.eligible x && s.pick x == some it) then s
      else
        let s1 := s.setVat (fun v => { v with pend := v.pend.filter (fun j => j.id != it.id), run := spPut c it v.run })
        (s1.affNote c it).itemStart c it

/-- The affinity wait of a dispatchable item expires (R257). -/
def State.affExpire (s : State) (id : Nat) : State :=
  s.setVat (fun v => { v with pend := v.pend.map (fun it => if it.id == id && s.dispatchable it then { it with expired := true } else it) })

/-! ## Completion (R260, R263, R264, R268) -/

/-- The item is the head of its flow: every earlier item of the flow has been released (R260). -/
def State.isHead (s : State) (it : Item) : Bool :=
  !(s.vat.pend.any (fun j => j.flow == it.flow && decide (j.id < it.id)) ||
    s.vat.run.any (fun p => p.2.flow == it.flow && decide (p.2.id < it.id)) ||
    s.vat.done.any (fun p => p.1.flow == it.flow && decide (p.1.id < it.id)))

/-- The item's frame is past its fence cutoff, or belongs to an earlier epoch (R268, R269, R271). -/
def State.lateItem (s : State) (it : Item) : Bool :=
  it.flow != 0 && (decide (frameDiff it.frame (s.fclk it.clk).first < 0) ||
    (match (s.fclk it.clk).cut with
     | some k => decide (frameDiff it.frame k ≤ 0)
     | none => false))

/-- Entries of the completion buffer: completed items that are not heads of an ordered flow (R260). -/
def State.buffered (s : State) : Nat := (s.vat.done.filter (fun p => p.1.flow != 0 && !s.isHead p.1)).length

/-- A completed item waits in its core for an entry of the completion buffer (R260). -/
def State.mustHold (s : State) (it : Item) : Bool := it.flow != 0 && !s.isHead it && decide (256 ≤ s.buffered)

/-- COUNT and STATUS of host `h`'s queue (VAT_CPL_STATh). -/
def State.cplShow (s : State) (h : Nat) : State :=
  let q := ng s.vat.cpl h []
  (s.put (F.vatCplStatCount h) q.length).put (F.vatCplStatStatus h) (match q with
    | [] => 0
    | r :: _ => r.2)

/-- A record for host `h`'s queue; a full queue drops it (R263). -/
def State.cplPush (s : State) (h : Nat) (tag : Word) (status : Nat) : State :=
  if 32 ≤ (ng s.vat.cpl h []).length then s.put (F.vatCplStatOvf h) 1
  else (s.setVat (fun v => { v with cpl := ns v.cpl h (ng v.cpl h [] ++ [(tag, status)]) })).cplShow h

/-- Host `h`'s read of VAT_CPL_TAGh removes the oldest record; other masters read 0 (R263). -/
def State.cplPop (s : State) (m : Master) (h : Nat) : State :=
  if hostOf m != some h then { s.ok with rdata := 0#32 }
  else match ng s.vat.cpl h [] with
    | [] => { s.ok with rdata := 0#32 }
    | r :: q => { ((s.setVat (fun v => { v with cpl := ns v.cpl h q })).cplShow h).ok with rdata := r.1 }

/-- A playback release of buffer `b` by an item (R268). -/
def State.playRelease (s : State) (it : Item) : State :=
  if s.lateItem it then s.put F.vatEvtLateRel 1
  else
    let x := s.pbuf it.tgt
    s.setPbuf it.tgt (if it.frame % 2 = 0 then { x with rel0 := true } else { x with rel1 := true })

/-! ## Frame clocks and buffers (R265 to R271) -/

/-- The playback buffers whose flow's frame clock is `c`. -/
def State.bufsOf (s : State) (c mode : Nat) : List Nat :=
  (List.range 128).filter (fun b => s.get (F.vatBufCfgMode b) == mode && s.get (F.vatBufCfgFlow b) != 0 &&
    s.get (F.vatFlowCfgFclk (s.get (F.vatBufCfgFlow b))) == c)

/-- The half that plays in frame `f` is the one of frame f - 2: heard when released, else silenced (R268, R270). -/
def PBuf.play (x : PBuf) (f : Nat) : PBuf :=
  let heard := if f % 2 = 0 then x.rel0 else x.rel1
  let quiet := x.mode == 0 || x.mode == 2
  { x with mode := if heard then (if quiet then 3 else 1) else 2, p := x.last }

/-- The release state of the half that has played in frame `f` is cleared (R268). -/
def PBuf.played (x : PBuf) (f : Nat) : PBuf := if f % 2 = 0 then { x with rel0 := false } else { x with rel1 := false }

/-- The playback buffers of clock `c` changed by `g`. -/
def State.mapBufs (s : State) (c : Nat) (g : PBuf → PBuf) : State :=
  (s.bufsOf c 1).foldl (fun (t : State) b => t.setPbuf b (g (t.pbuf b))) s

/-- The clock's first frame: number FNUM + 1 (R265, R271). -/
def State.firstFrame (s : State) (c : Nat) : State :=
  let f := (s.fnum c + 1) % 2 ^ 32
  (((s.put (F.vatFnumFnum c) f).put (F.vatFclkRun c) 1).setFclk c (fun k => { k with startNb := 0, at_ := some s.sys.qt })).mapBufs c
    (fun x => x.play f)

/-- FRAME_CLOCK_START (R265, R171). -/
def State.fclkStart (s : State) (c : Nat) : State :=
  let used := match domOf (s.get (F.vatFclkDom c)) with
    | some d => s.inUse d
    | none => false
  if s.flag (F.vatFclkEn c) && !s.flag (F.vatFclkRun c) && s.atFence c && s.atCommon && used &&
      decide ((s.fclk c).startNb ≤ s.tickNo) then s.firstFrame c
  else s

/-- FRAME_FENCE: the frame in progress ends and the next begins, or a clock that is to stop stops (R265, R268, R270). -/
def State.frameFence (s : State) (c : Nat) : State :=
  if s.fenceDue c then
    let s1 := s.mapBufs c (fun x => x.played (s.fnum c))
    if !s.flag (F.vatFclkEn c) then
      ((s1.put (F.vatFclkRun c) 0).mapBufs c (fun x => { x with mode := 0, p := 0#32, last := 0#32 })).useSync
    else
      let f := (s.fnum c + 1) % 2 ^ 32
      ((s1.put (F.vatFnumFnum c) f).setFclk c (fun k => { k with at_ := some s.sys.qt })).mapBufs c (fun x => x.play f)
  else s

/-- The frame of this epoch that clock `c` ended last: of a stopped clock its last frame. -/
def State.ended (s : State) (c : Nat) : Nat := if s.flag (F.vatFclkRun c) then (s.fnum c + 2 ^ 32 - 1) % 2 ^ 32 else s.fnum c

/-- CAPTURE_WINDOW_OPEN: the window of the frame that has ended opens, also after the clock's last frame (R266). -/
def State.windowOpens (s : State) (c : Nat) : State :=
  if s.runs && decide (0 ≤ frameDiff (s.ended c) (s.fclk c).first) then s.setFclk c (fun k => { k with opened := some (s.ended c) })
  else s

/-- The playback halves of flow `f` for frame `n` that no release has made heard (R269). -/
def State.silencedOf (s : State) (c f n : Nat) : Nat :=
  ((s.bufsOf c 1).filter (fun b => s.get (F.vatBufCfgFlow b) == f &&
    !(if n % 2 = 0 then (s.pbuf b).rel0 else (s.pbuf b).rel1))).length

/-- Flow `f` has an item of clock `c` and frame `n` that has not completed (R269). -/
def State.overrun (s : State) (c f n : Nat) : Bool :=
  let mine := fun (it : Item) => it.flow == f && it.clk == c && it.frame == n
  s.vat.pend.any mine || s.vat.run.any (fun p => mine p.2)

/-- FENCE_CUTOFF: the cutoff, 1,024 ENG_CLK cycles before the fence that ends the frame in progress, falls in the running tick
of the clock's domain (R269). -/
def State.fenceCutoff (s : State) (c : Nat) : State :=
  let n := (s.fnum c + 2 ^ 32 - 1) % 2 ^ 32
  let due := match domOf (s.get (F.vatFclkDom c)) with
    | some d => (s.dtick d + (1024 + s.cD d - 1) / s.cD d) % s.frameLen c == 0
    | none => false
  if s.runs && s.flag (F.vatFclkRun c) && due && (s.fclk c).cut != some n then
    let s1 := s.setFclk c (fun k => { k with cut := some n })
    (List.range 63).foldl (fun (t : State) i =>
      let f := i + 1
      if s.overrun c f n then
        let a := if f < 32 then R.vatOvrLo else R.vatOvrHi
        ((t.wr a (t.rd a ||| (1#32 <<< (f % 32)))).bump (F.vatOvrCntCount f) (s.silencedOf c f n)).fire 5
      else t) s1
  else s

/-- The address of word `j` of the half of frame `f` of buffer `b` on clock `c` (R266). -/
def State.bufWord (s : State) (c b f j : Nat) : Nat :=
  s.get (F.vatBufAddrAddr b) + 4 * s.frameLen c * (f % 2) + 4 * j

/-- The sample in position `j` that a playback buffer delivers (R270). -/
def PBuf.sample (x : PBuf) (j : Nat) (v : Word) : Word :=
  match x.mode with
  | 1 => v
  | 2 => if j < 32 then wrap32 (rnd (x.p.toInt * (31 - j : Nat)) 5) else 0#32
  | 3 => if j < 32 then wrap32 (rnd (v.toInt * (j + 1 : Nat)) 5) else v
  | _ => 0#32

/-- Endpoint `id` is a buffer in playback mode on a running frame clock (R266). -/
def State.bufPlays (s : State) (id : Nat) : Bool :=
  let b := id - 0x520
  s.get (F.vatBufCfgMode b) == 1 && s.flowRuns (s.get (F.vatBufCfgFlow b))

/-- Buffers that play no longer deliver 0 (R266). -/
def State.bufsQuiet (s : State) : State :=
  { s with rt := { s.rt with inj := s.rt.inj.filter (fun p => !(decide (0x520 ≤ p.1) && decide (p.1 < 0x5A0)) || s.bufPlays p.1) } }

/-- The playback buffers of domain `d` deliver their samples of the tick that has ended (R266, R270). -/
def State.playTick (s : State) (d : RDom) : State :=
  (List.range 8).foldl (fun (t : State) c =>
    if t.flag (F.vatFclkRun c) && domOf (t.get (F.vatFclkDom c)) == some d then
      let j := (t.dtick d + 2 ^ 48 - 1) % 2 ^ 48 % t.frameLen c
      (t.bufsOf c 1).foldl (fun (u : State) b =>
        let x := u.pbuf b
        let r := if x.mode == 1 || x.mode == 3 then u.fbRead (u.bufWord c b (u.fnum c) j) else (0#32, u)
        let y := x.sample j r.1
        (r.2.setPbuf b { x with last := y }).inject (0x520 + b) y) t
    else t) s.bufsQuiet

/-- The capture buffers of domain `d` take the samples of their sinks (R266). -/
def State.captureTick (s : State) (d : RDom) : State :=
  (List.range 8).foldl (fun (t : State) c =>
    if t.flag (F.vatFclkRun c) && domOf (t.get (F.vatFclkDom c)) == some d then
      let j := (t.dtick d + 2 ^ 48 - 1) % 2 ^ 48 % t.frameLen c
      (t.bufsOf c 2).foldl (fun (u : State) b =>
        u.fbWrite (u.bufWord c b (u.fnum c) j) (spGet (fun _ => 0#32) u.rt.sinks (0x520 + b))) t
    else t) s

/-- The Vat at a drain: every frame in progress ends, the next number is the first of the new epoch, and buffers deliver 0
(R271). -/
def State.vatDrain (s : State) : State :=
  (List.range 8).foldl (fun (t : State) c =>
    t.setFclk c (fun _ => ⟨0, (t.fnum c + 1) % 2 ^ 32, none, none, none⟩)) (s.setVat (fun v => { v with buf := [] }))

/-- The frame clocks at the first tick of an epoch: running ones go on with the next number, those that were to stop are
stopped, pending ones start (R265, R271). -/
def State.vatEpoch (s : State) : State :=
  (List.range 8).foldl (fun (t : State) c =>
    if t.flag (F.vatFclkEn c) then t.firstFrame c else t.put (F.vatFclkRun c) 0) s

/-! ## Meanings -/

def execVatDispatch (c : Fin 16) (s : State) : Out := .next (s.dispatch c)
def execAffinityWaitExpiry (id : Nat) (s : State) : Out := .next (s.affExpire id)
def execVatSubmit (m : Master) (w7 : Word) (s : State) : Out := .next (s.ok.vatStage m 7 w7)
def execCompletionRecordRead (m : Master) (h : Fin 4) (s : State) : Out := .next (s.cplPop m h)
def execPartitionConfig (m : Master) (p : Fin 4) (v : Word) (s : State) : Out :=
  .next (s.guard (host0Boot m) (fun t => t.partWrite p v))
def execFrameClockEnable (m : Master) (c : Fin 8) (v : Word) (s : State) : Out :=
  .next (s.guard (host0Boot m) (fun t => t.fclkWrite c v))
def execFrameClockStart (c : Fin 8) (s : State) : Out := .next (s.fclkStart c)
def execFrameFence (c : Fin 8) (s : State) : Out := .next (s.frameFence c)
def execCaptureWindowOpen (c : Fin 8) (s : State) : Out := .next (s.windowOpens c)
def execFenceCutoff (c : Fin 8) (s : State) : Out := .next (s.fenceCutoff c).settle

end Sys2Proof.Machine
end

