-- ==== Sys2Proof/Machine/IgIsa.lean ====
section
/-! DEFINITION. The Indigo bundle: its fields, which bundles are illegal, the compute operations, the address generators and
the memory operations (R215 to R225, R237, R238). -/

namespace Sys2Proof.Machine

/-- Bits [lo+n-1:lo] of C, the compute field of a bundle (R215). -/
def cF (x : DWord) (lo n : Nat) : Nat := fieldOf x.toNat (40 + lo) n
/-- OP. -/
def cOp (x : DWord) : Nat := cF x 18 6
/-- D, A, B, X, Y and ACC fields (Table 08-2). -/
def opD (x : DWord) : Nat := cF x 13 5
def opA (x : DWord) : Nat := cF x 8 5
def opB (x : DWord) : Nat := cF x 3 5
def cX (x : DWord) : Nat := cF x 10 5
def cY (x : DWord) : Nat := cF x 5 5
def cAcc (x : DWord) : Nat := cF x 15 3
def cImm8 (x : DWord) : Nat := cF x 0 8
/-- A long form: bits [39:0] are its operand (R215). -/
def isLong (x : DWord) : Bool := decide (0x30 ≤ cOp x)
/-- Bits of a long form's operand. -/
def lF (x : DWord) (lo n : Nat) : Nat := fieldOf x.toNat lo n
/-- Memory operation A or B (false, true). -/
def memOp (x : DWord) (b : Bool) : Nat := if isLong x then 0 else if b then fieldOf x.toNat 0 20 else fieldOf x.toNat 20 20
/-- MOP of a memory operation (Table 08-4). -/
def mMop (m : Nat) : Nat := fieldOf m 18 2
def mPair (m : Nat) : Bool := m.testBit 17
def mAg (m : Nat) : Nat := fieldOf m 14 3
def mPm (m : Nat) : Bool := m.testBit 13
def mReg (m : Nat) : Nat := fieldOf m 8 5

/-- BR, CALL, RET, RTE, REP or DONE (R216). -/
def isControl (op : Nat) : Bool := decide (0x31 ≤ op) && decide (op ≤ 0x36)

/-- The fields of a memory operation are legal (Table 08-4, R216). -/
def memLegal (m : Nat) : Bool :=
  match mMop m with
  | 0 => m == 0
  | 3 => !mPair m && fieldOf m 11 2 == 0 && fieldOf m 0 8 == 0
  | _ => (!mPair m || mReg m % 2 == 0) && fieldOf m 0 8 == 0

/-- The fields of the compute operation are legal (Tables 08-2, 08-3, 08-5, R216). -/
def compLegal (x : DWord) : Bool :=
  let op := cOp x
  let even := fun (n : Nat) => n % 2 == 0
  let mOk := cF x 0 4 == 0
  if op == 0x00 then cF x 0 18 == 0
  else if op == 0x01 || op == 0x05 then mOk
  else if op == 0x02 || op == 0x04 then mOk && even (cX x) && even (cY x)
  else if op == 0x03 then mOk && even (cX x) && even (cY x) && even (cAcc x)
  else if op == 0x06 then opD x == 0 && cF x 0 10 == 0
  else if op == 0x07 || op == 0x08 then cF x 0 9 == 0
  else if 0x10 ≤ op ∧ op ≤ 0x18 then cF x 0 3 == 0
  else if op == 0x19 || op == 0x1F then cF x 0 8 == 0
  else if op == 0x1A then opD x == 0 && cF x 0 3 == 0
  else if op == 0x1B then true
  else if 0x1C ≤ op ∧ op ≤ 0x1E then decide (cImm8 x ≤ 31)
  else if op == 0x20 then decide (cF x 12 3 ≤ 4) && cF x 0 7 == 0
  else if op == 0x21 then cF x 12 3 == 0 && cF x 0 7 == 0
  else if op == 0x22 then opD x == 0 && decide (cImm8 x ≤ 4)
  else if op == 0x23 then opA x == 0 && decide (cImm8 x ≤ 5)
  else if op == 0x30 then cF x 0 13 == 0 && lF x 32 8 == 0
  else if op == 0x31 then decide (cF x 14 4 ≤ 6) && cF x 0 14 == 0 && lF x 24 16 == 0
  else if op == 0x32 then cF x 0 18 == 0 && lF x 24 16 == 0
  else if op == 0x35 then
    cF x 0 12 == 0 && lF x 12 12 == 0 && (if cF x 17 1 == 1 then lF x 24 16 == 0 else cF x 12 5 == 0)
  else if op == 0x37 then cF x 0 8 == 0 && lF x 0 40 == 0
  else if op == 0x38 then opD x == 0 && cF x 0 3 == 0 && lF x 0 40 == 0
  else if op == 0x3A then opD x == 0 && cF x 0 8 == 0 && lF x 0 40 == 0
  else if op == 0x33 || op == 0x34 || op == 0x36 || op == 0x39 || op == 0x3B then cF x 0 18 == 0 && lF x 0 40 == 0
  else false

/-- LEN of a REP (Table 08-3). -/
def repLen (x : DWord) : Nat := lF x 0 12 + 1

/-- Where the core stands makes the bundle illegal: a control operation in a delay slot or in the last two bundles of a
body, a fourth level, a body past its container's end (R216, R228 to R230). -/
def placeLegal (k : Core) (x : DWord) : Bool :=
  !isControl (cOp x) ||
  (k.dly == 0 && !k.rep.any (fun l => k.pc == l.last || k.pc + 8 == l.last) &&
    (cOp x != 0x35 || (decide (k.rep.length < 3) && k.rep.all (fun l => decide (k.pc + 8 * repLen x ≤ l.last)))))

/-- The bundle is legal for a core that is about to issue it (R216). -/
def bundleLegal (k : Core) (x : DWord) : Bool :=
  compLegal x && memLegal (memOp x false) && memLegal (memOp x true) && placeLegal k x

/-! ## Arithmetic (R217 to R220) -/

/-- W register `i`. -/
def Core.r (k : Core) (i : Nat) : Word := ng k.w i 0#32
/-- Accumulator `i`. -/
def Core.a (k : Core) (i : Nat) : BitVec 72 := ng k.acc i 0#72

/-- The shift t of a move (R218). -/
def Core.shift (k : Core) : Int :=
  let t := sx 5 (fieldOf k.scale.toNat 0 5) + (if k.scale.getLsbD 31 then k.exp else 0)
  max (-16) (min 15 t)

/-- A full accumulator moved (R218). -/
def Core.move (k : Core) (acc : BitVec 72) : Word × Bool := sat32 (rnd acc.toInt (31 - k.shift).toNat)

/-- Lane H or L of an accumulator (Table 08-1). -/
def laneH (a : BitVec 72) : Int := sx 36 (a.toNat / 2 ^ 36)
def laneL (a : BitVec 72) : Int := sx 36 a.toNat

/-- Two lanes as one accumulator. -/
def lanes (h l : Int) : BitVec 72 := BitVec.ofNat 72 (tc 36 h * 2 ^ 36 + tc 36 l)

/-- A packed move (R220). -/
def Core.movePk (k : Core) (a : BitVec 72) : Word × Bool :=
  let sh := (15 - k.shift).toNat
  let h := satTo 16 (rnd (laneH a) sh)
  let l := satTo 16 (rnd (laneL a) sh)
  (BitVec.ofNat 32 (tc 16 h.1 * 2 ^ 16 + tc 16 l.1), h.2 || l.2)

/-- The halves of a word as Q1.15 values (R220). -/
def hiHalf (w : Word) : Int := sx 16 (w.toNat / 2 ^ 16)
def loHalf (w : Word) : Int := sx 16 w.toNat

/-- NSB (Table 08-3). -/
def nsbFrom (w : Word) : Nat → Nat
  | 0 => 0
  | i + 1 => if w.getLsbD i == w.getLsbD 31 then nsbFrom w i + 1 else 0
def nsb (w : Word) : Nat := nsbFrom w 31

/-- The branch conditions (R215). -/
def Core.cond (k : Core) (c : Nat) : Bool :=
  match c with
  | 0 => true
  | 1 => k.z
  | 2 => !k.z
  | 3 => k.n
  | 4 => !k.n
  | 5 => k.c
  | _ => !k.c

/-- What a compute operation of format R gives (Table 08-3). -/
def aluR (op : Nat) (x y : Word) : Word :=
  match op with
  | 0x10 => x + y
  | 0x11 => x - y
  | 0x12 => (sat32 (x.toInt + y.toInt)).1
  | 0x13 => (sat32 (x.toInt - y.toInt)).1
  | 0x14 => x &&& y
  | 0x15 => x ||| y
  | 0x16 => x ^^^ y
  | 0x17 => if x.toInt ≤ y.toInt then x else y
  | _ => if y.toInt ≤ x.toInt then x else y

/-- A MAC family operation on the accumulators, and whether one saturated (R217, R220). -/
def Core.macs (k : Core) (x : DWord) : Vector (BitVec 72) 8 × Bool :=
  let sg : Int := if cF x 4 1 == 1 then -1 else 1
  let rx := cX x
  let ry := cY x
  let p := (k.r rx).toInt * (k.r ry).toInt
  let q := (k.r (rx + 1)).toInt * (k.r (ry + 1)).toInt
  let i := cAcc x
  let put := fun (v : Vector (BitVec 72) 8) (j : Nat) (y : Int) =>
    let z := satTo 72 y
    (ns v j (BitVec.ofInt 72 z.1), z.2)
  match cOp x with
  | 1 => put k.acc i ((k.a i).toInt + sg * p)
  | 2 => put k.acc i ((k.a i).toInt + sg * (p + q))
  | 3 =>
    let a := put k.acc i ((k.a i).toInt + sg * p)
    let b := put a.1 (i + 1) ((k.a (i + 1)).toInt + sg * q)
    (b.1, a.2 || b.2)
  | 4 =>
    let ph := hiHalf (k.r rx) * hiHalf (k.r ry) + hiHalf (k.r (rx + 1)) * hiHalf (k.r (ry + 1))
    let pl := loHalf (k.r rx) * loHalf (k.r ry) + loHalf (k.r (rx + 1)) * loHalf (k.r (ry + 1))
    let h := satTo 36 (laneH (k.a i) + sg * ph)
    let l := satTo 36 (laneL (k.a i) + sg * pl)
    (ns k.acc i (lanes h.1 l.1), h.2 || l.2)
  | 5 => put k.acc i (sg * p)
  | _ => (k.acc, false)

/-! ## Address generators (R221, R222) -/

/-- LEN, with 0 acting as 262,144. -/
def AddrGen.len' (g : AddrGen) : Nat := if g.len = 0 then 262144 else g.len

/-- B of the bit-reversed mode: 2^B is the largest power of two not above LEN. -/
def AddrGen.bits (g : AddrGen) : Nat := Nat.log2 g.len'

/-- IDX advanced by `step` as a post-modify; IDX has 18 bits (Table 08-1). -/
def AddrGen.post (g : AddrGen) (step : Int) : Nat :=
  let i : Int := (g.idx : Int) + step
  match g.mode with
  | 1 => (i % (g.len' : Nat)).toNat % 2 ^ 18
  | 2 => (i % (2 ^ g.bits : Nat)).toNat
  | _ => (i % (2 ^ 18 : Nat)).toNat

/-- Bits [b-1:s] of `x` reversed. -/
def revBits (x s b : Nat) : Nat :=
  (List.range (b - s)).foldl (fun (y : Nat) i => putField y (b - 1 - i) 1 (fieldOf x (s + i) 1)) x

/-- I of an access of `2^s` bytes. -/
def AddrGen.index (g : AddrGen) (s : Nat) : Nat := if g.mode == 2 then revBits g.idx s g.bits else g.idx

/-- The effective address before its low bits are forced to 0. -/
def AddrGen.ea (g : AddrGen) (s : Nat) : Nat := (g.base + g.index s) % 2 ^ 18

/-- A field of a generator written by AGSET (R221). -/
def AddrGen.set (g : AddrGen) (fld : Nat) (v : Word) : AddrGen :=
  match fld with
  | 0 => { g with base := fieldOf v.toNat 0 18 }
  | 1 => { g with idx := fieldOf v.toNat 0 18 }
  | 2 => { g with step := fieldOf v.toNat 0 18 }
  | 3 => { g with len := fieldOf v.toNat 0 19 }
  | _ => { g with mode := fieldOf v.toNat 0 2 }

/-- Generator `i` of a core. -/
def Core.gen (k : Core) (i : Nat) : AddrGen := ng k.ag i ⟨0, 0, 0, 0, 0⟩

/-! ## Special registers (Table 08-5) -/

/-- A special register read by MFS; `db` holds the doorbell bits. -/
def Core.special (k : Core) (db i : Nat) : Word :=
  match i with
  | 0 => k.scale
  | 1 => wrap32 k.exp
  | 2 => wrap32 k.bexp
  | 3 => BitVec.ofNat 32 (4 * b2n k.c + 2 * b2n k.n + b2n k.z)
  | 4 => BitVec.ofNat 32 db
  | _ => BitVec.ofNat 32 k.cyc

/-- A special register written by MTS; DBELL is the register's own. -/
def Core.mts (k : Core) (i : Nat) (v : Word) : Core :=
  match i with
  | 0 => { k with scale := v &&& 0xB300001F#32 }
  | 1 => { k with exp := sx 4 v.toNat, mtsExp := true }
  | 2 => { k with bexp := sx 16 v.toNat, mtsBexp := true }
  | 3 => { k with z := v.getLsbD 0, n := v.getLsbD 1, c := v.getLsbD 2 }
  | _ => k

/-- What a compute operation does, from the core as the bundle finds it: the core with accumulators, flags and special
registers after it, the W registers it writes, whether an accumulator saturated, whether a move clipped. Far accesses,
SUBMIT and control flow act elsewhere. -/
def Core.compute (k : Core) (x : DWord) (db : Nat) : Core × List (Nat × Word) × Bool × Bool :=
  let op := cOp x
  let va := k.r (opA x)
  if 1 ≤ op ∧ op ≤ 5 then
    let m := k.macs x
    ({ k with acc := m.1 }, [], m.2, false)
  else if op == 0x06 then ({ k with acc := ns k.acc (cF x 10 3) 0#72 }, [], false, false)
  else if op == 0x07 || op == 0x08 then
    let i := cF x 10 3
    let m := if cF x 9 1 == 1 then k.movePk (k.a i) else k.move (k.a i)
    (if op == 0x08 then { k with acc := ns k.acc i 0#72 } else k, [(opD x, m.1)], false, m.2)
  else if 0x10 ≤ op ∧ op ≤ 0x18 then (k, [(opD x, aluR op va (k.r (opB x)))], false, false)
  else if op == 0x19 then (k, [(opD x, va)], false, false)
  else if op == 0x1A then
    let vb := k.r (opB x)
    ({ k with z := va == vb, n := decide (va.toInt < vb.toInt), c := decide (va.toNat < vb.toNat) }, [], false, false)
  else if op == 0x1B then (k, [(opD x, va + wrap32 (sx 8 (cImm8 x)))], false, false)
  else if op == 0x1C then (k, [(opD x, va.sshiftRight (cImm8 x))], false, false)
  else if op == 0x1D then (k, [(opD x, va >>> cImm8 x)], false, false)
  else if op == 0x1E then (k, [(opD x, va <<< cImm8 x)], false, false)
  else if op == 0x1F then (k, [(opD x, BitVec.ofNat 32 (nsb va))], false, false)
  else if op == 0x22 then (k.mts (cImm8 x) va, [], false, false)
  else if op == 0x23 then (k, [(opD x, k.special db (cImm8 x))], false, false)
  else if op == 0x30 then (k, [(opD x, BitVec.ofNat 32 (lF x 0 32))], false, false)
  else if op == 0x32 then (k, [(31, BitVec.ofNat 32 (k.pc + 24))], false, false)
  else if op == 0x3B then ({ k with pDbg := true }, [], false, false)
  else (k, [], false, false)

/-- The generators after AGSET or AGADD: the compute operation's result stands over a post-modify (R222). -/
def Core.agComp (k : Core) (x : DWord) (ag : Vector AddrGen 8) : Vector AddrGen 8 :=
  let i := cF x 15 3
  let v := k.r (cF x 7 5)
  let g := ng ag i ⟨0, 0, 0, 0, 0⟩
  if cOp x == 0x20 then ns ag i (g.set (cF x 12 3) v)
  else if cOp x == 0x21 then ns ag i { g with idx := (k.gen i).post (sx 18 v.toNat) }
  else ag

/-! ## Memory operations (R219, R221, R225, R238) -/

/-- One memory operation resolved: its kind (MOP), its address, whether low bits were forced, its W registers for a load,
its words for a store, and whether a move clipped. -/
structure MemAct where
  mop : Nat
  ea : Nat
  forced : Bool
  regs : List Nat
  words : List Word
  clip : Bool
  deriving DecidableEq, Repr

/-- A memory operation resolved against a generator (R221); registers and accumulators are those at the bundle's start. -/
def Core.resolve (k : Core) (g : AddrGen) (m : Nat) : MemAct :=
  let s := if mPair m then 3 else 2
  let e := g.ea s
  let r := mReg m
  let mv := k.move (k.a (r % 8))
  { mop := mMop m
    ea := e / 2 ^ s * 2 ^ s
    forced := e % 2 ^ s != 0
    regs := if mPair m then [r, r + 1] else [r]
    words := if mMop m == 3 then [mv.1] else if mPair m then [k.r r, k.r (r + 1)] else [k.r r]
    clip := mMop m == 3 && mv.2 }

/-- The generators after a memory operation's post-modify. -/
def agPost (ag : Vector AddrGen 8) (m : Nat) : Vector AddrGen 8 :=
  let g := ng ag (mAg m) ⟨0, 0, 0, 0, 0⟩
  if mMop m != 0 && mPm m then ns ag (mAg m) { g with idx := g.post (sx 18 g.step) } else ag

/-- The words that a memory operation loads. -/
def State.igLoads (s : State) (c : Nat) (a : MemAct) : List (Nat × Word) :=
  if a.mop == 1 then a.regs.zipIdx.map (fun p => (p.1, s.rw (lmBase c + a.ea + 4 * p.2))) else []

/-- A word of local memory that a bundle stored joins the record of its stores: the word before the bundle, the word after. -/
def stNote (l : List (Nat × Word × Word)) (a : Nat) (old new : Word) : List (Nat × Word × Word) :=
  match l.find? (fun p => p.1 == a) with
  | some p => (a, p.2.1, new) :: l.filter (fun q => q.1 != a)
  | none => (a, old, new) :: l

/-- A word stored by core `c` at local address `o`. -/
def State.igPut (s : State) (c o : Nat) (v : Word) : State :=
  (s.ww (lmBase c + o) v).setCore c (fun k => { k with st := stNote k.st o (s.rw (lmBase c + o)) v })

/-- A memory operation's store. -/
def State.igStores (s : State) (c : Nat) (a : MemAct) : State :=
  if a.mop == 2 || a.mop == 3 then a.words.zipIdx.foldl (fun (t : State) p => t.igPut c (a.ea + 4 * p.2) p.1) s
  else s

/-- MA and MB stall on a bank: both access, in one bank, at different 64-bit positions (R225). -/
def bankStall (a b : MemAct) : Bool :=
  a.mop != 0 && b.mop != 0 && a.ea / 8 % 8 == b.ea / 8 % 8 && a.ea / 8 != b.ea / 8

/-- LVL, with 0 acting as 1 (IGn_SCALE). -/
def Core.lvl (k : Core) : Nat := max 1 (fieldOf k.scale.toNat 28 2)

/-- The detector after the stores of a bundle (R238). -/
def Core.detect (k : Core) (l : List MemAct) : Nat :=
  if k.scale.getLsbD 31 && !k.inH && decide (k.lvl ≤ k.rep.length) then
    l.foldl (fun (n : Nat) a => if a.mop == 2 || a.mop == 3 then a.words.foldl (fun (m : Nat) w => min m (nsb w)) n else n) k.det
  else k.det

end Sys2Proof.Machine
end

