-- ==== Sys2Proof/Machine/Indigo.lean ====
section
/-! DEFINITION. The Indigo cores as machines: fetch and cache, issue of a bundle, delay slots and repeat blocks, exceptions,
the watchdog, debug, completion (R213, R214, R223 to R236, R239, R244 to R246). Far accesses complete in Far.lean. -/

namespace Sys2Proof.Machine

/-! ## Fetch (R245) -/

/-- A hit makes the line its set's most recently used. -/
def Core.touch (k : Core) : Core :=
  match k.ic.find? (fun l => l.line == k.pc / 64) with
  | some l => { k with ic := l :: k.ic.filter (fun x => x.line != l.line) }
  | none => k

/-- The way that a fill of set `set` takes: way 1 while way 0 is locked, else an empty way, else the least recently used. -/
def Core.wayFor (k : Core) (lock : Bool) (set : Nat) : Nat :=
  let l := k.ic.filter (fun x => x.line % 256 == set)
  if lock then 1
  else if !l.any (fun x => x.way == 0) then 0
  else if !l.any (fun x => x.way == 1) then 1
  else (l.getLast?.map (fun x => x.way)).getD 0

/-- A line filled. -/
def Core.fill (k : Core) (lock : Bool) (line : Nat) (data : List DWord) : Core :=
  let w := k.wayFor lock (line % 256)
  { k with ic := ⟨line, w, data⟩ :: k.ic.filter (fun x => !(x.line % 256 == line % 256 && x.way == w)) }

/-- The 8 bundles of a line of shared memory. -/
def State.lineData (s : State) (line : Nat) : List DWord := (List.range 8).map (fun i => s.rw64 (64 * line + 8 * i))

/-- A line can be fetched without a wait or a refusal; `old`: its fetch was issued before the group refused accesses. -/
def State.lineOpen (s : State) (line : Nat) (old : Bool) : Bool :=
  isShared (64 * line) && (s.grpState (64 * line) == 0 || (old && s.refuses (64 * line)))

/-- No word of the line has a two-bit error. -/
def State.lineClean (s : State) (line : Nat) : Bool := (s.ueIn (64 * line) 64 4).isNone

/-- A fetch reads a line of shared memory and fills it; a two-bit error shows as on any read (R245, R337). -/
def State.lineFetch (s : State) (c line : Nat) (lock old : Bool) : State :=
  let s1 := s.waitedFree (some (8 + c)) (64 * line)
  if s1.lineClean line then s1.setCore c (fun j => j.fill lock line (s1.lineData line)) else (s1.sharedRead (64 * line) 64 0 old).2

/-- A posted far write of the core goes to a line: the fetch of the line comes after it (R333). -/
def Core.posted (k : Core) (line : Nat) : Bool := k.fst_.any (fun p => plainAddr p.addr / 64 == line)

/-! ## When a core issues (R226, R232, R235) -/

/-- The core stands where it takes an exception: in HANDLER only DBG (R232). -/
def Core.takeNow (k : Core) : Bool := k.take && k.anyPend && (!k.inH || k.pDbg)

/-- The watchdog count has reached its limit and that event has not been dealt with (R235). -/
def Core.wdtDue (k : Core) : Bool := k.limit != 0 && decide (k.limit ≤ k.wdt) && (k.inH || !k.pWdt)

/-- The core is powered and in RUN or HANDLER, and its clock runs: CORE_CLK stops while the SPLL is not locked (R316). -/
def State.igRuns (s : State) (c : Nat) : Bool :=
  s.igPowered c && s.flag (F.pllStatusLocked 0) && (s.igState c == 2 || s.igState c == 3)

/-- The core would issue its next bundle, were it at hand. -/
def State.igReady (s : State) (c : Nat) : Bool :=
  let k := s.core c
  s.igRuns c && k.fin == 0 && k.stall == 0 && !k.iterEnd && !k.takeNow && !k.wdtDue

/-! ## The end of a bundle (R224, R227, R228, R230, R234) -/

/-- Levels whose body holds `t` go on; the others end (R228). -/
def Core.closeLevels (k : Core) (t : Nat) : Core :=
  { k with rep := k.rep.filter (fun l => decide (l.first ≤ t) && decide (t ≤ l.last)) }

/-- W registers written in order. -/
def Core.writes (k : Core) (l : List (Nat × Word)) : Core :=
  { k with w := l.foldl (fun (v : Vector Word 32) p => ns v p.1 p.2) k.w }

/-- Registers at the end of a bundle: its own results, then the loads of the bundle before, but for those its results name;
its own loads wait (R224). -/
def Core.land (k : Core) (w ld : List (Nat × Word)) : Core :=
  { (k.writes w).writes (k.ld.filter (fun p => !w.any (fun q => q.1 == p.1))) with ld := ld }

/-- The core after a bundle, with its next address; `slot`: it was a delay slot; `jump`: the address is a branch's. -/
def Core.next (k : Core) (pc : Nat) (slot jump : Bool) : Core :=
  let it := !jump && k.dly == 0 && (match k.rep with
    | [] => false
    | l :: _ => pc == l.last + 8)
  { k with pc := pc, iterEnd := it, slotEnd := slot, ferr := false, fillOld := false,
           take := !slot && k.dly == 0 && k.rep.isEmpty && !it }

/-- A branch lands on `t`. -/
def Core.jump (k : Core) (t : Nat) : Core := (k.closeLevels t).next t true true

/-- The target of a branch or call; a return's is W31 with bits [2:0] ignored (Table 08-3). -/
def Core.target (k : Core) (x : DWord) : Nat :=
  if cOp x == 0x33 then (k.r 31).toNat / 8 * 8
  else (((k.pc : Nat) + 8 * sx 24 (lF x 0 24)) % (2 ^ 32 : Nat)).toNat

/-- The count of a REP (R227). -/
def Core.repCount (k : Core) (x : DWord) : Nat :=
  if cF x 17 1 == 1 then (k.r (cF x 12 5)).toNat % 2 ^ 16 else lF x 24 16

/-- What a branch, call, return, RTE or DONE does after its delay slots: 0 goes on in sequence, 1 branches, 2 ends the item,
3 returns from the handler. -/
def Core.afterOf (k : Core) (x : DWord) : Nat :=
  match cOp x with
  | 0x31 => if k.cond (cF x 14 4) then 1 else 0
  | 0x34 => 3
  | 0x36 => 2
  | _ => 1

/-- Flags of ESTAT put back (R234). -/
def Core.flagsOf (k : Core) (f : Nat) : Core := { k with z := f.testBit 0, n := f.testBit 1, c := f.testBit 2 }

/-- The item is aborted without regard to hold-off (R235). -/
def State.igAbort (s : State) (c : Nat) : State := s.setCore c (fun k => { k with fin := 2, stall := 0 })

/-- RTE after its slots: back to EPC in RUN (R234), unless the watchdog count reached its limit in the last of them (R235). -/
def State.igRte (s : State) (c : Nat) : State :=
  let epc := s.get (F.igEpcPc c)
  let f := s.get (F.igEstatFlags c)
  if (s.core c).wdtDue then s.igAbort c
  else (s.put (F.igStatusState c) 2).setCore c (fun k => { (k.flagsOf f).jump epc with inH := false })

/-- A bundle that is no control operation, or a delay slot, ends: the address moves on (R227, R230). -/
def State.igStep (s : State) (c : Nat) : State :=
  let k := s.core c
  if k.dly == 0 then s.setCore c (fun k => k.next (k.pc + 8) false false)
  else if k.dly == 1 then
    match k.after_ with
    | 1 => s.setCore c (fun k => { k with dly := 0 }.jump k.tgt)
    | 2 => s.setCore c (fun k => { { k with dly := 0 }.next (k.pc + 8) true true with fin := 1 })
    | 3 => (s.setCore c (fun k => { k with dly := 0 })).igRte c
    | _ => s.setCore c (fun k => { k with dly := 0 }.next (k.pc + 8) true false)
  else s.setCore c (fun k => { k with dly := k.dly - 1 }.next (k.pc + 8) true false)

/-- Cycles pass on the core: the item count and the watchdog's (R235). -/
def State.igCycles (s : State) (c n : Nat) : State := s.setCore c (fun k => { k with cyc := k.cyc + n, wdt := k.wdt + n })

/-- A REP bundle ends (R227). -/
def State.igRep (s : State) (c : Nat) (x : DWord) (n : Nat) : State :=
  let len := repLen x
  if n == 0 then (s.igCycles c 2).setCore c (fun k => k.next (k.pc + 8 + 8 * len) false false)
  else s.setCore c (fun k => { k with rep := ⟨k.pc + 8, k.pc + 8 * len, n⟩ :: k.rep }.next (k.pc + 8) false false)

/-- A bundle ends with its register results and its loads; `k` is the core as the bundle found it. -/
def State.igEnd (s : State) (c : Nat) (k : Core) (x : DWord) (w ld : List (Nat × Word)) : State :=
  let s1 := s.setCore c (fun j => j.land w ld)
  if cOp x == 0x35 then s1.igRep c x (k.repCount x)
  else if isControl (cOp x) then
    s1.setCore c (fun j => { j with dly := 2, after_ := k.afterOf x, tgt := k.target x }.next (j.pc + 8) false false)
  else s1.igStep c

/-! ## Issue (R215 to R225, R238, R243, R244) -/

/-- What the moves and sums of a bundle report (R217, R218, R220, R221, R225). -/
def State.igReport (s : State) (c : Nat) (ovf : Bool) (clips : Nat) (forced stall : Bool) : State :=
  let s1 := (s.setIf ovf (F.igStatusAccOvf c)).setCore c (fun k =>
    { k with pOvf := k.pOvf || (ovf && s.flag (F.igCtrlOvfTrap c)) })
  let s2 := (s1.setIf (decide (0 < clips)) (F.igStatusSat c)).bump (F.igSatCntCount c) clips
  let s3 := s2.setIf forced (F.igStatusMisalign c)
  if stall then (s3.bump (F.igBankStallCount c) 1).igCycles c 1 else s3

/-- A legal bundle other than a far access, FENCE or SUBMIT: compute, memory operations, reports, end. -/
def State.igBundle (s : State) (c : Nat) (x : DWord) : State :=
  let k := s.core c
  let r := k.compute x (s.get (F.igDbellPend c))
  let ma := memOp x false
  let mb := memOp x true
  let a := k.resolve (k.gen (mAg ma)) ma
  let ag1 := agPost k.ag ma
  let b := k.resolve (ng ag1 (mAg mb) ⟨0, 0, 0, 0, 0⟩) mb
  let ag2 := k.agComp x (agPost ag1 mb)
  let lds := s.igLoads c a ++ s.igLoads c b
  let s1 := ((s.igStores c a).igStores c b).setCore c (fun j => { r.1 with ag := ag2, det := k.detect [a, b], st := j.st })
  let s2 := s1.igReport c r.2.2.1 (b2n r.2.2.2 + b2n a.clip + b2n b.clip)
    ((a.mop != 0 && a.forced) || (b.mop != 0 && b.forced)) (bankStall a b)
  let s3 := if cOp x == 0x22 && cImm8 x == 4 then
      s2.put (F.igDbellPend c) (s.get (F.igDbellPend c) &&& (2 ^ 16 - 1 - (k.r (opA x)).toNat % 2 ^ 16))
    else s2
  s3.igEnd c k x r.2.1 lds

/-- FLD stalls until its read completes; it issues once every earlier FST has completed (R243). -/
def State.igFld (s : State) (c : Nat) (x : DWord) : State :=
  s.setCore c (fun k =>
    let a := (k.r (opA x)).toNat
    { k with stall := 1, fldReg := opD x, fldAddr := a, fldOk := k.fst_.isEmpty && !s.refuses a })

/-- FST is posted; a fifth stalls until one completes (R243). -/
def State.igFst (s : State) (c : Nat) (x : DWord) : State :=
  let k := s.core c
  if 4 ≤ k.fst_.length then s.setCore c (fun j => { j with stall := 3 })
  else
    let a := (k.r (opA x)).toNat
    (s.setCore c (fun j => { j with stall := 0, fst_ := j.fst_ ++ [⟨a, k.r (opB x), !s.refuses a, false⟩] })).igEnd c k x [] []

/-- FENCE waits for posted far writes (R243). -/
def State.igFence (s : State) (c : Nat) (x : DWord) : State :=
  let k := s.core c
  if k.fst_.isEmpty then (s.setCore c (fun j => { j with stall := 0 })).igEnd c k x [] []
  else s.setCore c (fun j => { j with stall := 2 })

/-- What core `c` waits for has come, and the bundle that waited ends: a FENCE, or a fifth FST; an FLD issues (R243). -/
def State.igGoOn (s : State) (c : Nat) : State :=
  let k := s.core c
  match k.fetch with
  | some x =>
    if k.stall == 2 && k.fst_.isEmpty then s.igFence c x
    else if k.stall == 3 && decide (k.fst_.length < 4) then s.igFst c x
    else if k.stall == 1 && k.fst_.isEmpty then s.setCore c (fun j => { j with fldOk := !s.refuses k.fldAddr })
    else s
  | none => s

/-- SUBMIT offers the descriptor at a local address after `n` stall cycles, at most 16; C tells of a refusal (R244). -/
def State.igSubmit (s : State) (c n : Nat) (x : DWord) : State :=
  let k := s.core c
  let a := lmBase c + (k.r (opA x)).toNat % 0x40000 / 32 * 32
  let r := s.vatOffer ((List.range 8).map (fun i => s.rw (a + 4 * i))) .core none
  ((r.2.igCycles c (min n 16)).setCore c (fun j => { j with c := r.1 != 0 })).igEnd c k x [] []

/-- A core issues a legal bundle; `n`: the stall cycles of a SUBMIT. CYC counts the bundle's own cycle (DESIGN CHOICE, log 143). -/
def State.igExec (s : State) (c n : Nat) (x : DWord) : State :=
  let s1 := (s.setCore c (fun k => { k.touch with expIn := k.exp, mtsExp := false, mtsBexp := false, st := [], stAt := s.engCyc })).igCycles c 1
  if cOp x == 0x37 then s1.igFld c x
  else if cOp x == 0x38 then s1.igFst c x
  else if cOp x == 0x39 then s1.igFence c x
  else if cOp x == 0x3A then s1.igSubmit c n x
  else s1.igBundle c x

/-- A row of the bundle's operations: core `c` issues its next bundle when it is legal and holds that operation. -/
def State.igIssue (s : State) (c n : Nat) (p : DWord → Bool) : State :=
  let k := s.core c
  match k.fetch with
  | none => s
  | some x => if s.igReady c && !k.ferr && bundleLegal k x && p x then s.igExec c n x else s

/-- FENCE or FST: the bundle issues, or one that waited goes on when the core's clock is back (R243, R316). -/
def State.igWaiter (s : State) (c w : Nat) (p : DWord → Bool) : State :=
  if s.igRuns c && (s.core c).stall == w then s.igGoOn c else s.igIssue c 0 p

/-- The bundle's compute operation is `op`. -/
def hasOp (op : Nat) (x : DWord) : Bool := cOp x == op

/-- One of the bundle's memory operations has the MOP `m`. -/
def hasMop (m : Nat) (x : DWord) : Bool := mMop (memOp x false) == m || mMop (memOp x true) == m

/-! ## Abort, illegal bundles, fills (R216, R235, R245) -/

/-- An ILL event: pending, or in HANDLER an abort (R231, R235); `inH`: the core was in HANDLER in the bundle's cycle.
A fetch error sets FETCH whether or not ILL pends (DESIGN CHOICE, log 145). -/
def State.igIll (s : State) (c : Nat) (fetch inH : Bool) : State :=
  if inH then s.igAbort c
  else s.setCore c (fun k => { k with pIll := true, pFetch := k.pFetch || fetch })

/-- A bundle that executes as a NOP. -/
def State.igNop (s : State) (c : Nat) : State :=
  let s1 := (s.setCore c (fun k => { k with expIn := k.exp, mtsExp := false, mtsBexp := false, st := [] })).igCycles c 1
  s1.igEnd c (s1.core c) 0#64 [] []

/-- IG_ILLEGAL_BUNDLE: an illegal bundle, or one that could not be fetched, executes as a NOP (R216, R245). -/
def State.igIllegal (s : State) (c : Nat) : State :=
  let k := s.core c
  if !s.igReady c then s
  else if k.ferr then s.igNop c
  else match k.fetch with
    | none => s
    | some x =>
      if bundleLegal k x then s
      else (((s.setCore c Core.touch).igNop c).put (F.igStatusIll c) 1).igIll c false k.inH

/-- ICACHE_FILL_DONE: the miss at the core's pc ends after `cyc` stall cycles, with the line or with a fetch error (R245). The
following line is fetched too where nothing makes it wait or fail. -/
def State.igFill (s : State) (c cyc : Nat) : State :=
  let k := s.core c
  let line := k.pc / 64
  let lock := s.flag (F.igCtrlLock0 c)
  if !s.igReady c || k.ferr || k.fetch.isSome || k.posted line || k.posted (line + 1) then s
  else if s.mustWait (64 * line) then s
  else
    let s1 := ((s.bump (F.igIcmissCount c) 1).igCycles c cyc).setCore c (fun j => { j with st := [] })
    if s1.lineOpen line k.fillOld && s1.lineClean line then
      let s2 := s1.lineFetch c line lock k.fillOld
      let s3 := if s2.lineOpen (line + 1) k.fillOld && !k.ic.any (fun l => l.line == line + 1)
        then s2.lineFetch c (line + 1) lock k.fillOld else s2
      s3.setCore c (fun j => { j with fillOld := false })
    else
      let s2 := s1.waitedFree (some (8 + c)) (64 * line)
      let s3 := if isShared (64 * line) then (s2.sharedRead (64 * line) 64 0 k.fillOld).2
        else if isMemory (64 * line) || decide (0x08000000 ≤ 64 * line) then s2 else s2.fail errDecode
      ((s3.put (F.igStatusFetchErr c) 1).setCore c (fun j => { j.event with ferr := true, fillOld := false })).igIll c true k.inH

/-! ## Repeat blocks and automatic scaling (R227, R239) -/

/-- The update at the end of an iteration at depth LVL (R239). -/
def Core.autoScale (k : Core) : Core :=
  if k.scale.getLsbD 31 && !k.inH && k.rep.length == k.lvl then
    let grow : Int := (fieldOf k.scale.toNat 24 2 : Nat)
    { k with
      bexp := if k.mtsBexp then k.bexp else sx 16 (tc 16 (k.bexp - k.expIn))
      exp := if k.mtsExp then k.exp else max (-8) (min 7 ((k.det : Int) - grow))
      det := 31 }
  else k

/-- REPEAT_ITERATION_END (R227). -/
def Core.iterate (k : Core) : Core :=
  match k.rep with
  | [] => k
  | l :: rest =>
    let j := k.autoScale
    if 1 < l.left then { j with pc := l.first, rep := { l with left := l.left - 1 } :: rest, iterEnd := false, fillOld := false }
    else
      let it := match rest with
        | [] => false
        | m :: _ => k.pc == m.last + 8
      { j with rep := rest, iterEnd := it, take := rest.isEmpty && !k.slotEnd }

/-- The core ends an iteration of its innermost block. -/
def State.igIterate (s : State) (c : Nat) : State :=
  let k := s.core c
  if s.igRuns c && k.fin == 0 && k.stall == 0 && k.iterEnd then s.setCore c Core.iterate else s

/-! ## Exceptions (R231 to R236) -/

/-- A vectored exception is taken (R234). -/
def State.igVector (s : State) (c cause off : Nat) (fetch : Bool) : State :=
  let k := s.core c
  let f := 4 * b2n k.c + 2 * b2n k.n + b2n k.z
  let s1 := ((s.put (F.igEpcPc c) k.pc).put (F.igEstatCause c) cause).put (F.igEstatFlags c) f
  let s2 := (s1.put (F.igEstatFetch c) (b2n fetch)).put (F.igStatusState c) 3
  let vec := (s.get (F.igVecbaseBase c) * 2 ^ 8 + off) % 2 ^ 24
  (s2.setCore c (fun j => { j.next vec true true with inH := true, st := [] })).igCycles c 2

/-- EXCEPTION_TAKE: the highest-priority pending cause at a take point (Table 08-8). The watchdog count restarts when WDT is
taken, before the two redirect cycles (R233, R235). -/
def State.igTake (s : State) (c : Nat) : State :=
  let k := s.core c
  if !(s.igRuns c && k.fin == 0 && k.stall == 0 && k.takeNow) then s
  else if k.pDbg then
    (((s.put (F.igStatusState c) 4).put (F.igDbgHalted c) 1).put (F.igEstatCause c) 0).setCore c (fun j => { j with pDbg := false, st := [] })
  else if k.pWdt then (s.setCore c (fun j => { j with pWdt := false, wdt := 0 })).igVector c 1 0x40 false
  else if k.pIll then (s.setCore c (fun j => { j with pIll := false, pFetch := false })).igVector c 2 0x00 k.pFetch
  else if k.pOvf then (s.setCore c (fun j => { j with pOvf := false })).igVector c 3 0x80 false
  else (s.setCore c (fun j => { j with pDbell := false })).igVector c 4 0xC0 false

/-- The core stands in a stall of R226: its cycles count although no bundle issues. -/
def Core.stalled (k : Core) : Bool := k.stall != 0 || k.missing || (k.fin != 0 && !k.fst_.isEmpty)

/-- WATCHDOG_EXPIRY: the count reaches its limit, if need be within a stall. WDT pends, or in HANDLER the item is aborted
(R231, R235). -/
def State.igWatchdog (s : State) (c : Nat) : State :=
  let k := s.core c
  let t := if s.igRuns c && k.stalled && k.limit != 0 then s.igCycles c (k.limit - k.wdt) else s
  if s.igRuns c && k.fin != 2 && (t.core c).wdtDue then
    if k.inH then t.igAbort c else t.setCore c (fun j => { j.event with pWdt := true })
  else s

/-- ITEM_COMPLETION: the far writes are done and the Vat has room; the item completes and the core is idle (R214, R235,
R260). A core that the Vat holds stalls; `n`: its stall cycles that are not counted yet. -/
def State.igComplete (s : State) (c n : Nat) : State :=
  let k := s.core c
  match (s.vat.run.find? (fun p => p.1 == c)).map Prod.snd with
  | none => s
  | some it =>
    if s.igRuns c && k.fin != 0 && k.fst_.isEmpty then
      let t := if k.stall == 4 then s.igCycles c n else s
      if s.mustHold it then t.setCore c (fun j => { j with stall := 4 })
      else
        let st := if k.fin == 2 then 2 else if s.lateItem it then 1 else 0
        let s1 := t.setVat (fun v => { v with run := spDel c v.run, done := v.done ++ [(it, st)] })
        ((s1.setIf (k.fin == 2) (F.igStatusWdtAbort c)).put (F.igStatusState c) 1).setCore c
          (fun j => { j with fin := 0, stall := 0, inH := false, st := [] })
    else s

/-! ## Debug, doorbell, cache control (R236, R245, R246, Table 08-10) -/

/-- Who writes IGn registers: hosts and the boot sequencer; cores and DMA reach IGn_DBELL alone (R246). -/
def igWriter (m : Master) : Option Bool :=
  match m with
  | .host _ => some true
  | .boot => some true
  | _ => none

/-- A write to an IGn register, ignored while the cluster is unpowered (R242). -/
def State.igGuard (s : State) (m : Master) (c : Nat) (f : State → State) : State :=
  s.guard (igWriter m) (fun t => if t.igPowered c then f t else t)

/-- IGn_DBG.HALT. -/
def State.igHalt (s : State) (c : Nat) : State := s.setCore c (fun k => { k.event with pDbg := true })

/-- The core leaves HALT. -/
def State.igLeave (s : State) (c : Nat) : State :=
  (s.put (F.igStatusState c) (if (s.core c).inH then 3 else 2)).put (F.igDbgHalted c) 0

/-- A STEP (2) or RESUME (1) of a halted core: it leaves HALT, to run to the next take point and halt there, or to go on
(R236). -/
def State.igGo (s : State) (c r : Nat) : State :=
  let s1 := (s.igLeave c).setCore c (fun k => { k with dbgReq := 0 })
  if r == 2 then s1.setCore c (fun k => { k with pDbg := true, take := false }) else s1

/-- A STEP or RESUME is written: while CORE_CLK is gated the core holds its state, and the request waits (R236, R316). -/
def State.igDbgReq (s : State) (c r : Nat) : State :=
  if s.igState c == 4 then
    (if s.flag (F.pllStatusLocked 0) then s.igGo c r else s.setCore c (fun k => { k with dbgReq := r }))
  else s

/-- IGn_DBG.STEP and IGn_DBG.RESUME. -/
def State.igStepReq (s : State) (c : Nat) : State := s.igDbgReq c 2
def State.igResume (s : State) (c : Nat) : State := s.igDbgReq c 1

/-- CORE_CLK is back: the debug requests that waited for it act (R316). -/
def State.igClkBack (s : State) : State :=
  (List.range 16).foldl (fun (t : State) c =>
    if t.igState c == 4 && (t.core c).dbgReq != 0 then t.igGo c (t.core c).dbgReq else t) s

/-- A write of IGn_DBG: HALT first, then STEP, which goes before RESUME (DESIGN CHOICE, log 146). -/
def State.igDbgWrite (s : State) (c : Nat) (v : Word) : State :=
  let s1 := if v.getLsbD 0 then s.igHalt c else s
  if v.getLsbD 2 then s1.igStepReq c else if v.getLsbD 1 then s1.igResume c else s1

/-- ICINV: the cache is invalidated, if the core is IDLE (R245). -/
def State.igIcinv (s : State) (c : Nat) : State :=
  if s.igState c == 1 then s.setCore c (fun k => { k with ic := [] }) else s.put (F.igStatusCfgIgn c) 1

/-- A write of IGn_CTRL; enabling the doorbell with bits pending makes DBELL pending (Table 08-8). -/
def State.igCtrlWrite (s : State) (c : Nat) (v : Word) : State :=
  let s1 := s.wr (R.igCtrl c) (v &&& 0x70#32)
  let s2 := if v.getLsbD 4 && !s.flag (F.igCtrlDbellIe c) && s.get (F.igDbellPend c) != 0 then
      s1.setCore c (fun k => { k.event with pDbell := true })
    else s1
  if v.getLsbD 7 then s2.igIcinv c else s2

/-- What a read of an IGn register finds; all read 0 while the cluster is unpowered, but STATE reads CLEAR while it powers up
(R242). -/
def State.viewIg (s : State) (a : Nat) : Word :=
  let c := (a - 0x08060000) / 0x1000
  let o := a % 0x1000
  let k := s.core c
  let halted := s.igState c == 4
  if !s.igPowered c then (if o = 4 ∧ s.igState c = 5 then 5#32 else 0#32)
  else if o = 0x0C then BitVec.ofNat 32 (tc 16 k.bexp * 2 ^ 16 + tc 4 k.exp)
  else if o = 0x30 then BitVec.ofNat 32 (k.pc % 2 ^ 24)
  else if o = 0x40 then BitVec.ofNat 32 k.cyc
  else if o = 0x44 then BitVec.ofNat 32 (k.cyc / 2 ^ 32)
  else if 0x100 ≤ o ∧ o < 0x180 then (if halted then k.r ((o - 0x100) / 4) else 0#32)
  else if 0x180 ≤ o ∧ o < 0x200 then
    (if halted then BitVec.ofNat 32 ((k.a ((o - 0x180) / 16)).toNat / 2 ^ (32 * (o % 16 / 4))) else 0#32)
  else if 0x200 ≤ o ∧ o < 0x280 then
    let g := k.gen ((o - 0x200) / 16)
    if !halted then 0#32
    else match o % 16 / 4 with
      | 0 => BitVec.ofNat 32 g.base
      | 1 => BitVec.ofNat 32 g.idx
      | 2 => wrap32 (sx 18 g.step)
      | _ => BitVec.ofNat 32 (g.mode * 2 ^ 24 + g.len)
  else s.rd a

/-! ## Meanings: one row, one operation of the bundle that core `c` issues -/

def execIgNop (c : Fin 16) (s : State) : Out := .next (s.igIssue c 0 (hasOp 0x00))
def execIgMac (c : Fin 16) (s : State) : Out := .next (s.igIssue c 0 (hasOp 0x01))
def execIgMacp (c : Fin 16) (s : State) : Out := .next (s.igIssue c 0 (hasOp 0x02))
def execIgMac2 (c : Fin 16) (s : State) : Out := .next (s.igIssue c 0 (hasOp 0x03))
def execIgMacq (c : Fin 16) (s : State) : Out := .next (s.igIssue c 0 (hasOp 0x04))
def execIgMpy (c : Fin 16) (s : State) : Out := .next (s.igIssue c 0 (hasOp 0x05))
def execIgClr (c : Fin 16) (s : State) : Out := .next (s.igIssue c 0 (hasOp 0x06))
def execIgMova (c : Fin 16) (s : State) : Out := .next (s.igIssue c 0 (hasOp 0x07))
def execIgMovac (c : Fin 16) (s : State) : Out := .next (s.igIssue c 0 (hasOp 0x08))
def execIgAdd (c : Fin 16) (s : State) : Out := .next (s.igIssue c 0 (hasOp 0x10))
def execIgSub (c : Fin 16) (s : State) : Out := .next (s.igIssue c 0 (hasOp 0x11))
def execIgAdds (c : Fin 16) (s : State) : Out := .next (s.igIssue c 0 (hasOp 0x12))
def execIgSubs (c : Fin 16) (s : State) : Out := .next (s.igIssue c 0 (hasOp 0x13))
def execIgAnd (c : Fin 16) (s : State) : Out := .next (s.igIssue c 0 (hasOp 0x14))
def execIgOr (c : Fin 16) (s : State) : Out := .next (s.igIssue c 0 (hasOp 0x15))
def execIgXor (c : Fin 16) (s : State) : Out := .next (s.igIssue c 0 (hasOp 0x16))
def execIgMin (c : Fin 16) (s : State) : Out := .next (s.igIssue c 0 (hasOp 0x17))
def execIgMax (c : Fin 16) (s : State) : Out := .next (s.igIssue c 0 (hasOp 0x18))
def execIgMov (c : Fin 16) (s : State) : Out := .next (s.igIssue c 0 (hasOp 0x19))
def execIgCmp (c : Fin 16) (s : State) : Out := .next (s.igIssue c 0 (hasOp 0x1A))
def execIgAddi (c : Fin 16) (s : State) : Out := .next (s.igIssue c 0 (hasOp 0x1B))
def execIgAsr (c : Fin 16) (s : State) : Out := .next (s.igIssue c 0 (hasOp 0x1C))
def execIgLsr (c : Fin 16) (s : State) : Out := .next (s.igIssue c 0 (hasOp 0x1D))
def execIgLsl (c : Fin 16) (s : State) : Out := .next (s.igIssue c 0 (hasOp 0x1E))
def execIgNsb (c : Fin 16) (s : State) : Out := .next (s.igIssue c 0 (hasOp 0x1F))
def execIgAgset (c : Fin 16) (s : State) : Out := .next (s.igIssue c 0 (hasOp 0x20))
def execIgAgadd (c : Fin 16) (s : State) : Out := .next (s.igIssue c 0 (hasOp 0x21))
def execIgMts (c : Fin 16) (s : State) : Out := .next (s.igIssue c 0 (hasOp 0x22))
def execIgMfs (c : Fin 16) (s : State) : Out := .next (s.igIssue c 0 (hasOp 0x23))
def execIgLdiw (c : Fin 16) (s : State) : Out := .next (s.igIssue c 0 (hasOp 0x30))
def execIgBr (c : Fin 16) (s : State) : Out := .next (s.igIssue c 0 (hasOp 0x31))
def execIgCall (c : Fin 16) (s : State) : Out := .next (s.igIssue c 0 (hasOp 0x32))
def execIgRet (c : Fin 16) (s : State) : Out := .next (s.igIssue c 0 (hasOp 0x33))
def execIgRte (c : Fin 16) (s : State) : Out := .next (s.igIssue c 0 (hasOp 0x34))
def execIgRep (c : Fin 16) (s : State) : Out := .next (s.igIssue c 0 (hasOp 0x35))
def execIgDone (c : Fin 16) (s : State) : Out := .next (s.igIssue c 0 (hasOp 0x36))
def execIgFld (c : Fin 16) (s : State) : Out := .next (s.igIssue c 0 (hasOp 0x37))
def execIgFst (c : Fin 16) (s : State) : Out := .next (s.igWaiter c 3 (hasOp 0x38))
def execIgFence (c : Fin 16) (s : State) : Out := .next (s.igWaiter c 2 (hasOp 0x39))
/-- IG_SUBMIT: `c.cyc` stall cycles pass until the Vat answers (R244). -/
def execIgSubmit (c : Timed (Fin 16)) (s : State) : Out := .next (s.igIssue c.what c.cyc (hasOp 0x3A))
def execIgBkpt (c : Fin 16) (s : State) : Out := .next (s.igIssue c 0 (hasOp 0x3B))
def execIgLoad (c : Fin 16) (s : State) : Out := .next (s.igIssue c 0 (hasMop 1))
def execIgStore (c : Fin 16) (s : State) : Out := .next (s.igIssue c 0 (hasMop 2))
def execIgScaledStore (c : Fin 16) (s : State) : Out := .next (s.igIssue c 0 (hasMop 3))
def execIgIllegalBundle (c : Fin 16) (s : State) : Out := .next (s.igIllegal c)
def execRepeatIterationEnd (c : Fin 16) (s : State) : Out := .next (s.igIterate c)
def execExceptionTake (c : Fin 16) (s : State) : Out := .next (s.igTake c)
def execWatchdogExpiry (c : Fin 16) (s : State) : Out := .next (s.igWatchdog c)
def execItemCompletion (c : Timed (Fin 16)) (s : State) : Out := .next (s.igComplete c.what c.cyc)
def execDebugHalt (m : Master) (c : Fin 16) (s : State) : Out := .next (s.igGuard m c (fun t => t.igHalt c))
def execDebugStep (m : Master) (c : Fin 16) (s : State) : Out := .next (s.igGuard m c (fun t => t.igStepReq c))
def execDebugResume (m : Master) (c : Fin 16) (s : State) : Out := .next (s.igGuard m c (fun t => t.igResume c))
def execDoorbellWrite (_m : Master) (c : Fin 16) (v : Word) (s : State) : Out :=
  .next (if s.igPowered c then s.ok.dbellSet c v.toNat else s.ok)
def execIcinv (m : Master) (c : Fin 16) (s : State) : Out := .next (s.igGuard m c (fun t => t.igIcinv c))
def execIcacheFillDone (c : Fin 16) (cyc : Nat) (s : State) : Out := .next (s.igFill c cyc)

end Sys2Proof.Machine
end

