-- ==== Sys2Proof/Machine/Dma.lean ====
section
/-! DEFINITION. The DMA channels up to the bus: registers, starts, aborts, resumes, the issue of accesses, the end of a set
(R358 to R370). Accesses themselves are in Run.lean. -/

namespace Sys2Proof.Machine

/-- The codes of DMAn_STATUS.STATE (R359). -/
def dmIdle : Nat := 0
def dmActive : Nat := 1
def dmDone : Nat := 2
def dmChainEnd : Nat := 3
def dmError : Nat := 4
def dmAborted : Nat := 5

/-- Channel `n`. -/
def State.dch (s : State) (n : Nat) : DmaCh := ng s.dma.ch n DmaCh.idle
/-- Channel `n` changed by `g`. -/
def State.setDch (s : State) (n : Nat) (g : DmaCh → DmaCh) : State :=
  { s with dma := { s.dma with ch := ns s.dma.ch n (g (s.dch n)) } }
/-- DMAn_STATUS.STATE. -/
def State.dmaSt (s : State) (n : Nat) : Nat := s.get (F.dmaStatusState n)

/-- Who may write channel `n`'s registers other than OWN (R358, R373). -/
def State.dmaWriter (s : State) (n : Nat) (m : Master) : Option Bool :=
  let own := s.dmaOwner n
  match m with
  | .host h => some (h.val == 0 || h.val == own)
  | .core _ => if own == 4 then some true else none
  | .boot => if own == 4 then some true else none
  | _ => none

/-- The host whose windows the channel's data accesses meet (R358). -/
def State.dmaHost (s : State) (n : Nat) : Nat := if s.dmaOwner n = 4 then 0 else s.dmaOwner n

/-- DMA_EVT bit `n` set. -/
def State.dmaEvt (s : State) (n : Nat) : State := s.wr R.dmaEvt (s.rd R.dmaEvt ||| (1#32 <<< n))

/-- The channel enters an idle state (R359). -/
def State.dmaRest (s : State) (n st : Nat) : State :=
  (s.put (F.dmaStatusState n) st).setDch n (fun _ => DmaCh.idle)

/-- The channel ends in ERROR (R365, R367). -/
def State.dmaErr (s : State) (n kind addr : Nat) : State :=
  let s1 := ((s.put (F.dmaStatusEtype n) kind).put (F.dmaErraddrAddr n) addr).put (F.dmaStatusResumePend n) 0
  (s1.dmaRest n dmError).dmaEvt n

/-- Bytes of an ESIZE code. -/
def esizeOf (c : Nat) : Nat := 2 ^ c

/-- The checks of R359 on a register set. -/
def dmaBad (src dst cnt esize : Nat) (sfix dfix : Bool) : Bool :=
  decide (4 < esize) ||
  (sfix && src % esizeOf esize != 0) || (dfix && dst % esizeOf esize != 0) ||
  ((sfix || dfix) && cnt % esizeOf esize != 0)

/-- The largest access that is aligned at `a` and does not exceed `n` bytes (R361). -/
def chunk (a n : Nat) : Nat := ([16, 8, 4, 2].find? (fun k => a % k == 0 && decide (k ≤ n))).getD 1

/-- The size of channel `n`'s next read, of `left` bytes. -/
def State.dmaRdSize (s : State) (n left : Nat) : Nat :=
  if s.flag (F.dmaCtrlSrcFix n) then esizeOf (s.get (F.dmaCtrlEsize n)) else chunk (s.get (F.dmaSrcAddr n)) left

/-- The size of channel `n`'s next write. -/
def State.dmaWrSize (s : State) (n : Nat) : Nat :=
  if s.flag (F.dmaCtrlDstFix n) then esizeOf (s.get (F.dmaCtrlEsize n))
  else chunk (s.get (F.dmaDstAddr n)) (s.get (F.dmaCountCount n))

/-- Channel `n` has a write ready. -/
def State.dmaWrReady (s : State) (n : Nat) : Bool :=
  let k := s.dch n
  k.ph == 1 && decide (k.out.length < 16) && s.get (F.dmaCountCount n) != 0 && decide (s.dmaWrSize n ≤ k.buf.length)

/-- Channel `n` has a read ready. -/
def State.dmaRdReady (s : State) (n : Nat) : Bool :=
  let k := s.dch n
  k.ph == 1 && decide (k.out.length < 16) && k.left != 0

/-- The read of a link word or descriptor that the channel is to make: address and bytes (R364, R368, R369). -/
def State.dmaMeta (s : State) (n : Nat) : Option (Nat × Nat) :=
  let k := s.dch n
  if !k.out.isEmpty then none
  else match k.ph with
    | 4 => some (s.get (F.dmaLinkAddr n) + 16, 8)
    | 5 => some (s.get (F.dmaLinkAddr n), 32)
    | 6 => some (s.get (F.dmaTailAddr n) + 16, 8)
    | 7 => some (32 * s.get (F.dmaVdescAddr n), 32)
    | _ => none

/-- An access of channel `n` joins those outstanding (R362). -/
def State.dmaPush (s : State) (n : Nat) (wr : Bool) (a z : Nat) (data : List Byte) : State :=
  let x : DmaAcc := ⟨wr, a, z, data, s.dma.seq, !s.refuses a, false⟩
  let t := s.setDch n (fun k => { k with out := k.out ++ [x] })
  { t with dma := { t.dma with seq := s.dma.seq + 1 } }

/-- Channel `n` issues its next access: a read of a link word or descriptor, a write when its data are here, else a read
(R362, R363). A link read clears RESUME_PEND (R369). -/
def State.dmaIssue (s : State) (n : Nat) : State :=
  match s.dmaMeta n with
  | some (a, z) => (if (s.dch n).ph == 4 then s.put (F.dmaStatusResumePend n) 0 else s).dmaPush n false a z []
  | none =>
    let k := s.dch n
    if s.dmaWrReady n then
      let a := s.get (F.dmaDstAddr n)
      let z := s.dmaWrSize n
      let s1 := s.put (F.dmaCountCount n) (s.get (F.dmaCountCount n) - z)
      let s2 := if s.flag (F.dmaCtrlDstFix n) then s1 else s1.put (F.dmaDstAddr n) (a + z)
      (s2.setDch n (fun k => { k with buf := k.buf.drop z })).dmaPush n true a z (k.buf.take z)
    else if s.dmaRdReady n then
      let a := s.get (F.dmaSrcAddr n)
      let z := s.dmaRdSize n k.left
      let s1 := if s.flag (F.dmaCtrlSrcFix n) then s else s.put (F.dmaSrcAddr n) (a + z)
      (s1.setDch n (fun k => { k with left := k.left - z })).dmaPush n false a z []
    else s

/-- The accesses that one entry stands for: a descriptor is read as two of 16 bytes. -/
def DmaAcc.count (x : DmaAcc) : Nat := if x.size = 32 then 2 else 1

/-- Accesses outstanding over all channels. -/
def State.dmaOut (s : State) : Nat :=
  s.dma.ch.foldl (fun (x : Nat) k => x + k.out.foldl (fun (y : Nat) d => y + d.count) 0) 0

/-- Channel `n` may issue an access beside `m` outstanding ones, at most 48 (R362). -/
def State.dmaReady (s : State) (m n : Nat) : Bool :=
  match s.dmaMeta n with
  | some (_, z) => decide (m + (if z = 32 then 2 else 1) ≤ 48)
  | none => decide (m + 1 ≤ 48) && (s.dmaWrReady n || s.dmaRdReady n)

/-- The channel that issues next: PRIO = 1 first, then in turn within a level (R362). -/
def State.dmaPick (s : State) : Option (Nat × Bool) :=
  let m := s.dmaOut
  let first := fun (t : Nat) (p : Bool) =>
    ((List.range 32).map (fun i => (t + i) % 32)).find? (fun n => s.flag (F.dmaCtrlPrio n) == p && s.dmaReady m n)
  match first s.dma.turnP true with
  | some n => some (n, true)
  | none => (first s.dma.turn false).map (fun n => (n, false))

/-- Accesses issue while the limits of R362 allow, at most `f`. -/
def State.dmaPump (s : State) : Nat → State
  | 0 => s
  | f + 1 =>
    match s.dmaPick with
    | none => s
    | some (n, p) =>
      let s1 := s.dmaIssue n
      { s1 with dma := { s1.dma with
        turn := if p then s1.dma.turn else (n + 1) % 32
        turnP := if p then (n + 1) % 32 else s1.dma.turnP } }.dmaPump f

/-- The engine issues all that it may. -/
def State.dmaGo (s : State) : State := s.dmaPump 48

/-- A read of a link word or descriptor takes effect: the error and its address, or none, and the bytes. In the register range it finds 0
(R9); a descriptor is two reads of 16 bytes. -/
def State.dmaFetch (s : State) (n : Nat) (x : DmaAcc) : Option (Nat × Nat) × List Byte × State :=
  let m : Master := .dma ⟨n % 32, Nat.mod_lt _ (by decide)⟩
  let bad := fun (t : State) => match t.resp with
    | .error k => some k
    | .denied => some errPerm
    | _ => none
  if 0x08000000 ≤ x.addr then (none, List.replicate x.size 0#8, s)
  else
    let r := s.fabRead m x.addr (min x.size 16) x.ok
    let q := if x.size = 32 then r.2.fabRead m (x.addr + 16) 16 x.ok else ([], r.2)
    match bad r.2, bad q.2 with
    | none, none => (none, r.1 ++ q.1, q.2)
    | some k, _ => (some (k, x.addr), [], q.2)
    | none, some k => (some (k, x.addr + 16), [], q.2)

/-- The words of a list of bytes. -/
def wordsOf (l : List Byte) (n : Nat) : List Word :=
  (List.range n).map (fun i => BitVec.ofNat 32 (leNat ((l.drop (4 * i)).take 4)))

/-- The channel turns to phase `ph`, whose access then issues. -/
def State.dmaTurn (s : State) (n ph : Nat) : State := (s.setDch n (fun _ => { DmaCh.idle with ph := ph })).dmaGo

/-- After the Vat submission: the link read, or DONE (R364). -/
def State.dmaChain (s : State) (n : Nat) : State :=
  if s.flag (F.dmaCtrlChain n) then s.dmaTurn n 4 else s.dmaRest n dmDone

/-- A set has completed: event, then the read of the Vat descriptor, the link read or DONE (R364). -/
def State.dmaSetDone (s : State) (n : Nat) : State :=
  if s.flag (F.dmaCtrlVatEn n) then (s.dmaEvt n).dmaTurn n 7 else (s.dmaEvt n).dmaChain n

/-- The Vat descriptor has been read and is submitted (R364). -/
def State.dmaSubmit (s : State) (n : Nat) (b : List Byte) : State :=
  let r := s.vatOffer (wordsOf b 8) .dma none
  (r.2.setIf (r.1 != 0) (F.dmaStatusVatRefused n)).dmaChain n

/-- The register set runs (R359, R360): with COUNT 0 it completes at once. -/
def State.dmaRunSet (s : State) (n : Nat) : State :=
  let cnt := s.get (F.dmaCountCount n)
  let s1 := (s.put (F.dmaStatusState n) dmActive).setDch n (fun _ => { DmaCh.idle with ph := 1, left := cnt })
  if cnt == 0 then s1.dmaSetDone n else s1.dmaGo

/-- A start in an idle state (R359). -/
def State.dmaBegin (s : State) (n : Nat) : State :=
  let chain := s.flag (F.dmaCtrlChain n)
  if dmaBad (s.get (F.dmaSrcAddr n)) (s.get (F.dmaDstAddr n)) (s.get (F.dmaCountCount n)) (s.get (F.dmaCtrlEsize n))
      (s.flag (F.dmaCtrlSrcFix n)) (s.flag (F.dmaCtrlDstFix n)) || (chain && s.get (F.dmaLinkAddr n) % 32 != 0) then
    s.put (F.dmaStatusCfgErr n) 1
  else
    let s1 := ((s.put (F.dmaStatusErrMulti n) 0).put (F.dmaStatusEtype n) 0).put (F.dmaStatusResumePend n) 0
    if chain then (s1.put (F.dmaStatusState n) dmActive).dmaTurn n 5
    else s1.dmaRunSet n

/-- DMAn_CTRL.START (R359). -/
def State.dmaStartReq (s : State) (n : Nat) : State :=
  if s.dmaSt n == dmActive then s.put (F.dmaStatusCfgIgn n) 1 else s.dmaBegin n

/-- A start by a Vat action (R262, R359). -/
def State.dmaVatStart (s : State) (n : Nat) : State :=
  if s.dmaSt n == dmActive then s.put F.vatEvtDmaBusy 1 else s.dmaBegin n

/-- DMAn_CTRL.ABORT (R366): with nothing outstanding the channel is ABORTED at once. A set that has failed ends in ERROR. -/
def State.dmaAbortReq (s : State) (n : Nat) : State :=
  let k := s.dch n
  let aborted := ((s.put (F.dmaStatusResumePend n) 0).dmaRest n dmAborted).dmaEvt n
  if s.dmaSt n == dmChainEnd then aborted
  else if s.dmaSt n == dmActive && k.ph != 3 then
    if k.out.isEmpty then aborted
    else (s.put (F.dmaStatusResumePend n) 0).setDch n (fun k => if k.ph == 1 then { k with ph := 2 } else { k with stop := true })
  else s

/-- DMAn_CTRL.RESUME (R369). -/
def State.dmaResumeReq (s : State) (n : Nat) : State :=
  if s.dmaSt n == dmChainEnd then
    (if (s.dch n).ph == 6 then s.setDch n (fun k => { k with again := !k.out.isEmpty }) else s.dmaTurn n 6)
  else if s.dmaSt n == dmActive then s.put (F.dmaStatusResumePend n) 1
  else s

/-- A write of DMAn_CTRL: the fields, then ABORT, or START and RESUME (R359, R366, R482). -/
def State.dmaCtrlWrite (s : State) (n : Nat) (v : Word) : State :=
  let old := s.rd (R.dmaCtrl n)
  let new := v &&& 0xBFF00#32
  let s1 := if s.dmaSt n != dmActive then s.wr (R.dmaCtrl n) new else s.setIf (new != old) (F.dmaStatusCfgIgn n)
  if v.getLsbD 30 then s1.dmaAbortReq n
  else
    let s2 := if v.getLsbD 29 then s1.dmaResumeReq n else s1
    if v.getLsbD 31 then s2.dmaStartReq n else s2

/-- A write of DMAn_SRC, DST, COUNT, LINK or VDESC, which an ACTIVE channel ignores (R359). -/
def State.dmaParamWrite (s : State) (n a : Nat) (v : Word) : State :=
  if s.dmaSt n == dmActive then s.put (F.dmaStatusCfgIgn n) 1 else s.wr a v

/-- A write of DMAn_OWN (R358, R359, R372). -/
def State.dmaOwnWrite (s : State) (n : Nat) (v : Word) : State :=
  let x := fieldOf v.toNat 0 3
  if s.dmaSt n == dmActive || decide (4 < x) then s.put (F.dmaStatusCfgIgn n) 1
  else s.put (F.dmaOwnOwner n) x

/-- Who may write DMA_EVT and DMA_ACTIVE, which belong to every channel: the writers of some channel (R358, R373). -/
def State.dmaAnyWriter (s : State) (m : Master) : Option Bool :=
  let l := (List.range 32).map (fun n => s.dmaWriter n m)
  if l.contains (some true) then some true else if l.contains (some false) then some false else none

/-- DMA_EVT: writing 1 clears the bits of the channels that the writer may write; a host that names only channels of others is turned
away (R358, R373). -/
def State.dmaEvtWrite (s : State) (m : Master) (v : Word) : State :=
  let mine := (List.range 32).filter (fun n => v.getLsbD n && s.dmaWriter n m == some true)
  let s1 := mine.foldl (fun (t : State) n => t.wr R.dmaEvt (t.rd R.dmaEvt &&& ~~~(1#32 <<< n))) s
  if mine.isEmpty && v != 0#32 && (List.range 32).any (fun n => v.getLsbD n && s.dmaWriter n m == some false) then s.denied
  else s1.guard (s.dmaAnyWriter m) id

def execDmaStart (m : Master) (n : Fin 32) (v : Word) (s : State) : Out :=
  .next (s.guard (s.dmaWriter n m) (fun t => t.dmaCtrlWrite n (v ||| 0x80000000#32)))
def execDmaAbort (m : Master) (n : Fin 32) (v : Word) (s : State) : Out :=
  .next (s.guard (s.dmaWriter n m) (fun t => t.dmaCtrlWrite n (v ||| 0x40000000#32)))
def execDmaResume (m : Master) (n : Fin 32) (v : Word) (s : State) : Out :=
  .next (s.guard (s.dmaWriter n m) (fun t => t.dmaCtrlWrite n (v ||| 0x20000000#32)))

end Sys2Proof.Machine
end

