-- ==== Sys2Proof/Machine/Release.lean ====
section
/-! DEFINITION. The Vat's ordered release (R260 to R264). -/

namespace Sys2Proof.Machine

/-- The completion action of an item (R262, R264); status 0 OK, 1 LATE, 2 ABORTED. -/
def State.vatAction (s : State) (it : Item) (status : Nat) : State :=
  let s1 := s.setIf (status == 2) F.vatEvtAborted
  match it.act with
  | 1 => if status == 2 then s1
    else if s1.igPowered (it.tgt % 16) then s1.dbellSet (it.tgt % 16) (2 ^ (it.tgt / 16)) else s1
  | 2 => s1.cplPush (it.tgt % 4) it.tag status
  | 3 => if status == 2 then s1 else s1.dmaVatStart (it.tgt % 32)
  | 4 => if status == 2 then s1 else s1.playRelease it
  | _ => s1

/-- One completed item leaves the Vat with its action. -/
def State.releaseOne (s : State) (p : Item × Nat) : State :=
  (s.setVat (fun v => { v with done := v.done.filter (fun q => q.1.id != p.1.id) })).vatAction p.1 p.2

/-- The next completed item of flow `f` that may be released: for FLOW 0 the one that completed first, else the head of the
flow (R260, R261). -/
def State.releasable (s : State) (f : Nat) : Option (Item × Nat) :=
  s.vat.done.find? (fun p => p.1.flow == f && (f == 0 || s.isHead p.1))

/-- Heads are released in submission order while they have completed, at most `n` of them. -/
def State.releaseFrom (s : State) (f : Nat) : Nat → State
  | 0 => s
  | n + 1 =>
    match s.releasable f with
    | some p => (s.releaseOne p).releaseFrom f n
    | none => s

/-- ITEM_RELEASE: a FLOW 0 item alone; in an ordered flow the head and the completed items that follow it (R260, R261). -/
def State.itemRelease (s : State) (f : Nat) : State := s.releaseFrom f (if f = 0 then 1 else s.vat.done.length)

def execItemRelease (flow : Nat) (s : State) : Out := .next (s.itemRelease flow)

end Sys2Proof.Machine
end

