-- ==== Sys2Proof/Machine/Chime.lean ====
section
/-! DEFINITION. The fallback chime (R419 to R421, R477). -/

namespace Sys2Proof.Machine

/-- The chime changed. -/
def State.setChime (s : State) (g : Chime → Chime) : State := { s with chime := g s.chime }

/-- A step of Table 14-3: FREQ, LEVEL and duration, or none when it is not valid. -/
def chimeStepOf (w : Word) : Option (Nat × Nat × Nat) :=
  let f := fieldOf w.toNat 19 13
  let d := fieldOf w.toNat 0 8
  if (f == 0 || (decide (200 ≤ f) && decide (f ≤ 8000))) && d != 0 then some (f, fieldOf w.toNat 8 8, d) else none

/-- MRAM bytes that the boot or AON sequencer reads; none where a word holds an uncorrectable error, which is reported (R357).
The answer to the command's own access stands. -/
def State.mramBytes (s : State) (a n : Nat) : Option (List Byte) × State :=
  match s.ueIn a n 8 with
  | some u => (none, { s.ueSeen u with resp := s.resp })
  | none => (some ((List.range n).map (fun i => s.mramByte (a + i))), s)

/-- Pattern `q` in MRAM, when it is valid (R420). -/
def State.chimePat (s : State) (q : Nat) : Option (List (Nat × Nat × Nat)) × State :=
  let a := 0x07076000 + 0x400 * q
  match s.mramBytes a 8 with
  | (none, t) => (none, t)
  | (some h, t) =>
    let w0 := leNat (h.take 4)
    let n := fieldOf w0 8 8
    if fieldOf w0 16 16 != 0x4348 || n == 0 || n == 255 then (none, t)
    else match t.mramBytes (a + 8) (4 * n) with
      | (none, u) => (none, u)
      | (some b, u) =>
        if crc32 b != BitVec.ofNat 32 (leNat (h.drop 4)) then (none, u)
        else ((List.range n).mapM (fun i => chimeStepOf (BitVec.ofNat 32 (leNat ((b.drop (4 * i)).take 4)))), u)

/-- The AON sequencer copies the four patterns; a slot that is not valid takes the built-in one (R420). -/
def State.chimeCopy (s : State) : State :=
  (List.range 4).foldl (fun (t : State) q =>
    let p := t.chimePat q
    (p.2.setChime (fun c => { c with pat := ns c.pat q (p.1.getD builtIn) })).put F.chimeStatusValid
      (putField (p.2.get F.chimeStatusValid) q 1 (b2n p.1.isSome))) s

/-- A request of Table 14-4: its SRC, its pattern, and the pair of a twin request. -/
structure ChimeReq where
  src : Nat
  pat : Nat
  pair : Nat
  deriving DecidableEq, Repr

/-- The active requests of Table 14-4, highest priority first. A pair asks for the pattern of its mismatch (R150). -/
def State.chimeReqs (s : State) : List ChimeReq :=
  (if s.st == stSafe then [⟨1, s.get F.chimeCfgSafePat, 0⟩] else []) ++
  (if s.chime.pd1 then [⟨2, s.get F.chimeCfgPd1Pat, 0⟩] else []) ++
  (if s.chime.xtal then [⟨3, s.get F.chimeCfgXtalPat, 0⟩] else []) ++
  ((List.range 4).filter (fun p => s.mig.chimeReq.testBit p && s.get (F.twinStatusState p) != 0)).map (fun p =>
    ⟨4, ng s.mig.chimePat p 0, p⟩) ++
  (match s.chime.test with
   | some q => [⟨5, q, 0⟩]
   | none => [])

/-- The request that sounds. -/
def State.chimeNow (s : State) : ChimeReq := ⟨s.get F.chimeStatusSrc, s.get F.chimeStatusPat, s.chime.pair⟩

/-- The chime sounds request `r` from step 1. -/
def State.chimePlay (s : State) (r : ChimeReq) : State :=
  ((s.setChime (fun c => { c with step := 1, pair := r.pair })).put F.chimeStatusSrc r.src).put F.chimeStatusPat r.pat

/-- The chime is idle. -/
def State.chimeIdle (s : State) : State :=
  (((s.setChime (fun c => { c with step := 0, pair := 0, oc := false })).put F.chimeStatusSounding 0).put F.chimeStatusSrc 0).put
    F.chimeStatusPat 0

/-- The recopy that waits for the end of a tone period is made. -/
def State.chimeRecopy (s : State) : State :=
  if s.chime.reload then (s.setChime (fun c => { c with reload := false })).chimeCopy else s

/-- An idle chime starts when a request is active; EN = 0 keeps it idle, and a waiting recopy is made (R421, CHIME_CFG.EN). -/
def State.chimeSync (s : State) : State :=
  if !s.flag F.chimeCfgEn then s.chimeRecopy.chimeIdle
  else if s.flag F.chimeStatusSounding then s
  else match s.chimeReqs with
    | [] => s
    | r :: _ => ((s.chimePlay r).put F.chimeStatusSounding 1).put F.chimeStatusPlayed 1

/-- The steps of the pattern that sounds. -/
def State.chimeSteps (s : State) : List (Nat × Nat × Nat) := ng s.chime.pat (s.get F.chimeStatusPat) builtIn

/-- The end of a tone period: an overcurrent ends, a recopy is made, and a change of source or a stop takes effect. -/
def State.chimeTone (s : State) : State :=
  if !s.flag F.chimeStatusSounding then s
  else
    let s1 := s.setChime (fun c => { c with oc := false })
    let s2 := s1.chimeRecopy
    match s2.chimeReqs with
    | [] => s2.chimeIdle
    | r :: _ =>
      if r == s2.chimeNow then
        (if decide (s2.chime.step ≤ s2.chimeSteps.length) then s2 else s2.setChime (fun c => { c with step := 1 }))
      else s2.chimePlay r

/-- The end of a step's duration: a tone period ends with it; the next step follows, and step 1 after the last (R421). -/
def State.chimeStepEnd (s : State) : State :=
  if !s.flag F.chimeStatusSounding then s
  else
    let s1 := s.chimeTone
    if s1.flag F.chimeStatusSounding && s1.chimeNow == s.chimeNow then
      s1.setChime (fun c => { c with step := if decide (c.step < s1.chimeSteps.length) then c.step + 1 else 1 })
    else s1

/-- RELOAD: at once while idle, else at the end of the tone period. -/
def State.chimeReload (s : State) : State :=
  if s.flag F.chimeStatusSounding then s.setChime (fun c => { c with reload := true }) else s.chimeCopy

/-- A write of CHIME_CTRL: RELOAD, and TEST or TEST_STOP, which wins. -/
def State.chimeCtrlWrite (s : State) (v : Word) : State :=
  let s1 := if v.getLsbD 31 then s.chimeReload else s
  let s2 := if v.getLsbD 8 then s1.setChime (fun c => { c with test := none })
    else if v.getLsbD 4 then s1.setChime (fun c => { c with test := some (fieldOf v.toNat 0 2) })
    else s1
  s2.chimeSync

/-- A write of CHIME_CFG. -/
def State.chimeCfgWrite (s : State) (v : Word) : State := (s.wr R.chimeCfg (v &&& 0x80003330#32)).chimeSync

/-- What the outputs carry: tone frequency and level, or none while both legs are low. -/
def State.chimeOut (s : State) : Option (Nat × Nat) :=
  if !s.flag F.chimeStatusSounding || s.chime.oc then none
  else match s.chimeSteps[s.chime.step - 1]? with
    | some p => if p.1 == 0 then none else some (p.1, p.2.1)
    | none => none

def execChimeTonePeriod (s : State) : Out := .next s.chimeTone
def execChimeStepEnd (s : State) : Out := .next s.chimeStepEnd
def execTest (m : Master) (pat : Fin 4) (s : State) : Out :=
  .next (s.guard (host0Boot m) (fun t => (t.setChime (fun c => { c with test := some pat.val })).chimeSync))
def execTestStop (m : Master) (s : State) : Out :=
  .next (s.guard (host0Boot m) (fun t => t.setChime (fun c => { c with test := none })))
def execReload (m : Master) (s : State) : Out := .next (s.guard (host0Boot m) (fun t => t.chimeReload))
/-- CHIME_OVERCURRENT: both legs are low until the next tone period (R477). -/
def execChimeOvercurrent (s : State) : Out :=
  .next (if s.flag F.chimeStatusSounding then s.setChime (fun c => { c with oc := true }) else s)

end Sys2Proof.Machine
end

