-- ==== Sys2Proof/Machine/Vehicle.lean ====
section
/-! DEFINITION. The CAN FD listener, the event inputs and the wake request (R404 to R418, R422, R446). -/

namespace Sys2Proof.Machine

/-- A wake request: the sleeping part boots from step 4 (R446); ignored while awake. -/
def State.wake (s : State) : State :=
  if s.boot.asleep then
    let s1 := ((s.put F.pwrEvtWoke 1).put (F.pwrStatState 1) 2).put F.sysStateState stBoot
    { s1 with boot := { s1.boot with asleep := false, slp := 0, step := 4 } }
  else s

/-- The three writes that the listener and the event inputs make (R416), from place `k` of the order of R59, R142, R416 and R418: nothing
of PD1 is reached while it is off. -/
def State.vehLive (s : State) (k e w : Nat) (v : Word) : State := if s.powered 1 then s.liveWrite k e w v else s
def State.vehOvr (s : State) (k i : Nat) (v : Word) : State := if s.powered 1 then s.ovrPut k i v else s
def State.vehCount (s : State) (k : Nat) : State := s.bump (F.vehCntCount k) 1

/-! ## The listener -/

/-- Word `w` of signal definition `i` (Table 14-2), and a field of it. -/
def State.sigW (s : State) (i w : Nat) : Word := s.rd (0x080D0800 + 32 * i + 4 * w)
def State.sigF (s : State) (i w lo n : Nat) : Nat := fieldOf (s.sigW i w).toNat lo n

/-- Signal `i` is enabled. -/
def State.sigEn (s : State) (i : Nat) : Bool := s.sigF i 0 31 1 == 1

/-- The raw value `v` meets COND and CMPVAL of signal `i` (R415, Table 14-2). -/
def State.sigCond (s : State) (i : Nat) (v : Word) : Bool :=
  let c := s.sigW i 7
  let lt := if s.sigF i 0 29 1 == 1 then decide (v.toInt < c.toInt) else decide (v.toNat < c.toNat)
  match s.sigF i 6 27 3 with
  | 0 => v == c
  | 1 => v != c
  | 2 => lt
  | 3 => !lt
  | 4 => !lt && v != c
  | 5 => lt || v == c
  | _ => false

/-- The raw value in force goes to the destinations of signal `i` (R414, R415). -/
def State.sigApply (s : State) (i : Nat) : State :=
  let v := s.rd (R.canSigval i)
  let k := writerPlace .listener + i
  let s1 := if s.sigF i 5 31 1 == 1 then s.vehLive k (s.sigF i 5 24 3) (s.sigF i 5 16 4) v else s
  let on := s.sigCond i v
  let s2 := if s.sigF i 5 15 1 == 1 then
      s1.vehOvr k (s.sigF i 5 8 5) (if on then s.sigW i 6 &&& 0xC0FFFFFF#32 else 0#32) else s1
  let s3 := if s.sigF i 5 7 1 == 1 && on && !s.veh.cond.testBit i then s2.vehCount (s.sigF i 5 0 3) else s2
  { s3 with veh := { s3.veh with cond := putField s3.veh.cond i 1 (b2n on) } }

/-- Signal `i` is STALE with FALLBACK as its raw value (R413). -/
def State.sigStale (s : State) (i : Nat) : State := (s.put (F.canSigstStale i) 1).wr (R.canSigval i) (s.sigW i 4)

/-- The listener is enabled: INTEGRATE, every enabled signal STALE, every condition counted as false, all applied
(R407, R413, R414, R415). -/
def State.canOn (s : State) : State :=
  let s1 := { (s.put F.canCtrlEn 1).put F.canStatusState 1 with veh := { s.veh with cond := 0 } }
  (List.range 48).foldl (fun (t : State) i =>
    if t.sigEn i then (t.sigStale i).sigApply i else t.put (F.canSigstStale i) 0) s1

/-- The codes of CAN_CTRL are valid: DBR names a rate of at least NBR, and the sample points lie in 50 to 90. -/
def canCodesOk (v : Word) : Bool :=
  let dsp := fieldOf v.toNat 8 8
  let nsp := fieldOf v.toNat 0 8
  decide (fieldOf v.toNat 26 3 ≤ 4) && decide (50 ≤ dsp) && decide (dsp ≤ 90) && decide (50 ≤ nsp) && decide (nsp ≤ 90)

/-- A write of CAN_CTRL. -/
def State.canCtrlWrite (s : State) (v : Word) : State :=
  let mask : Word := 0x7C00FFFF#32
  if s.flag F.canCtrlEn then
    let s1 := s.setIf ((v &&& mask) != (s.rd R.canCtrl &&& mask)) F.canStatusCfgIgn
    if v.getLsbD 31 then s1 else (s1.put F.canCtrlEn 0).put F.canStatusState 0
  else
    let s1 := s.wr R.canCtrl (v &&& mask)
    if !v.getLsbD 31 then s1 else if canCodesOk v then s1.canOn else s1.put F.canStatusCfgErr 1

/-- A write of the filter or signal memory (R410); one to an address that holds no word is
ignored (R10). A signal that is disabled does not read as STALE. -/
def State.canMemWrite (s : State) (a : Nat) (v : Word) : State :=
  match regDesc a with
  | some d =>
    if s.flag F.canCtrlEn then s.put F.canStatusCfgIgn 1
    else
      let s1 := s.wr a (v &&& BitVec.ofNat 32 d.rw)
      let i := (a - 0x080D0800) / 32
      if decide (0x080D0800 ≤ a) && decide (i < 48) && !s1.sigEn i then s1.put (F.canSigstStale i) 0 else s1
  | none => s

/-- Filter `f` takes the frame (R409, Table 14-1). -/
def State.canMatch (s : State) (f : Nat) (x : CanFrame) : Bool :=
  let w0 := (s.rd (0x080D0400 + 8 * f)).toNat
  let w1 := (s.rd (0x080D0404 + 8 * f)).toNat
  let bits := if x.ext then 29 else 11
  let mask := fieldOf w1 0 bits
  w0.testBit 31 && w0.testBit 30 == x.ext &&
  (match fieldOf w1 30 2 with
   | 0 => true
   | 1 => !x.fd
   | 2 => x.fd
   | _ => false) &&
  (x.id % 2 ^ bits) &&& mask == w0 &&& mask

/-- Bit `b` of a payload (R411). -/
def payBit (d : List Byte) (b : Nat) : Nat := ((d[b / 8]?).getD 0#8).toNat >>> (b % 8) % 2

/-- The payload bits of a signal, most significant first (R411). -/
def sigBits (big : Bool) (start : Nat) : Nat → List Nat
  | 0 => []
  | n + 1 =>
    if big then start :: sigBits big (if start % 8 = 0 then start + 15 else start - 1) n
    else (start + n) :: sigBits big start n

/-- The raw value of signal `i` in a payload, extended by SIGNED; none where a bit is missing (R411, R412). -/
def State.sigRaw (s : State) (i : Nat) (d : List Byte) : Option Word :=
  let len := s.sigF i 0 16 5 + 1
  let bs := sigBits (s.sigF i 0 30 1 == 1) (s.sigF i 0 0 10) len
  if bs.any (fun b => decide (8 * d.length ≤ b)) then none
  else
    let raw := bs.foldl (fun (x : Nat) b => 2 * x + payBit d b) 0
    some (if s.sigF i 0 29 1 == 1 then wrap32 (sx len raw) else BitVec.ofNat 32 raw)

/-- The keys under which a cycle's receptions and timeouts of signal `i` are kept beside the words written in it. -/
def sigRxKey (i : Nat) : Nat := 0x20000000000 + i
def sigToKey (i : Nat) : Nat := 0x30000000000 + i

/-- What a timeout of signal `i` in this cycle did, before a reception in the same cycle: nothing stands of it (R413). The condition, the
counter and the event bit are as before it; its other writes are overwritten by those of the reception. -/
def State.sigUntime (s : State) (i : Nat) : State :=
  let r := spGet (fun _ => 0) s.sys.wrote (sigToKey i)
  if r == 0 then s
  else
    let f := if i < 32 then R.canToEvtLo else R.canToEvtHi
    let c := F.vehCntCount (s.sigF i 5 0 3)
    let s1 := if r.testBit 1 then s.wr f (BitVec.ofNat 32 (putField (s.rd f).toNat (i % 32) 1 0)) else s
    let s2 := if r.testBit 3 then s1.put c (s1.get c - 1) else s1
    ({ s2 with veh := { s2.veh with cond := putField s2.veh.cond i 1 (b2n (r.testBit 2)) } }).noteWriter (sigToKey i) 0

/-- A received frame updates signal `i` (R408, R411, R413). -/
def State.sigUpdate (s : State) (i : Nat) (d : List Byte) : State :=
  match s.sigRaw i d with
  | none => s.put F.canStatusShort 1
  | some v =>
    let u := (s.sigUntime i).noteWriter (sigRxKey i) 1
    let s1 := (u.wr (R.canSigval i) v).wr (R.canSigts i) (BitVec.ofNat 32 (s.tstamp % 2 ^ 32))
    ((s1.put (F.canSigstStale i) 0).put (F.canSigstHalted i) (b2n (!s.runs))).sigApply i

/-- A frame that a filter took (R409, R416, R446). -/
def State.canTake (s : State) (f : Nat) (d : List Byte) : State :=
  let s1 := s.bump F.canRxCntAccepted 1
  let s2 := (List.range 48).foldl (fun (t : State) i =>
    if t.sigEn i && t.sigF i 0 10 6 == f then t.sigUpdate i d else t) s1
  if s2.flag F.pwrCtrlCanWake then s2.wake else s2

/-- The form violations: one on the wire, or a frame with BRS = 1 while CAN_CTRL.DBR names no data rate. -/
def State.canFormErr (s : State) (x : CanFrame) : Bool := x.formErr || (x.brs && s.get F.canCtrlDbr == 0)

/-- A frame at its receive point (R405 to R409). -/
def State.canFrame (s : State) (x : CanFrame) : State :=
  if s.get F.canStatusState != 2 then s
  else if x.crcErr || x.stuffErr || s.canFormErr x || x.rateErr then
    let n := fun (t : State) (c : Bool) (f : Fld) => if c then t.bump f 1 else t
    (n (n (n (n s x.crcErr F.canErrCntCrc) x.stuffErr F.canErrCntStuff) (s.canFormErr x) F.canErrCntForm) x.rateErr
      F.canErrCntRate).setIf x.rateErr F.canStatusRateErr
  else if x.rtr then s
  else match (List.range 64).find? (fun f => s.canMatch f x) with
    | some f => s.canTake f x.data
    | none => s.bump F.canRxCntRejected 1

/-- TIMEOUT passes without a frame (R413). A reception in the same cycle has won. What else the timeout does is noted, for a reception
that comes later in its cycle: the event bit (1), the condition before (2), and a count (3). -/
def State.sigTimeout (s : State) (i : Nat) : State :=
  if s.flag F.canCtrlEn && s.sigEn i && s.sigF i 3 0 16 != 0 && !s.flag (F.canSigstStale i) && s.lastWriter (sigRxKey i) 0 then
    let f := if i < 32 then R.canToEvtLo else R.canToEvtHi
    let c := F.vehCntCount (s.sigF i 5 0 3)
    let s1 := ((s.wr f (s.rd f ||| (1#32 <<< (i % 32)))).sigStale i).sigApply i
    s1.noteWriter (sigToKey i)
      (1 + 2 * b2n (!(s.rd f).getLsbD (i % 32)) + 4 * b2n (s.veh.cond.testBit i) + 8 * b2n (s1.get c != s.get c))
  else s

/-! ## Event inputs -/

/-- Input `i`, and input `i` changed. -/
def State.evt (s : State) (i : Nat) : Evt := ng s.veh.evt i ⟨false, false, false, false, []⟩
def State.setEvt (s : State) (i : Nat) (g : Evt → Evt) : State :=
  { s with veh := { s.veh with evt := ns s.veh.evt i (g (s.evt i)) } }

/-- The raw level of input `i` (R417). -/
def State.evtRaw (s : State) (i : Nat) : Bool := xor (s.evt i).pin (s.flag (F.evtCfgInv i))

/-- The logical level that the chain of input `i` gives (R417). -/
def State.evtLogical (s : State) (i : Nat) : Bool :=
  s.flag (F.evtCfgEn i) && !(s.evt i).rel && (if (s.evt i).frz then s.flag (F.evtCfgFrzLvl i) else (s.evt i).deb)

/-- The destinations of input `i` after a change of its logical level to `on` (R418). -/
def State.evtAct (s : State) (i : Nat) (on : Bool) : State :=
  let k := writerPlace .events + i
  let w := (s.get (F.evtDestOnMode i)) * 2 ^ 30 + s.get (F.evtDestOnGain i)
  let s1 := if s.flag (F.evtDestOvEn i) then
      s.vehOvr k (s.get (F.evtDestOvr i)) (if on then BitVec.ofNat 32 w else 0#32) else s
  let s2 := if s.flag (F.evtActLwEn i) then
      s1.vehLive k (s.get (F.evtActEng i)) (s.get (F.evtActLw i)) (if on then 1#32 else 0#32) else s1
  if !on then s2
  else
    let s3 := if s.flag (F.evtActCntEn i) then s2.vehCount (s.get (F.evtActCnt i)) else s2
    let s4 := if s.flag (F.evtActSnap i) && s.powered 1 then (s3.fire 1).settle else s3
    if s.flag (F.evtActWake i) then s4.wake else s4

/-- EVT_LEVEL follows the chain, and a change of an enabled input's logical level acts. -/
def State.evtSync (s : State) (i : Nat) : State :=
  let old := (s.get F.evtLevelLogical).testBit i
  let new := s.evtLogical i
  let s1 := (s.put F.evtLevelRaw (putField (s.get F.evtLevelRaw) i 1 (b2n (s.evtRaw i)))).put F.evtLevelLogical
    (putField (s.get F.evtLevelLogical) i 1 (b2n new))
  if old != new && s.flag (F.evtCfgEn i) then s1.evtAct i new else s1

/-- The debounced level takes the raw level; going inactive ends the release of a stuck input. -/
def State.evtDebounced (s : State) (i : Nat) : State :=
  let r := s.evtRaw i
  s.setEvt i (fun e => { e with deb := r, rel := e.rel && r })

/-- The raw-level changes of input `i` in the window of CHAT_W × 100 ms that ends now, to the millisecond (R417; DESIGN CHOICE, log 69).
CHAT_W 0 acts as 1. -/
def State.evtChats (s : State) (i : Nat) : List Nat :=
  (s.evt i).chg.filter (fun t => decide (s.sys.ms < t + 100 * max 1 (s.get (F.evtCfgChatW i))))

/-- The window holds more than CHAT_K changes; CHAT_K = 0 disables the stage (R417). -/
def State.evtMany (s : State) (i : Nat) : Bool :=
  s.get (F.evtCfgChatK i) != 0 && decide (s.get (F.evtCfgChatK i) < (s.evtChats i).length)

/-- The chatter stage freezes the level of input `i` at FRZ_LVL and sets CHATTER (R417). -/
def State.evtFreeze (s : State) (i : Nat) : State :=
  (s.setEvt i (fun e => { e with frz := true })).put F.evtStatusChatter (putField (s.get F.evtStatusChatter) i 1 1)

/-- A change of the pin: it counts for chatter, and with DEB = 0 it passes through (R417). The latest CHAT_K + 1 changes decide. -/
def State.evtPin (s : State) (i : Nat) (level : Bool) : State :=
  if (s.evt i).pin == level then s
  else
    let s1 := s.setEvt i (fun e => { e with pin := level, chg := (s.sys.ms :: e.chg).take (s.get (F.evtCfgChatK i) + 1) })
    let s2 := if s1.evtMany i then s1.evtFreeze i else s1
    (if s2.get (F.evtCfgDeb i) == 0 then s2.evtDebounced i else s2).evtSync i

/-- CHATTER_WINDOW: the window that ends now holds more than CHAT_K changes and the level freezes, or at most so many and a freeze ends
(R417). -/
def State.evtChatter (s : State) (i : Nat) : State :=
  (if s.evtMany i then s.evtFreeze i else s.setEvt i (fun e => { e with frz := false })).evtSync i

/-- The logical level has been active for MAXACT seconds (R417). -/
def State.evtStuck (s : State) (i : Nat) : State :=
  if s.get (F.evtCfgMaxact i) != 0 && s.evtLogical i then
    let s1 := s.put F.evtStatusStuck (putField (s.get F.evtStatusStuck) i 1 1)
    (if s.flag (F.evtCfgRel i) then s1.setEvt i (fun e => { e with rel := true }) else s1).evtSync i
  else s

/-- A write of EVT_CFGi: the timers restart, and stages that the write disables let go (R417). -/
def State.evtCfgWrite (s : State) (i : Nat) (v : Word) : State :=
  let s1 := s.wr (R.evtCfg i) (v &&& 0xF0FFFFFF#32)
  let s2 := s1.setEvt i (fun e => { e with
    chg := []
    frz := e.frz && s1.get (F.evtCfgChatK i) != 0
    rel := e.rel && s1.get (F.evtCfgMaxact i) != 0 && s1.flag (F.evtCfgRel i) })
  (if s2.get (F.evtCfgDeb i) == 0 then s2.evtDebounced i else s2).evtSync i

/-! ## Meanings -/

/-- CAN_ENABLE is the write of CAN_CTRL with EN from 0 to 1. -/
def execCanEnable (m : Master) (v : Word) (s : State) : Out :=
  .next (if v.getLsbD 31 then s.guard (host0Boot m) (fun t => t.canCtrlWrite v) else s)
def execCanIntegrationDone (s : State) : Out :=
  .next (if s.get F.canStatusState == 1 then s.put F.canStatusState 2 else s)
def execCanFrameReceived (f : CanFrame) (cyc : Nat) (s : State) : Out := .next ((s.atCyc cyc).canFrame f)
def execSignalTimeout (sg : Fin 48) (cyc : Nat) (s : State) : Out := .next ((s.atCyc cyc).sigTimeout sg)
def execEventPinChange (i : Timed (Fin 8)) (level : Bool) (s : State) : Out := .next ((s.atCyc i.cyc).evtPin i.what level)
def execDebounceExpiry (i : Fin 8) (cyc : Nat) (s : State) : Out :=
  .next (if (s.evt i).deb == s.evtRaw i then s else ((s.atCyc cyc).evtDebounced i).evtSync i)
def execChatterWindow (i : Fin 8) (cyc : Nat) (s : State) : Out := .next ((s.atCyc cyc).evtChatter i)
def execStuckTimeout (i : Fin 8) (cyc : Nat) (s : State) : Out := .next ((s.atCyc cyc).evtStuck i)

end Sys2Proof.Machine
end

