-- ==== Sys2Proof/Machine/Handover.lean ====
section
/-! DEFINITION. The stop of an engine, and the runs that follow a handover (R51, R162, R163, Table 05-5). -/

namespace Sys2Proof.Machine

/-- The machine stands at a tick boundary of domain `d`, its first cycle. -/
def State.atTick (s : State) (d : RDom) : Bool := s.sys.cyc == 0 && s.tickAt d s.sys.qt

/-- The machine stands at a tick boundary of engine `e`'s domain. -/
def State.atEngTick (s : State) (e : Nat) : Bool :=
  match s.engDom e with
  | some d => s.atTick d
  | none => false

/-- X of a MOVE, or the placeholder of a LATE, is kept running up to E_{T+2} (Table 05-5). -/
def State.stopHeld (s : State) (e : Nat) : Bool :=
  s.mig.x == e && (s.mig.kind == 1 || (s.mig.kind == 3 && s.mig.srcEn)) &&
    (s.get F.migStatusState == 4 || (s.mig.armed && s.tickNo == s.mig.t))

/-- ENGINE_STOP: at the boundary that ended its final run. A stop of X before the handover abandons the migration, join or
late start (R51, Table 05-5). -/
def State.engineStop (s : State) (e : Nat) : State :=
  if s.runs && s.teState e == teStopPending && s.atEngTick e && !(s.eng e).active && !s.stopHeld e then
    let s1 := s.stopNow e
    if s.mig.x == e && (s.mig.kind == 1 || s.mig.kind == 2 || (s.mig.kind == 3 && s.mig.srcEn)) then s1.migAbandon.useSync else s1.useSync
  else s

/-- At completion, live-word targets that name X name Y: CAN signal definitions and event actions with LW_EN (R163). -/
def State.retarget (s : State) (x y : Nat) : State :=
  let s1 := (List.range 48).foldl (fun (t : State) i =>
    let a := 0x080D0800 + 32 * i + 20
    let v := (t.rd a).toNat
    if v.testBit 31 && fieldOf v 24 3 == x then t.wr a (BitVec.ofNat 32 (putField v 24 3 y)) else t) s
  (List.range 8).foldl (fun (t : State) i =>
    if t.flag (F.evtActLwEn i) && t.get (F.evtActEng i) == x then t.put (F.evtActEng i) y else t) s1

/-- The output words and flags of X and Y agree in the run that has ended (R162); at the edge of a drain nothing is captured
(R63), and the words stand as the run left them. -/
def State.sameRun (s : State) (x y : Nat) : Bool :=
  (if s.endsHere then (s.eng x).out == (s.eng y).out else (s.eng x).cap == (s.eng y).cap) &&
    s.rd (R.teFlags x) == s.rd (R.teFlags y)

/-- A compare that differs: ERR.VERIFY, the trigger and the log entry, once for each handover (R162). -/
def State.verifyFail (s : State) : State :=
  if s.mig.bad then s
  else
    let s1 := ((s.put F.migStatusVerify 1).fire 2).flog 0x0A (BitVec.ofNat 32 s.mig.x) (BitVec.ofNat 32 s.mig.t)
    { s1 with mig := { s1.mig with bad := true } }

/-- HANDOVER_VERIFY at E_{T+1} and E_{T+2} (R162, R165). A drain that begins at E_{T+1} abandons the handover; one that begins at
E_{T+2} finds it complete (Table 05-5). -/
def State.handoverVerify (s : State) : State :=
  let x := s.mig.x
  let y := s.mig.y
  match s.engDom x with
  | none => s
  | some d =>
    if s.runs && !(s.endsHere && s.mig.cmp == 0) && s.get F.migStatusState == 4 && s.atTick d &&
        s.dtick d == (s.dtickAt d (4 * s.mig.t) + s.mig.cmp + 1) % 2 ^ 48 then
      let s1 := if s.mig.kind == 1 && !s.sameRun x y then s.verifyFail else s
      if s1.mig.cmp == 0 then { s1 with mig := { s1.mig with cmp := 1 } }
      else (((s1.stopNow x).retarget x y).migIdle.put F.migStatusDone 1).useSync
    else s

def execEngineStop (e : Fin 8) (s : State) : Out := .next (s.engineStop e)
def execHandoverVerify (s : State) : Out := .next s.handoverVerify.settle

end Sys2Proof.Machine
end

