-- ==== Sys2Proof/Machine/Pll.lean ====
section
/-! DEFINITION. The two PLLs: seeking and declaring lock, dividers, multipliers, output delays and enables (R302 to R312). -/

namespace Sys2Proof.Machine

/-- PLL `p` is not locked and starts to seek its target: a hop when its band is stored, else a search (R304). With the APLL goes the slew,
which keeps the remainder that it has reached (R329). -/
def State.pllRestart (s : State) (p : Nat) : State :=
  let s1 := (s.put (F.pllStatusLocked p) 0).put (F.pllStatusClampAct p) 0
  let s2 := s1.put (F.pllStatusState p) (if (s1.bandFind p (s1.bandKey p)).isSome then plHop else plSearch)
  if p = 0 then s2
  else ((List.range 4).foldl (fun (t : State) k => t.put (F.pllOutCfgAct 1 (k + 1)) 0) s2).ocProgress.setOc (fun o => { o with held := true })

/-- PLL `p` seeks its target afresh; what a seek under way has found by now stays. -/
def State.pllSeek (s : State) (p : Nat) : State := (s.pllWander p).pllRestart p

/-- PLL `p` holds its outputs gated without seeking: `st` is OFF or GATED. -/
def State.pllHold (s : State) (p st : Nat) : State := (s.pllSeek p).put (F.pllStatusState p) st

/-- The MCLK outputs stand gated by an APPLY (R310). -/
def State.mclkGated (s : State) : Bool := s.clk.apply == 2 || s.clk.apply == 3

/-- An APPLY waits for its divider boundary: shadow writes join it (R310). -/
def State.mclkJoins (s : State) : Bool := s.clk.apply == 1 || s.clk.apply == 3

/-- The lock declaration of PLL `p`: the fine acquisition ends, with the band in use, and the MCLK outputs start with the
lock (R304 to R306). -/
def State.pllDeclare (s : State) (p : Nat) : State :=
  let s0 := s.pllWander p
  let s1 := if s0.get (F.pllStatusState p) == plAcquire then s0 else s0.bandUse p
  let s2 := (s1.put (F.pllStatusLocked p) 1).put (F.pllStatusState p) plLocked
  let s3 := if p = 0 then s2.igClkBack else
    ((List.range 4).foldl (fun (t : State) k =>
      t.put (F.pllOutCfgAct 1 (k + 1)) (b2n (t.flag (F.pllOutCfgEn 1 (k + 1)) && !t.mclkGated))) s2).setClk
      (fun c => { c with cur := s2.pllGoal.fix })
  s3.clampSync

/-- PLL1_MULT and PLL1_MDEN take a family's nominal, and any trim is discarded (R309). -/
def State.pllLoad (s : State) (fam : Bool) : State :=
  let n := nomFam fam
  ((((s.pllWander 1).put (F.pllMultNint 1) n.1).put (F.pllMultNum 1) n.2.1).put (F.pllMdenDen 1) n.2.2).setClk
    (fun c => { c with cur := (nomMult fam).fix, den := n.2.2 })

/-! ## Writes (R308 to R312) -/

/-- The DIV of output `k` can be written. -/
def divRw (p k : Nat) : Bool := (p == 0 && k == 0) || (p == 1 && decide (1 ≤ k) && decide (k ≤ 4))
/-- Output `k` of PLL `p` is an MCLK. -/
def isMclk (p k : Nat) : Bool := p == 1 && decide (1 ≤ k) && decide (k ≤ 4)

/-- The DIV value is one that output `k` takes. -/
def divOk (p _k d : Nat) : Bool := if p = 0 then decide (4 ≤ d) && decide (d ≤ 8) else d != 0

/-- EN of an MCLK output: 1 waits for its start at a tick boundary, 0 stops it (R312). -/
def State.mclkEn (s : State) (k : Nat) (on : Bool) : State :=
  if on then (s.put (F.pllOutCfgEn 1 k) 1) else (s.put (F.pllOutCfgEn 1 k) 0).put (F.pllOutCfgAct 1 k) 0

/-- A shadow DIV of MCLK output `k` passes the check of R308. -/
def State.shadowOk (s : State) (k d : Nat) : Bool :=
  d != 0 && (!s.outOn 1 k || freqOk (s.pllNom 1) 2500 (s.get (F.pllOutCfgFmax 1 k)) d || decide (s.outDiv 1 k ≤ d))

/-- A write of PLLp_OUTk_CFG: FMAX, DIV (to its shadow in compatibility mode), and EN of an MCLK (R307, R308, R310, R312). -/
def State.outCfgWrite (s : State) (p k : Nat) (v : Word) : State :=
  if outCount p ≤ k then s
  else
    let d := fieldOf v.toNat 0 16
    let fmax := fieldOf v.toNat 16 10
    let compat := isMclk p k && s.flag (F.pllCtrlCompat 1)
    let s1 := s.put (F.pllOutCfgFmax p k) fmax
    let s2 := if divRw p k && !compat then s1.put (F.pllOutCfgDiv p k) d else s1
    let s3 := if isMclk p k && v.getLsbD 31 != s.flag (F.pllOutCfgEn 1 k) then s2.mclkEn k (v.getLsbD 31) else s2
    let low := fmax != s.get (F.pllOutCfgFmax p k) && !freqOk (s.pllNom p) 0 fmax (s3.outDiv p k)
    if (divRw p k && !divOk p k d) || low || s.putsAbove s3 p (s.pllNom p) (s.pllNom p) ||
      (compat && s.mclkJoins && !s3.shadowOk k d) then s.put (F.pllStatusFmaxErr p) 1
    else if compat then
      (s3.clampSync.put (F.pllOutCfgDivPend 1 k) 1).setClk (fun c => { c with sh := ns c.sh (k - 1) (some d) })
    else s3.clampSync

/-- Every shadow DIV passes the check of R308. -/
def State.shadowsOk (s : State) : Bool :=
  (List.range 4).all (fun j =>
    match ng s.clk.sh j none with
    | some d => s.shadowOk (j + 1) d
    | none => true)

/-- PLL1_CTRL.APPLY in compatibility mode (R310). One written while the outputs are held low has its own divider boundary, the next;
one written while another waits for its boundary adds nothing to it. -/
def State.pllApply (s : State) : State :=
  if !s.flag (F.pllCtrlCompat 1) then s
  else if !s.shadowsOk then s.put (F.pllStatusFmaxErr 1) 1
  else (s.put (F.pllStatusApplyPend 1) 1).setClk (fun c => { c with apply := if s.mclkGated then 3 else 1 })

/-- A write of PLLp_CTRL: COMPAT, then APPLY (R310). -/
def State.pllCtrlWrite (s : State) (p : Nat) (v : Word) : State :=
  if p = 0 then s
  else
    let c := v.getLsbD 8
    let s1 := if c == s.flag (F.pllCtrlCompat 1) then s
      else if s.flag (F.pllStatusApplyPend 1) then s.put (F.pllStatusCfgIgn 1) 1
      else s.put (F.pllCtrlCompat 1) (b2n c)
    if v.getLsbD 31 then s1.pllApply else s1

/-- The machine stands at a domain-A tick boundary with ENG_CLK running. Outside an epoch the ticks are not counted, and a
command of R310 or R312 says itself that its boundary is there. -/
def State.engEdge (s : State) : Bool := s.pllLocked 1 && (s.st != stRun || s.atEdge)

/-- The divider boundary of an APPLY: enabled MCLK outputs gate and the shadows become active together (R310). -/
def State.mclkBoundary (s : State) : State :=
  if s.mclkJoins && s.engEdge then
    let s1 := (List.range 4).foldl (fun (t : State) j =>
      let u := (t.put (F.pllOutCfgAct 1 (j + 1)) 0).put (F.pllOutCfgDivPend 1 (j + 1)) 0
      match ng s.clk.sh j none with
      | some d => u.put (F.pllOutCfgDiv 1 (j + 1)) d
      | none => u) s
    (s1.setClk (fun c => { c with apply := 2, sh := Vector.replicate 4 none })).clampSync
  else s

/-- The gated MCLK outputs restart together (R310); where a further APPLY comes to its boundary first, they stay low. -/
def State.mclkRestart (s : State) : State :=
  if s.clk.apply == 2 && s.engEdge then
    ((List.range 4).foldl (fun (t : State) j =>
      t.put (F.pllOutCfgAct 1 (j + 1)) (b2n (t.flag (F.pllOutCfgEn 1 (j + 1))))) s).put (F.pllStatusApplyPend 1) 0 |>.setClk
      (fun c => { c with apply := 0 })
  else s

/-- An enabled MCLK output starts (R312). -/
def State.mclkStart (s : State) (k : Nat) : State :=
  if s.engEdge && !s.mclkGated && s.flag (F.pllOutCfgEn 1 k) then s.put (F.pllOutCfgAct 1 k) 1 else s

/-- MCLK_ENABLE: EN of output `k` alone. -/
def State.mclkEnable (s : State) (k : Nat) (on : Bool) : State :=
  if on == s.flag (F.pllOutCfgEn 1 k) then s
  else if s.putsAbove (s.mclkEn k on) 1 (s.pllNom 1) (s.pllNom 1) then s.put (F.pllStatusFmaxErr 1) 1
  else (s.mclkEn k on).clampSync

/-- A multiplier more than 2 % from the family nominal (R308). -/
def Mult.far (m n : Mult) : Bool :=
  decide (102 * n.num * m.den < 100 * m.num * n.den) || decide (100 * m.num * n.den < 98 * n.num * m.den)

/-- A write of PLL1_MULT (R308, R309); an unlocked APLL seeks the new target (R304). -/
def State.multWrite (s : State) (v : Word) : State :=
  let den := s.get (F.pllMdenDen 1)
  let num := fieldOf v.toNat 0 24
  let goal := multOf (fieldOf v.toNat 24 8) num den
  if s.ocSt != ocFreerun then s.put (F.pllStatusCfgIgn 1) 1
  else if decide (den ≤ num) || goal.far (nomMult (famOf (cfgFsa s.domAct))) || s.putsAbove s 1 s.pllGoal goal then s.put (F.pllStatusFmaxErr 1) 1
  else
    let s1 := ((s.pllWander 1).wr (R.pllMult 1) v).setClk (fun c => { c with den := den })
    if s.pllSeeks 1 then s1.pllRestart 1
    else if !s.pllLocked 1 then s1
    else if goal.fix == s.clk.cur then s1.put (F.pllStatusState 1) plLocked
    else s1.put (F.pllStatusState 1) plRetune

/-- A write of PLL1_MDEN (R308, R309). -/
def State.mdenWrite (s : State) (v : Word) : State :=
  if s.ocSt != ocFreerun then s.put (F.pllStatusCfgIgn 1) 1
  else if fieldOf v.toNat 0 24 == 0 then s.put (F.pllStatusFmaxErr 1) 1
  else s.put (F.pllMdenDen 1) (fieldOf v.toNat 0 24)

/-- RETUNE_STEP: the DCO moves by at most 1/256 of its frequency (R308). -/
def State.retuneStep (s : State) : State :=
  if s.get (F.pllStatusState 1) != plRetune then s
  else
    let c := s.clk.cur
    let g := s.pllGoal.fix
    let new := if c < g then min g (c + c / 256) else max g (c - c / 256)
    let s1 := s.setClk (fun k => { k with cur := new })
    (if new == g then s1.put (F.pllStatusState 1) plLocked else s1).clampSync

/-- A write of PLLp_OUTk_DLY (R311): a delay that already moves is on its way until it arrives, whatever is written. -/
def State.dlyWrite (s : State) (p k : Nat) (v : Word) : State :=
  if outCount p ≤ k then s
  else
    let d := fieldOf v.toNat 0 20
    let w := s.dlySpan p k
    ((s.put (F.pllOutDlyDly p k) d).put (F.pllOutDlyMoving p k)
      (b2n (s.flag (F.pllOutDlyMoving p k) || ng s.clk.dly (outNo p k) 0 != d))).setClk
      (fun c => { c with swing := ns c.swing (outNo p k) (min w.1 d, max w.2 d) })

/-- The delay arrives at its target (R311). -/
def State.dlyArrive (s : State) (p k : Nat) : State :=
  if outCount p ≤ k || !s.flag (F.pllOutDlyMoving p k) then s
  else (s.put (F.pllOutDlyMoving p k) 0).setClk (fun c => { c with dly := ns c.dly (outNo p k) (s.get (F.pllOutDlyDly p k)) })

/-- What a read of the PLL block finds: EN, ACT and DIV of the outputs that hardware sets are not stored. -/
def State.viewPll (s : State) (a : Nat) : Word :=
  let p := (a - 0x08002000) / 0x100
  let o := a % 0x100
  if 2 ≤ p then s.view a
  else if decide (0x40 ≤ o) && o % 8 == 0 && decide ((o - 0x40) / 8 < outCount p) then
    let k := (o - 0x40) / 8
    let v := (s.rd a).toNat
    if isMclk p k then s.rd a
    else
      let en := s.outEn p k
      let v1 := putField (putField v 31 1 (b2n en)) 30 1 (b2n (en && s.pllLocked p))
      BitVec.ofNat 32 (putField v1 0 16 (s.outDiv p k))
  else s.view a

/-! ## Meanings -/

/-- PLL_DIVIDER_WRITE is a write of PLLp_OUTk_CFG. -/
def execPllDividerWrite (m : Master) (p : Fin 2) (k : Fin 14) (v : Word) (s : State) : Out :=
  .next (s.guard (host0Boot m) (fun t => t.outCfgWrite p k v))
def execPllMultiplierWrite (m : Master) (v : Word) (s : State) : Out := .next (s.guard (host0Boot m) (fun t => t.multWrite v))
def execRetuneStep (s : State) : Out := .next s.retuneStep
def execPllApply (m : Master) (s : State) : Out := .next (s.guard (host0Boot m) (fun t => t.pllApply))
def execMclkDividerBoundary (s : State) : Out := .next s.mclkBoundary
def execMclkRestart (s : State) : Out := .next s.mclkRestart
def execOutputDelayWrite (m : Master) (p : Fin 2) (k : Fin 14) (v : Word) (s : State) : Out :=
  .next (s.guard (host0Boot m) (fun t => t.dlyWrite p k v))
def execOutputDelayArrival (p : Fin 2) (k : Fin 14) (s : State) : Out := .next (s.dlyArrive p k)
def execMclkEnable (m : Master) (k : Fin 4) (on : Bool) (s : State) : Out :=
  .next (s.guard (host0Boot m) (fun t => t.mclkEnable (k + 1) on))
def execMclkOutputStart (k : Fin 4) (s : State) : Out := .next (s.mclkStart (k + 1))
def execOchreWindowEnd (offs : List Int) (s : State) : Out := .next ((s.ocWindow offs).clampSync).settle
def execReferenceLos (r : Fin 9) (s : State) : Out := .next ((s.ocLos r).clampSync).settle
def execReferenceEdgeReturn (r : Fin 9) (s : State) : Out := .next (s.refEdge r)
def execOchreSecond (s : State) : Out := .next (if s.ocSt == ocHalt then s else s.ocSecond)
def execSlewEnd (s : State) : Out := .next s.slewEnd.clampSync
def execPhaseStep (m : Master) (v : Word) (s : State) : Out :=
  .next (s.guard (host0Boot m) (fun t => (t.phaseStep v).clampSync))

end Sys2Proof.Machine
end

