-- ==== Sys2Proof/Machine/Epoch.lean ====
section
/-! DEFINITION. Epochs: causes, the drain, the clear, HALT, and the first tick of an epoch (R33 to R42, R176, R124, R317). -/

namespace Sys2Proof.Machine

/-- The epoch machine changed. -/
def State.setSys (s : State) (g : Sys → Sys) : State := { s with sys := g s.sys }

/-- What DOM_ACT names differs in family from what the APLL is loaded with: it loads the new nominal and gates, and seeks the
new target, as does an APLL that has lost its lock before (R304, R309, R313). -/
def State.famLoad (s : State) (old : Word) : State :=
  let f := famOf (cfgFsa s.domAct)
  if famOf (cfgFsa old) == f then s
  else
    let s1 := s.pllLoad f
    (if s.pllLocked 1 || s.pllSeeks 1 then s1.pllRestart 1 else s1).setSys (fun y => { y with engClk := false })

/-- DOM_CTRL.APPLY, with the APLL's target: in boot steps 9 and 10 the APLL locks to the family of DOM_ACT (R424). -/
def State.applyNow (s : State) : State :=
  let s1 := s.applyReq
  let f := famOf (cfgFsa s1.domAct)
  if (s.st == stBoot || s.st == stSafe) && (s.boot.step == 9 || s.boot.step == 10) && famOf (cfgFsa s.domAct) != f then
    let s2 := (s1.pllLoad f).setSys (fun y => { y with engClk := false })
    if s.get (F.pllStatusState 1) == plOff || s.get (F.pllStatusState 1) == plGated then s2 else s2.pllRestart 1
  else s1

/-- Engine `e` stops before slot 0 of the next tick (R35, R51). -/
def State.stopEngine (s : State) (e : Nat) : State :=
  if s.teState e == teStopPending then s.stopNow e
  else s.setEng e (fun g => { g with active := false, emits := [], startNb := 0 })

/-- No epoch cause waits any more. -/
def State.causesDone (s : State) : State :=
  s.setSys (fun y => { y with dueFam := false, dueRate := false, dueReload := false, dueHost := false, late := 0 })

/-- The actions of R35 and R40: the data plane stops, what is under way ends or waits for the next epoch, and DOM_ACT takes
a pending configuration. -/
def State.stopData (s : State) (st cause : Nat) : State :=
  let old := s.domAct
  let s1 := (List.range 8).foldl (fun (t : State) e => t.stopEngine e) s.migDrain.portsStop
  let s2 := (List.range 16).foldl (fun (t : State) b => t.brDrain b) s1
  let s3 := s2.vatDrain.useSync
  let s4 : State := { s3 with
    md := { s3.md with frzEpoch := s3.md.frzEpoch || s3.md.frz.isSome }
    dom := { s3.dom with oldAct := old }
    mig := { s3.mig with exitDue := 0 } }
  let s5 := s4.takeApply.causesDone
  ((s5.setSys (fun y => { y with cause := cause, clearing := st == stDrain, cleared := false })).put F.sysStateState st).famLoad old

/-- CAUSE of the drain that begins now: the first, in the order of R42, of those due at this boundary. -/
def State.dueCause (s : State) : Nat :=
  if s.sys.dueFam && !s.dueLater 0 then 2 else if s.sys.dueRate && !s.dueLater 1 then 5
  else if s.sys.dueReload && !s.dueLater 2 then 1 else 4

/-- A reload from flash follows the drain (R440): steps 6 to 10 run from the flash. -/
def State.reloadBoot (s : State) : State :=
  { s.put F.bootStatusStep 6 with boot := { s.boot with
    step := 6, ph := 1, back := 0, tries := 0, stage := 0, done := 0, noWarm := true, warm := false, verify := false, ended := false, sects := 0, pol := [],
    wsEn := false, wsTodo := false, wsGo := 0, wsRest := [], todo := [], memOld := 0 } }

/-- DRAIN_BEGIN: at the common boundary at which a cause is due (R34, R35, R42). -/
def State.drainBegin (s : State) : State :=
  if s.runs && s.atCommon && s.drainNow then
    let s0 := s.handoverVerify
    let s1 := s0.stopData stDrain s.dueCause
    if s.sys.dueReload then s1.reloadBoot else s1
  else s

/-- ENG_CLK is gated by a loss of the crystal or of APLL lock: HALT, with cause 0b011 (R38, R42, R313). -/
def State.haltEnter (s : State) : State :=
  let s1 := s.setSys (fun y => { y with engClk := false })
  if s1.st == stRun then
    let r := s1.sys.dueReload
    let s2 := s1.stopData stHalt 3
    if r then s2.reloadBoot else s2
  else if s1.st == stDrain then (s1.put F.sysStateState stHalt).setSys (fun y => { y with cause := 3, clearing := false, cleared := false })
  else s1

/-- DRAIN_CLEAR_DONE: the clear of R36 has run in every powered engine, bridge, decimator, Umber unit and node. -/
def State.drainCleared (s : State) : State :=
  if s.st == stDrain && s.sys.clearing && s.sys.engClk then
    let s1 := (List.range 8).foldl (fun (t : State) e => if t.tePowered e then t.clearEngine e else t) s
    s1.fabricZero.setSys (fun y => { y with clearing := false, cleared := true })
  else s

/-! ## The first tick of an epoch (R37, R40, R176) -/

/-- An engine that was RUNNING or was to start, and whose LEN no longer fits its domain, stays stopped with LEN_ERR (R176). -/
def State.epochRefuse (s : State) (e : Nat) : State :=
  let st := s.teState e
  if (st == teRunning || st == teStartPending) && !s.lenOk e then (s.stopNow e).put (F.teStatusLenErr e) 1 else s

/-- An engine that was RUNNING starts at slot 0, and a pending one where R50 lets it (R37). -/
def State.epochEngine (s : State) (e : Nat) : State :=
  if s.teState e == teRunning then s.beginRun e else if s.mayStart e then s.startNow e else s

/-- What the new configuration refuses is stopped or OFF, and the bridges that stay start (R176). -/
def State.epochItems (s : State) : State :=
  (List.range 16).foldl (fun (t : State) b => t.brEpoch b) ((List.range 8).foldl (fun (t : State) e => t.epochRefuse e) s)

/-- Live words that wait load at the first tick (R58, R60). -/
def State.epochLive (s : State) (e : Nat) : State :=
  if s.tePowered e then
    (s.setEng e (fun g => { g with
      lpend := Vector.ofFn (fun i => (g.lnext[i]).orElse (fun _ => g.lpend[i]))
      lnext := Vector.replicate 16 none
      hold := s.flag (F.teCtrlLiveHold e) })).liveLoad e
  else s

/-- The boot commit is requested when step 10 begins: the four tables and the engines whose cluster is ON then, SEQ 0, by the
boot sequencer (R124). -/
def State.bootCommit (s : State) : State :=
  s.acceptReq 4 0 (0xF00 + (List.range 8).foldl (fun (x : Nat) e => if s.pwr (tePd e) == 3 then x + 2 ^ e else x) 0)

/-- The boot commit has not met a cutoff: the first tick's cutoff takes it, so that it applies there (R124). -/
def State.bootCutoff (s : State) : State :=
  match s.md.acc with
  | some c => if c.reqs.any (fun p => p.1 == 4) then s.commitCutoff else s
  | none => s

/-- The end of boot (R401, R424, R393): STEP 0xF, PLOCK, and HP0 back in slave mode with its RESET reply. -/
def State.bootEnd (s : State) : State :=
  let s1 := (List.range 4).foldl (fun (t : State) h => t.put (F.hpStatusPlock h) 1) s.bootCutoff
  let hp0 := if s.flag (F.hpCfgMaster 0) then s.hp
    else ns s.hp 0 { Port.fresh with low := (ng s.hp 0 Port.fresh).low, ready := some (s.resetNow 0) }
  { s1.put F.bootStatusStep 15 with
    boot := { s1.boot with step := 11, noWarm := false, done := 1, ph := if s.boot.warm then 1 else 0, verify := s.boot.warm, cmp := 0, tries := 0, back := 0 }
    hp := hp0 }

/-- The epoch may start at this boundary (R37, R424, R449). -/
def State.mayEpoch (s : State) : Bool :=
  s.sys.engClk && s.pllLocked 1 &&
  ((s.st == stDrain && s.sys.cleared && (s.boot.step == 10 || s.boot.step == 11)) ||
   ((s.st == stBoot || s.st == stSafe) && s.boot.step == 10))

/-- The number of the next epoch (R33). -/
def nextEpoch (n : Nat) : Nat := if n == 0xFFFF then 1 else n + 1

/-- Time, number, cause and state at the first tick (R37). -/
def State.epochHead (s : State) : State :=
  let cause := if s.st == stDrain then s.sys.cause else 1
  let s1 := if s.boot.step == 10 then s.bootEnd else s
  let s2 := s1.setSys (fun y => { y with qt := 0, cyc := 0, wrote := [], late := 0, cleared := false, clearing := false, cause := cause })
  (((s2.put F.sysEpochEpoch (nextEpoch (s.get F.sysEpochEpoch))).put F.sysEpochCause cause).put F.sysStateState stRun)

/-- The glides of the ending epoch have reached their targets (R40), and its override writes govern. -/
def State.glidesEnd (s : State) : State := { s with md := { s.md with glides := [], ovr := [] } }

/-- The routes at the first tick: the tables active until now have their resolved states, with every transition ended and
every history empty; then the tables in force from this edge are checked, and a commit that applies here finds that check
and makes the transitions of R196 from those states. -/
def State.epochRoutes (s : State) : State :=
  let s1 : State := { s with rt := { s.rt with run := [] } }
  let s2 := s1.epochCheck (s1.check tabActive).1
  let r := s2.check s2.tabNow
  { r.2 with rt := { r.2.rt with next := if s2.commitDue.isSome then some r.1 else none } }

/-- Nothing waits any longer for a boundary of the epoch that has ended: what is enabled counts at the first tick (R171). -/
def State.nbClear (s : State) : State :=
  let s1 := (List.range 8).foldl (fun (t : State) k =>
    (((t.setEng k (fun g => { g with startNb := 0 })).setTg k { t.tg k with nb := 0 }).setGrp k (fun x => { x with nb := 0 })).setFclk k
      (fun x => { x with startNb := 0 })) s
  let s2 := (List.range 24).foldl (fun (t : State) k => t.setMic k (fun x => { x with nb := 0 })) s1
  { s2 with dom := { s2.dom with applyNb := 0, brNb := Vector.replicate 16 0 } }

/-- EPOCH_START (R37, R40, R41, R176); a slew that was held goes on (R329). -/
def State.epochStart (s : State) : State :=
  if !s.mayEpoch then s
  else
    let s1 := s.epochHead
    let cause := s1.sys.cause
    let s3 := (s1.nbClear.pdmTake).setOc (fun o => { o with held := false })
    let s4 := s3.epochItems.recomputeUse s3.tabNow
    let s6 := s4.fabricZero.glidesEnd.epochRoutes
    let s8 := ((s6.tgEpoch.portsEpoch cause).pdmEpoch cause).vatEpoch
    let s9 := (List.range 8).foldl (fun (t : State) e => (t.epochLive e).epochEngine e) s8
    ((s9.clampSync.setChime (fun c => { c with pd1 := false, xtal := false })).chimeSync).settle

/-- REEPOCH: host 0 alone; ignored while BOOT or SAFE, and absorbed by a drain or HALT (R34, R42). -/
def State.reepoch (s : State) : State :=
  if s.runs then s.setSys (fun y => { y with dueHost := true, late := s.lateDue 3 s.sys.dueHost }) else s

def execDomainApply (m : Master) (s : State) : Out := .next (s.guard (host0Boot m) (fun t => t.applyNow))
def execReepoch (m : Master) (s : State) : Out := .next (s.guard (host0Only m) (fun t => t.reepoch))
def execDrainBegin (s : State) : Out := .next s.drainBegin
def execDrainClearDone (s : State) : Out := .next s.drainCleared
def execEpochStart (s : State) : Out := .next s.epochStart

end Sys2Proof.Machine
end

