-- ==== Sys2Proof/Machine/Clk.lean ====
section
/-! DEFINITION. Lock, loss of lock, and the crystal (R304 to R306, R313 to R317, R338, R423, R424). -/

namespace Sys2Proof.Machine

/-- The boot sequencer changed. -/
def State.setBoot (s : State) (g : Boot → Boot) : State := { s with boot := g s.boot }

/-- The boot sequencer is at step `k` (BOOT_STATUS.STEP). -/
def State.bootStep (s : State) (k : Nat) : State := (s.setBoot (fun b => { b with step := k })).put F.bootStatusStep k

/-- Step 10 begins, and with it the boot commit is requested (R124). -/
def State.bootTen (s : State) : State := (s.bootStep 10).bootCommit

/-- Group `g` of shared memory is zero-filled, unless it stays in retention (R338). -/
def State.fillGroup (s : State) (ret : Bool) (g : Nat) : State :=
  let on := (s.get F.smemRetRet).testBit g
  if ret && on then s.setGrpState g 2
  else
    let s1 := s.memClear (g * 2 ^ 20) ((g + 1) * 2 ^ 20)
    ({ s1 with sm := { s1.sm with ue := s1.sm.ue.filter (fun u => u / 2 ^ 20 != g) } }).setGrpState g (if on then 1 else 0)

/-- The safe state holds: its exit has not begun (R449). -/
def State.safeHeld (s : State) : Bool := s.st == stSafe && s.boot.step == 11

/-- Step 5 ends: at the first time since PD1 came on, the zero-fill of shared memory and Vermilion, and the restore; step 6 reads a header, or takes up the read
that a crystal loss stopped (R338, R344, R456). -/
def State.bootFill (s : State) : State :=
  let s1 := if s.boot.filled then s else
    (((List.range 12).foldl (fun (t : State) g => t.fillGroup (s.boot.fromRet.testBit 1) g) s).memClear 0x03000000 0x03040000).vermRestore
  (s1.setBoot (fun b => { b with
    ph := if b.ph == 0 then max 1 b.back else b.ph
    back := 0
    filled := true
    fromRet := putField b.fromRet 1 1 0 })).bootStep 6

/-- SPLL lock: the domains leave the RC oscillator, and boot step 5 goes on (R305, R316, R317, R424). -/
def State.spllLock (s : State) : State :=
  if s.pllLocked 0 || !s.flag F.clkXtalXtalOk || !s.powered 1 then s
  else
    let s1 := (s.pllDeclare 0).put F.clkXtalSysclk 0
    let s2 := if s1.get (F.pllStatusState 1) == plGated && !s1.safeHeld then s1.pllSeek 1 else s1
    if s.boot.step == 5 then s2.bootFill else s2

/-- The APLL may lock: after the SPLL, from boot step 9 on, and not while the safe state gates it (R317, R424, R449). -/
def State.apllMay (s : State) : Bool :=
  !s.pllLocked 1 && s.pllLocked 0 && s.powered 1 &&
  (s.boot.step == 9 || s.boot.step == 10 || (s.boot.step == 11 && s.st != stSafe) || s.st == stHalt || s.st == stDrain)

/-- APLL lock: ENG_CLK runs, HALT gives way to the clear, Ochre starts if it halts, and boot step 9 ends
(R37, R38, R317, R424). -/
def State.apllLock (s : State) : State :=
  if !s.apllMay then s
  else
    let s1 := (s.pllDeclare 1).setSys (fun y => { y with engClk := true })
    let s2 := if s1.ocSt == ocHalt then s1.ocStart else s1
    let s3 := if s2.st == stHalt then (s2.put F.sysStateState stDrain).setSys (fun y => { y with clearing := true, cleared := false }) else s2
    if s.boot.step == 9 then s3.bootTen else s3

/-- APLL loss of lock (R313): LOL, a log entry, HALT, and a relock to the same target. -/
def State.apllLoss (s : State) : State :=
  if !s.pllLocked 1 then s
  else (((s.pllSeek 1).put (F.pllStatusLol 1) 1).flog 0x03 0#32 0#32).haltEnter

/-- SPLL loss of lock with the crystal good (R313): the domains move to the RC oscillator, and the APLL is gated with it. -/
def State.spllLoss (s : State) : State :=
  if !s.pllLocked 0 then s
  else
    let s1 := (((s.pllSeek 0).put (F.pllStatusLol 0) 1).put F.clkXtalSysclk 1).flog 0x04 0#32 0#32
    let s2 := if s1.get (F.pllStatusState 1) == plOff then s1 else s1.pllHold 1 plGated
    s2.haltEnter

/-- PLL `p` loses lock with the crystal: LOL is set, and it is gated (R305, R315). -/
def State.pllXtal (s : State) (p : Nat) : State :=
  let s1 := s.setIf (s.pllLocked p) (F.pllStatusLol p)
  if s1.get (F.pllStatusState p) == plOff then s1 else s1.pllHold p plGated

/-- The crystal is lost during step 6, of a boot, a reload or the exit from the safe state: the read stops, and the boot goes back to
step 5, to make it again from its start with no attempt counted (R456). -/
def State.bootXtal (s : State) : State :=
  if s.boot.step == 6 then
    (s.setBoot (fun b => { b with
      ph := 0, back := if b.ph == 0 then b.back else min 3 b.ph, todo := [], starts := [], mask := 0, memOld := 0 })).bootStep 5
  else s

/-- The crystal is declared lost (R314, R315, Table 11-3). -/
def State.xtalLoss (s : State) : State :=
  if !s.flag F.clkXtalXtalOk then s
  else
    let s1 := (((s.put F.clkXtalXtalLoss 1).put F.clkXtalXtalOk 0).flog 0x02 0#32 0#32).cntInc 2
    let s2 := (((s1.pllXtal 0).pllXtal 1).put F.clkXtalSysclk 1).haltEnter
    ((s2.ocHaltNow.bootXtal).setChime (fun c => { c with xtal := true })).chimeSync

/-- Step 3 of the boot: life cycle, persistent counter 0, and the log entry of a power-on reset (Table 15-1, R454). -/
def State.otpRead (s : State) : State :=
  if s.boot.otpDone then s
  else ((((s.put F.sysStateLc s.sm.otp).cntInc 0).flog 0x01 0#32 0#32).setBoot (fun b => { b with otpDone := true }))

/-- The crystal is not good 10 ms after step 2: it is declared lost (R423). -/
def State.xtalStart (s : State) : State :=
  if s.flag F.clkXtalXtalOk || s.flag F.clkXtalXtalLoss || s.st != stBoot || s.boot.step == 0 then s
  else (((s.otpRead.put F.clkXtalXtalLoss 1).flog 0x02 0#32 0#32).setChime (fun c => { c with xtal := true })).chimeSync

/-- The crystal is declared good: the SPLL seeks its target once PD1 is on (R317, R423). -/
def State.xtalGood (s : State) : State :=
  if s.flag F.clkXtalXtalOk then s
  else
    let s1 := s.put F.clkXtalXtalOk 1
    if s1.powered 1 && decide (5 ≤ s1.boot.step) then s1.pllSeek 0 else s1

def execPllLock (p : Fin 2) (s : State) : Out := .next (if p == 0 then s.spllLock else s.apllLock)
def execPllLossOfLock (p : Fin 2) (s : State) : Out := .next (if p == 0 then s.spllLoss else s.apllLoss)
def execCrystalLoss (s : State) : Out := .next s.xtalLoss
def execCrystalGood (s : State) : Out := .next s.xtalGood
def execCrystalStartTimeout (s : State) : Out := .next s.xtalStart

end Sys2Proof.Machine
end

