-- ==== Sys2Proof/Machine/Power.lean ====
section
/-! DEFINITION. Power domains and their handshake, sleep, PD1 faults, the thermal policy, supply and reset, and life-cycle
transitions (R43, R123, R443 to R449, R455, R464 to R467). -/

namespace Sys2Proof.Machine

/-- PWR_STAT.STATEd set. Codes of Table 15-15: 0 OFF, 1 RET, 2 UP, 3 ON, 4 DOWN, 5 PARKED. -/
def State.setPwr (s : State) (d v : Nat) : State := s.put (F.pwrStatState d) v

/-- The state that PWR_REQ asks of domain `d`: ON, retention (PD2 and PD3 alone), or OFF (R443). -/
def State.want (s : State) (d : Nat) : Nat :=
  let q := (s.rd R.pwrReq).toNat
  if q.testBit d then 3 else if (d == 2 || d == 3) && q.testBit (8 + d) then 1 else 0

/-- Thermal policy has parked Indigo domain `d` (R448). -/
def State.parked (s : State) (d : Nat) : Bool := decide (4 ≤ d) && (s.get F.thermStatusParked).testBit (d - 4)

/-- A commit that waits, is frozen or reconciles names engine `e` (R123). -/
def State.mordNames (s : State) (e : Nat) : Bool :=
  let names := fun (c : Option Commit) => match c with
    | some x => x.mask.testBit e
    | none => false
  names s.md.acc || names s.md.frz || s.reconMask.testBit e

/-- The engines of tick cluster `d`. -/
def enginesOf (d : Nat) : List Nat := (List.range 4).map (fun i => 4 * (d - 2) + i)

/-- The cores of Indigo cluster `d`. -/
def coresOf (d : Nat) : List Nat := (List.range 4).map (fun i => 4 * (d - 4) + i)

/-- Domain `d` goes down for sleep. -/
def State.sleeping (s : State) : Bool := s.pwr 1 == 4

/-- The handshake releases domain `d` (R43, R123, R444), in sleep as otherwise. -/
def State.released (s : State) (d : Nat) : Bool :=
  if d < 4 then
    (enginesOf d).all (fun e => s.teState e == teStopped && !s.migNames e && !s.mordNames e)
  else !s.vat.run.any (fun p => p.1 / 4 == d - 4)

/-- The state that a domain which goes down takes (R443, R446, R448). -/
def State.downTo (s : State) (d : Nat) : Nat :=
  if s.sleeping then (if d < 4 && s.boot.slp == 1 then 1 else 0)
  else if s.parked d then 5
  else if s.want d == 1 then 1 else 0

/-- A domain begins to power down; HELD shows that it waits on the handshake (R444). -/
def State.goDown (s : State) (d : Nat) : State := (s.setPwr d 4).setIf (!s.released d) F.pwrEvtHeld

/-- A domain begins to power up; the cores of its cluster read CLEAR meanwhile (R242). -/
def State.goUp (s : State) (d : Nat) : State :=
  let s1 := (s.setBoot (fun b => { b with fromRet := putField b.fromRet d 1 (b2n (s.pwr d == 1)) })).setPwr d 2
  if d < 4 then s1 else (coresOf d).foldl (fun (t : State) c => t.put (F.igStatusState c) 5) s1

/-- A request or the end of a transition meets domain `d` of PD2 to PD7 (R443, R444, R448). ON cancels a power-down only while
the handshake holds it: once released, the power-down has begun, and the domain comes up again after it. -/
def State.powerEval (s : State) (d : Nat) : State :=
  if s.pwr 1 != 3 || s.safeHeld then s
  else
    let w := s.want d
    match s.pwr d with
    | 3 => if w != 3 || s.parked d then s.goDown d else s
    | 4 => if w == 3 && !s.parked d && !s.released d then s.setPwr d 3 else s
    | 5 => if s.parked d then s else if w == 3 then s.goUp d else s.setPwr d 0
    | 2 => s
    | _ => if w == 3 && !s.parked d then s.goUp d else s

/-- Every requestable domain meets its request. -/
def State.powerAll (s : State) : State := (List.range 6).foldl (fun (t : State) i => t.powerEval (i + 2)) s

/-- A write of PWR_REQ (R443). -/
def State.pwrReqWrite (s : State) (v : Word) : State := (s.wr R.pwrReq (v &&& 0xCFC#32)).powerAll

/-! ## Up and down (R55, R242, Table 15-9) -/

/-- An engine of a cluster that powers up: state, buffers and delay store are clear; from off its registers take their reset
values (R55). -/
def State.teUp (s : State) (ret : Bool) (e : Nat) : State :=
  let s1 := if ret then s.put (F.teStatusClrBusy e) 0 else s.regClear (0x08010000 + 0x1000 * e) (0x08011000 + 0x1000 * e)
  (s1.memClear (dlyBase e) (dlyBase e + 0x100000)).setEng e (fun _ => { Engine.zero with hold := s1.flag (F.teCtrlLiveHold e) })

/-- A core of a cluster that powers up: its local memory is zero, its cache empty, and it is IDLE (R242). Its registers keep
their values (R12), those of IGn_EXP, IGn_PC and IGn_CYC too. -/
def State.igUp (s : State) (c : Nat) : State :=
  ((s.memClear (lmBase c) (lmBase c + 0x40000)).setCore c (fun k =>
    { Core.zero with exp := k.exp, bexp := k.bexp, pc := k.pc, cyc := k.cyc })).put (F.igStatusState c) 1

/-- Program and coefficient memory of an engine whose cluster is off read zero (R55). -/
def State.teOff (s : State) (e : Nat) : State :=
  (s.memClear (pmBase e) (pmBase e + 0x20000)).memClear (cfBase e) (cfBase e + 0x10000)

/-- A core whose cluster goes off: STATE reads OFF, and an item still running there is lost with it. -/
def State.igOff (s : State) (c : Nat) : State :=
  ((s.put (F.igStatusState c) 0).put (F.igDbgHalted c) 0).setVat (fun v => { v with run := spDel c v.run })

/-- Domain `d` of PD2 to PD7 takes state `v`, OFF, RET or PARKED. -/
def State.cut (s : State) (d v : Nat) : State :=
  let s1 := s.setPwr d v
  if d < 4 then (if v == 1 then s1 else (enginesOf d).foldl (fun (t : State) e => t.teOff e) s1)
  else (coresOf d).foldl (fun (t : State) c => t.igOff c) s1

/-- The PLLs are off, and Ochre halts with them. -/
def State.pllsOff (s : State) : State :=
  (((s.pllHold 0 plOff).pllHold 1 plOff).ocHaltNow).setSys (fun y => { y with engClk := false })

/-- POWER_DOMAIN_DOWN of PD2 to PD7. -/
def State.domainDown (s : State) (d : Nat) : State :=
  if s.pwr d == 4 && s.released d then (s.cut d (s.downTo d)).powerEval d
  else if s.pwr d == 1 && (s.sleeping || s.pwr 1 == 3) && s.downTo d == 0 then s.cut d 0
  else s

/-- PD1 goes down when every other domain has, with AON_ONLY from retention too (R446): the part sleeps. -/
def State.pd1Down (s : State) : State :=
  if s.sleeping && (List.range 6).all (fun i => s.pwr (i + 2) == 0 || (s.pwr (i + 2) == 1 && s.boot.slp == 1)) then
    let ret := s.boot.slp == 1
    ((s.pllsOff.setPwr 1 (b2n ret)).setBoot (fun b => { b with asleep := true, fromRet := putField b.fromRet 1 1 (b2n ret) }))
  else s

/-- The run of the boot sequencer starts afresh at step `k`, reading `ph`. -/
def State.bootFresh (s : State) (k ph : Nat) : State :=
  (s.setBoot (fun b => { b with
    ph := ph, back := 0, tries := 0, stage := 0, done := 0, wait := false, ended := false, hdr := [], tags := []
    sects := 0, warm := false, noWarm := false, verify := false, cmp := 0, wsTodo := false, wsEn := false, wsGo := 0, wsRest := []
    pol := [], mask := 0, starts := [], todo := [], memOld := 0 })).bootStep k

/-- Step 9: the APLL locks to the family of DOM_ACT, if it is not locked (R424). -/
def State.stepNine (s : State) : State :=
  if s.pllLocked 1 then s.bootTen else ((s.pllLoad (famOf (cfgFsa s.domAct))).pllRestart 1).bootStep 9

/-- A domain that PDMASK names, and that is still asked for, is not UP (R424 step 8). -/
def State.pdWaits (s : State) : Bool :=
  (List.range 6).any (fun i => ((s.boot.hdr[0x1E]?).getD 0#8).getLsbD (i + 2) && s.want (i + 2) == 3 && !s.parked (i + 2) &&
    s.pwr (i + 2) != 3)

/-- Step 8, once the stage is applied: the domains that PDMASK names come up, and step 9 follows (Table 15-1). -/
def State.stepEight (s : State) : State := if s.pdWaits then s.bootStep 8 else s.stepNine

/-- PD1 is on (step 4): BOOT_STATUS and the band memories are clear, the host ports have their RESET replies, and step 5 waits
for the crystal (R304, R389, R424); a domain that PWR_REQ still asks for comes up (R443). -/
def State.pd1Up (s : State) : State :=
  if (s.pwr 1 == 2 || s.pwr 1 == 3) && decide (2 ≤ s.boot.step) && decide (s.boot.step ≤ 4) then
    let s1 := (((((s.otpRead.setPwr 1 3).wr R.bootStatus 0#32).put F.sysStateState stBoot).put F.sysStateStage 0).put
      F.sysStateWarm 0)
    let s2 := (List.range 16).foldl (fun (t : State) k => t.wr (R.pllBand (k / 8) (k % 8)) 0#32) s1
    let s3 := { s2 with hp := Vector.ofFn (fun (h : Fin 4) => { Port.fresh with low := (ng s2.hp h Port.fresh).low, ready := some (s2.resetNow h) }) }
    let s4 := ((s3.setClk (fun c => { c with lru := Vector.replicate 2 [] })).bootFresh 5 0).setBoot (fun b => { b with filled := false })
    (if s4.flag F.clkXtalXtalOk then s4.pllSeek 0 else s4).powerAll
  else s

/-- POWER_DOMAIN_UP (R55, R242, R443). -/
def State.domainUp (s : State) (d : Nat) : State :=
  if d == 1 then s.pd1Up
  else if d == 0 || s.pwr d != 2 then s
  else
    let s1 := if d < 4 then (enginesOf d).foldl (fun (t : State) e => t.teUp (s.boot.fromRet.testBit d) e) s
      else (coresOf d).foldl (fun (t : State) c => t.igUp c) s
    let s2 := (s1.setBoot (fun b => { b with fromRet := putField b.fromRet d 1 0 })).setPwr d 3
    if s.sleeping then s2.goDown d else s2.powerEval d

/-! ## Sleep (R446) -/

/-- A write of PWR_CTRL. -/
def State.pwrCtrlWrite (s : State) (v : Word) : State :=
  let s1 := s.put F.pwrCtrlCanWake (fieldOf v.toNat 16 1)
  let m := fieldOf v.toNat 0 2
  if m == 1 || m == 2 then
    (s1.setBoot (fun b => { b with slp := m })).setSys (fun y => { y with late := s1.lateDue 4 (s1.boot.slp != 0) })
  else s1

/-- SLEEP_ENTRY: the actions of R35 without a new epoch, and every domain goes down. -/
def State.sleepEntry (s : State) : State :=
  if s.runs && s.atCommon && s.boot.slp != 0 && s.stagesOver then
    let s1 := (s.stopData stDrain 0).setSys (fun y => { y with clearing := false })
    let s2 := (List.range 8).foldl (fun (t : State) e => t.stopNow e) s1
    let s3 := (s2.setBoot (fun b => { b with step := 4 })).setPwr 1 4
    (List.range 6).foldl (fun (t : State) i => if t.pwr (i + 2) == 3 || t.pwr (i + 2) == 4 then t.goDown (i + 2)
      else if t.pwr (i + 2) == 5 then t.setPwr (i + 2) 0 else t) s3
  else s

/-! ## PD1 faults (R445) -/

/-- PD2 to PD7 switch off at once. -/
def State.cutAll (s : State) : State :=
  let s1 := (List.range 8).foldl (fun (t : State) e => t.stopNow e) s
  (List.range 6).foldl (fun (t : State) i => t.cut (i + 2) 0) s1

/-- PD1_FAULT: by a power-up timeout, or by the supply. -/
def State.pd1Fault (s : State) (timeout : Bool) : State :=
  let step := decide (2 ≤ s.boot.step) && decide (s.boot.step ≤ 4) && (s.pwr 1 == 2 || s.pwr 1 == 3)
  let on := s.pwr 1 == 4 || (s.pwr 1 == 3 && decide (5 ≤ s.boot.step))
  if s.sm.brown || !(if timeout then step else on) then s
  else
    let s1 := ((((s.otpRead.stopData stBoot 0).cutAll.setPwr 1 0).pllsOff.put F.pwrEvtPd1Fault 1).flog 0x05 (BitVec.ofNat 32 (b2n timeout)) 0#32)
    let s2 := s1.setBoot (fun b => { b with step := 4, ph := 0, back := 0, wait := false, verify := false, slp := 0, fault := true, fromRet := 0, todo := [], memOld := 0 })
    (s2.setChime (fun c => { c with pd1 := true })).chimeSync.settle

/-- 100 ms later the boot runs again from step 4. -/
def State.pd1Retry (s : State) : State :=
  if s.boot.fault then (s.setBoot (fun b => { b with fault := false })).setPwr 1 2 else s

/-! ## Thermal policy (R447 to R449) -/

/-- WARN or CRIT in units of 0.125 °C, clamped to 60 to 130 °C. -/
def thermLimit (v : Nat) : Int := ((8 * max 60 (min 130 v) : Nat) : Int)
def State.thermWarn (s : State) : Int := thermLimit (s.get F.thermCfgWarn)
def State.thermCrit (s : State) : Int := thermLimit (s.get F.thermCfgCrit)
def State.thermHyst (s : State) : Int := ((8 * max 1 (s.get F.thermCfgHyst) : Nat) : Int)

/-- Evaluations in a parking interval: PARK_INT × 100. -/
def State.parkTime (s : State) : Nat := 100 * max 1 (s.get F.thermCfgParkInt)

/-- The sensor that reads T_max, the lowest of equals. -/
def State.hotSensor (s : State) : Nat :=
  ((List.range 4).find? (fun k => decide (s.getS (F.thermTempTemp k) = s.tMax))).getD 0

/-- The next cluster in park order that is neither parked nor held OFF by PWR_REQ. -/
def State.toPark (s : State) : Option Nat :=
  ((List.range 4).map (fun k => s.get (F.thermCfgPark k))).find? (fun c => !s.parked (4 + c) && s.want (4 + c) == 3)

/-- The snapshot trigger fires with the thermal source; it needs FAB_CLK, which PD1 carries (R450, R451). -/
def State.fireTherm (s : State) : State := if s.powered 1 then s.fire 6 else s

/-- One more cluster is parked (R448). -/
def State.parkNext (s : State) : State :=
  match s.toPark with
  | none => s
  | some c =>
    let s1 := (s.put F.thermStatusParked (putField (s.get F.thermStatusParked) c 1 1)).put F.thermStatusCritEvt 1
    let s2 := (s1.flog 0x07 (BitVec.ofNat 32 c) (wrap32 s.tMax)).fireTherm
    (s2.setBoot (fun b => { b with parked := c :: b.parked })).powerEval (4 + c)

/-- The most recently parked cluster returns to its PWR_REQ state. -/
def State.unpark (s : State) : State :=
  match s.boot.parked with
  | [] => s
  | c :: l =>
    ((s.put F.thermStatusParked (putField (s.get F.thermStatusParked) c 1 0)).setBoot (fun b => { b with parked := l })).powerEval
      (4 + c)

/-- The safe state (R449). A boot before step 5 stops with PD1 on its way up (Table 15-14). -/
def State.enterSafe (s : State) : State :=
  let s1 := (((s.stopData stSafe 0).cutAll.pllHold 1 plGated).setSys (fun y => { y with engClk := false })).put F.thermStatusSafeEvt 1
  let s2 := ((s1.cntInc 4).flog 0x08 (BitVec.ofNat 32 s.hotSensor) (wrap32 s.tMax)).fire 6
  let s3 := if s2.pd1On then s2 else s2.setPwr 1 2
  (s3.setBoot (fun b => { b with
    step := 11, ph := 0, back := 0, wait := false, verify := false, slp := 0, cold := 0, todo := [], memOld := 0 })).chimeSync

/-- The sensor readings of an evaluation. -/
def State.thermRead (s : State) (t0 t1 t2 t3 : Int) : State :=
  let p := fun (u : State) (k : Nat) (x : Int) => u.put (F.thermTempTemp k) (tc 16 x)
  (p (p (p (p s 0 t0) 1 t1) 2 t2) 3 t3).setSys (fun y => { y with ms := y.ms + 1 })

/-- The warning (R447). -/
def State.thermWarning (s : State) : State :=
  let t := s.tMax
  if decide (s.thermWarn ≤ t) then
    if s.boot.warned then s
    else ((s.put F.thermStatusWarnEvt 1).fireTherm.flog 0x06 (BitVec.ofNat 32 s.hotSensor) (wrap32 t)).setBoot (fun b => { b with warned := true })
  else if decide (t < s.thermWarn - s.thermHyst) then s.setBoot (fun b => { b with warned := false })
  else s

/-- THERMAL_EVALUATION: warning, parking at the onset of CRIT, and the safe state (R447 to R449). -/
def State.thermEval (s : State) (t0 t1 t2 t3 : Int) : State :=
  let s1 := s.thermRead t0 t1 t2 t3
  let t := s1.tMax
  let crit := decide (s1.thermCrit ≤ t)
  let onset := crit && !s.flag F.thermStatusCritAct
  let s2 := (s1.put F.thermStatusWarnAct (b2n (decide (s1.thermWarn ≤ t)))).put F.thermStatusCritAct (b2n crit)
  let s3 := if onset then s2.thermWarning.parkNext else s2.thermWarning
  let hot := decide (1080 ≤ t)
  let s4 := s3.setBoot (fun b => { b with
    cool := if decide (t < s1.thermCrit - s1.thermHyst) then b.cool + 1 else 0
    cold := if decide (t < 920) then b.cold + 1 else 0
    hot := hot })
  let enter := hot && s.boot.hot && !s4.safeHeld && decide (2 ≤ s4.boot.step) && (s4.pwr 1 == 3 || s4.pwr 1 == 2)
  (if enter then s4.enterSafe else s4).settle

/-- PARK_INTERVAL: one more cluster is parked while T_max ≥ CRIT, one returns after PARK_INT × 100 ms below CRIT − HYST. -/
def State.parkTick (s : State) : State :=
  if s.flag F.thermStatusCritAct then s.parkNext.settle
  else if decide (s.parkTime ≤ s.boot.cool) then s.unpark
  else s

/-- SAFE_STATE_EXIT: 10 s below 115 °C; the boot runs steps 6 to 10, after those of steps 4 and 5 that had not ended (R449). -/
def State.safeExit (s : State) : State :=
  if s.safeHeld && decide (10000 ≤ s.boot.cold) then
    let s1 := s.ocHaltNow
    if s.pwr 1 != 3 then s1.bootFresh 4 0
    else if !s.boot.filled || !s.pllLocked 0 then
      let s2 := s1.bootFresh 5 0
      if s2.pllLocked 0 then s2.bootFill.powerAll else s2
    else (s1.bootFresh 6 1).powerAll
  else s

/-! ## Supply and reset (R354, R464, R467) -/

/-- Power-on reset: all state but what MRAM and the OTP hold. Commands that wait stay in their queue, and the model's count of
free values goes on. -/
def State.porBase (s : State) : State :=
  let r := State.reset
  { r with
    pending := s.pending
    free := s.free
    mem := s.mem.filter (fun e => isMram e.1)
    sm := { r.sm with
      ue := s.sm.ue.filter isMram
      page := s.sm.page
      pageCrc := s.sm.pageCrc
      pageSt := s.sm.pageSt
      pageUe := s.sm.pageUe
      otp := s.sm.otp } }

/-- Reset is held: the word write in progress ends, queued ones are lost, and PD1 to PD7 are off (R354, R464). -/
def State.holdReset (s : State) (vin pin : Bool) : State :=
  let s1 := s.mramDone.porBase
  let s2 := { s1 with boot := { Boot.zero with vin := vin, pin := pin }, sm := { s1.sm with brown := !vin } }
  s2.setPwr 1 0

/-- Address of log slot `i`. -/
def logSlot (i : Nat) : Nat := 0x07077000 + 32 * i

/-- SEQ of the valid log entry in slot `i`, plus 1; 0 when it is not valid, or cannot be read (R357, R453). -/
def State.logNext (s : State) (i : Nat) : Nat :=
  if !s.sm.ue.contains (logSlot i) && (s.rw (logSlot i)).toNat / 2 ^ 24 == 0xFA then (s.rw (logSlot i + 4)).toNat + 1 else 0

/-- The log goes on after the valid entry with the highest SEQ (R453); the words that cannot be read are reported (R357). -/
def State.logScan (s : State) : State :=
  let s1 := s.put F.flogSeqSeq ((List.range 1024).foldl (fun (m : Nat) i => max m (s.logNext i)) 0)
  ((List.range 1024).filter (fun i => s.sm.ue.contains (logSlot i))).foldl
    (fun (t : State) i => { t.ueSeen (logSlot i) with resp := s.resp }) s1

/-- POWER_ON_RESET: the hold ends, and step 2 begins (R424, R467). -/
def State.powerOn (s : State) : State :=
  if s.boot.step == 0 && s.boot.vin && !s.boot.pin then s.porBase.logScan else s

/-! ## Life cycle (R351, R455) -/

/-- A write of OTP_LC_REQ by host 0. -/
def State.lcRequest (s : State) (v : Word) : State :=
  let t := fieldOf v.toNat 0 2
  if fieldOf v.toNat 16 16 == 0x4C43 && decide (s.lc < t) && (s.verm == accOpen || s.verm == accUnlocked) &&
      !s.flag F.otpStatusBusy && !s.sm.brown then
    let s1 := (s.put F.otpStatusBusy 1).wipeStart 4
    { s1 with sm := { s1.sm with lcPhase := 1, lcTgt := t } }
  else s.put F.otpStatusReqErr 1

/-- A write of OTP_LC_REQ: one that does not come from host 0 is ignored and sets REQ_ERR (R455), a host's is DENIED (R457). -/
def State.lcWrite (s : State) (m : Master) (v : Word) : State :=
  match host0Only m with
  | some true => s.ok.lcRequest v
  | some false => (s.put F.otpStatusReqErr 1).denied
  | none => (s.put F.otpStatusReqErr 1).ok

/-- The OTP holds the new state (R351, R455). -/
def State.otpDone (s : State) : State :=
  if s.sm.lcPhase == 2 then
    let s1 := ((s.put F.otpStatusBusy 0).put F.otpStatusDone 1).put F.otpStatusPendLc s.sm.lcTgt
    { s1 with sm := { s1.sm with lcPhase := 3, otp := s.sm.lcTgt } }
  else s

/-! ## Meanings -/

def execPowerRequest (m : Master) (v : Word) (s : State) : Out := .next (s.guard (host0Boot m) (fun t => t.pwrReqWrite v))
def execPd1Fault (timeout : Bool) (s : State) : Out := .next (s.pd1Fault timeout)
def execPd1FaultRetry (s : State) : Out := .next s.pd1Retry
def execSleepRetain (m : Master) (s : State) : Out :=
  .next (s.guard (host0Boot m) (fun t => t.setBoot (fun b => { b with slp := 1 })))
def execSleepAonOnly (m : Master) (s : State) : Out :=
  .next (s.guard (host0Boot m) (fun t => t.setBoot (fun b => { b with slp := 2 })))
def execSleepEntry (s : State) : Out := .next s.sleepEntry
def execThermalEvaluation (t0 t1 t2 t3 : Int) (s : State) : Out := .next (s.thermEval t0 t1 t2 t3)
def execParkInterval (s : State) : Out := .next s.parkTick
def execSafeStateExit (s : State) : Out := .next s.safeExit
/-- VIN_VALID: VIN passes its valid threshold while reset holds (R467). -/
def execVinValid (s : State) : Out :=
  .next (if s.boot.step == 0 then { s.setBoot (fun b => { b with vin := true }) with sm := { s.sm with brown := false } } else s)
def execVinBrownOut (s : State) : Out := .next (s.holdReset false s.boot.pin)
def execResetPin (asserted : Bool) (s : State) : Out :=
  .next (if asserted then s.holdReset s.boot.vin true else s.setBoot (fun b => { b with pin := false }))
def execPowerOnReset (s : State) : Out := .next s.powerOn
def execLifeCycleRequest (m : Master) (v : Word) (s : State) : Out := .next (s.lcWrite m v)
def execOtpProgrammingDone (s : State) : Out := .next s.otpDone

end Sys2Proof.Machine
end

