-- ==== Sys2Proof/Machine/Tick.lean ====
section
/-! DEFINITION. TICK_BOUNDARY: one ENG_CLK edge at which ticks of one or more rate domains end and begin
(R45, R49, R56 to R63, R83 to R85, R146, R147, R161). -/

namespace Sys2Proof.Machine

/-- The domains that have a tick boundary at `q` quarter ticks, in use or not (R168). -/
def State.domsAt (s : State) (q : Nat) : List RDom := [RDom.a, .b, .c].filter (fun d => s.tickAt d q)

/-- The engines of the domains `ds`, powered. -/
def State.engsIn (s : State) (ds : List RDom) : List Nat :=
  (List.range 8).filter (fun e => s.tePowered e && (match s.engDom e with
    | some d => ds.contains d
    | none => false))

/-- What a run leaves for inspection (R56). -/
def State.inspect (s : State) (e : Nat) : State :=
  (s.put (F.teFlagsF e) (s.eng e).f.toNat).setEng e (fun g => { g with insD := g.d, insA := g.a })

/-- Output capture, accumulator and flag clear of an engine whose run has ended (R56). -/
def State.capture (s : State) (e : Nat) : State :=
  let k := s.scaleFrom e
  s.setEng e (fun g => { g with
    cap := g.out
    out := if k.testBit 8 then Vector.replicate 64 0#32 else g.out
    acc := Vector.replicate 4 0#72
    f := if k.testBit 9 then 0#4 else g.f })

/-! ## The twin compare (R147, R148) -/

/-- The tapped output words in which the members of pair `p` differ. -/
def State.tapDiff (s : State) (p : Nat) : List Nat :=
  (List.range 64).filter (fun w => (s.tapMask p).testBit w && ng (s.eng (2 * p)).cap w 0#32 != ng (s.eng (2 * p + 1)).cap w 0#32)

/-- The mismatch action of Table 05-1. -/
def State.twinAction (s : State) (p : Nat) : State :=
  let act := s.get (F.twinCtrlAction p)
  let exits := fun (t : State) => { t with mig := { t.mig with exits := putField t.mig.exits p 1 0, exitDue := putField t.mig.exitDue p 1 0 } }
  match act with
  | 0 => ((s.stopNow (2 * p + 1)).put (F.twinStatusState p) 2).put (F.twinStatusVoice p) 0
  | 1 => ((s.stopNow (2 * p)).put (F.twinStatusState p) 2).put (F.twinStatusVoice p) 1
  | _ =>
    let s1 := exits (((s.stopNow (2 * p)).stopNow (2 * p + 1)).put (F.twinStatusState p) 3)
    { s1 with mig := { s1.mig with chimeReq := putField s1.mig.chimeReq p 1 1, chimePat := ns s1.mig.chimePat p (s.get (F.twinCtrlPat p)) } }

/-- The compare of pair `p` at the end of a run with stamp `n` (R147). The recorded stamp and word are those of the first
mismatch since TWIN_MISMATCH was last clear. -/
def State.twinCompare (s : State) (p n : Nat) : State :=
  let d := s.tapDiff p
  match d with
  | [] => s
  | w :: _ =>
    let s1 := if s.flag (F.twinStatusTwinMismatch p) then s
      else ((s.put (F.twinMisStampStamp p) n).put (F.twinMisInfoWord p) w).put (F.twinMisInfoCount p) d.length
    let s2 := ((((s1.put (F.twinStatusTwinMismatch p) 1).fire 2).cntInc 3).flog 0x09 (BitVec.ofNat 32 p) (BitVec.ofNat 32 n))
    (s2.twinAction p).useSync

/-- Every pair in LOCKSTEP whose members have both ended a run is compared. -/
def State.twinCompares (s : State) (ran : List Nat) : State :=
  (List.range 4).foldl (fun (t : State) p =>
    if t.get (F.twinStatusState p) == 1 && ran.contains (2 * p) && ran.contains (2 * p + 1) then
      match t.engDom (2 * p) with
      | some d => t.twinCompare p (t.dtick d + 2 ^ 48 - 1)
      | none => t
    else t) s

/-! ## EMIT hand-off (R83 to R85, R146, R147, R161) -/

/-- The descriptors of engine `e`'s run leave for the Vat. -/
def State.emitsLeave (s : State) (e : Nat) : Bool :=
  let st := s.get (F.twinStatusState (e / 2))
  !((st == 1 && s.voiceOf (e / 2) != e) || st == 3 || (st == 2 && s.voiceOf (e / 2) != e) ||
    (s.get F.migStatusState == 4 && s.mig.x == e))

/-- The descriptor of template `m` of engine `e` with argument `arg`, as the template stands now. -/
def State.emitDsc (s : State) (e m : Nat) (arg : Word) : List Word :=
  (List.range 8).map (fun w => if w = 1 then arg else s.rd (R.teEmitTpl e m w))

/-- The hand-off of engine `e`: in slot order; a refusal counts and is not retried. -/
def State.emitHand (s : State) (e : Nat) : State :=
  let q := (s.eng e).emits
  let s1 := s.setEng e (fun g => { g with emits := [] })
  if s.emitsLeave e then
    q.foldl (fun (t : State) p =>
      let r := t.vatOffer (t.emitDsc e p.1 p.2) .engine none
      if r.1 == 0 then r.2 else r.2.bump (F.teEmitCntRefused e) 1) s1
  else s1

/-! ## Samples of the tick that ends -/

/-- Sources supply their samples, the fabric moves them, and captures and buffers take theirs (R61, R189, R266). Whatever
waits for its domain to come into use has no sample yet. -/
def State.samples (s : State) (ds : List RDom) : State :=
  let us := ds.filter (fun d => s.inUse d)
  let s1 := us.foldl (fun (t : State) d => ((t.playTick d).pdmTick d).asrcTick d) s
  us.foldl (fun (t : State) d => t.captureTick d) (s1.fabric ds)

/-- Input swap: the pending buffer becomes the input words of the next run (R56, R155). -/
def State.inputSwap (s : State) (e : Nat) : State :=
  s.setEng e (fun g => { g with inp := g.pend, pend := Vector.replicate 64 0#32 })

/-- Live-word loads of the engines `es`: those governed by another engine's LIVE_HOLD first (R60, R145, R153). -/
def State.liveLoads (s : State) (es : List Nat) : State :=
  (es.filter (fun e => s.holdOf e != e) ++ es.filter (fun e => s.holdOf e == e)).foldl (fun (t : State) e => t.liveLoad e) s

/-- The glide step of an engine, running or stopped, at a boundary of its domain (R56, R129); a commit that names it at this edge starts afresh instead (R130, R131). -/
def State.glideNext (s : State) (e : Nat) : State :=
  match s.commitDue with
  | some c => if c.mask.testBit e then s else s.glideStep e
  | none => s.glideStep e

/-- Exits from lockstep fall at the boundary of their pair's domain (R150). -/
def State.exitsNow (s : State) (es : List Nat) : State :=
  (List.range 4).foldl (fun (t : State) p =>
    if t.mig.exits.testBit p && es.contains (2 * p) then
      { t with mig := { t.mig with exits := putField t.mig.exits p 1 0, exitDue := putField t.mig.exitDue p 1 1 } }
    else t) s

/-- The next run of engine `e` begins, or its last has ended (R45, R51, R162). -/
def State.nextRun (s : State) (e : Nat) : State :=
  let st := s.teState e
  if st == teRunning || (st == teStopPending && s.get F.migStatusState == 4 && s.stopHeld e) then s.beginRun e
  else s.setEng e (fun g => { g with active := false })

/-- The runs of the engines in `ran` end, with their results delivered (R56, R147, R85). -/
def State.runsEnd (s : State) (ran : List Nat) : State :=
  let s1 := ran.foldl (fun (t : State) e => (t.inspect e).capture e) s
  ran.foldl (fun (t : State) e => t.emitHand e) (s1.twinCompares ran)

/-- A domain-A boundary: what was written to the PDM configuration comes into force (Table 01-2a). -/
def State.pdmEdge (s : State) : State := if s.atEdge then s.pdmTake else s

/-- A tick boundary that no drain begins at. -/
def State.tickOn (s : State) (ds : List RDom) (ran : List Nat) : State :=
  let es := s.engsIn ds
  let s1 := ((s.runsEnd ran).samples ds).pdmEdge
  let s2 := (es.foldl (fun (t : State) e => t.inputSwap e) s1).liveLoads es
  let s3 := es.foldl (fun (t : State) e => t.glideNext e) s2
  let s4 := ((ds.filter (fun d => s.inUse d)).foldl (fun (t : State) d => t.tgTick d) s3).exitsNow es
  (es.foldl (fun (t : State) e => t.nextRun e) s4).chimeSync

/-- A tick boundary at which a drain begins: the final run's capture and hand-off are discarded (R63). -/
def State.tickLast (s : State) (ran : List Nat) : State :=
  ran.foldl (fun (t : State) e => (t.inspect e).setEng e (fun g => { g with active := false, emits := [] })) s.pdmEdge

/-- TICK_BOUNDARY: the next edge of the domains. Slots that remain execute first (R45). -/
def State.tick (s : State) : State :=
  if !s.runs || !s.sys.engClk then s
  else
    let q := s.sys.qt + s.stepQ
    let ds := s.domsAt q
    let ran := (s.engsIn ds).filter (fun e => (s.eng e).active)
    let s1 := ran.foldl (fun (t : State) e => t.finishRun e) s
    let s2 := (s1.setSys (fun y => { y with qt := q, cyc := 0, wrote := [], late := 0 })).ovrTrim
    (if s2.endsHere then s2.tickLast ran else s2.tickOn ds ran).settle

def execTickBoundary (s : State) : Out := .next s.tick

end Sys2Proof.Machine
end

