-- ==== Sys2Proof/Machine/Bus.lean ====
section
/-! DEFINITION. The bus: what a write or a read of an address does, for every master (R8 to R18, R44, R330, R373, R395 to
R399, R403, R422, R457, and the writer rules of the chapters). -/

namespace Sys2Proof.Machine

/-- A write by the access codes alone: RW bits take the value, W1C bits clear, W1S bits set (Table 00-4, R10, R11). -/
def State.plainWrite (s : State) (a : Nat) (v : Word) : State :=
  match regDesc a with
  | none => s
  | some d =>
    let m := fun (x : Nat) => BitVec.ofNat 32 x
    s.wr a ((((s.rd a &&& ~~~(m d.rw)) ||| (v &&& m d.rw)) &&& ~~~(v &&& m d.w1c)) ||| (v &&& m d.w1s))

/-! ## Host-port registers (R396 to R399, R403) -/

/-- Host port `h`, and the port changed by `g`. -/
def State.hport (s : State) (h : Nat) : Port := ng s.hp h Port.fresh
def State.setHp (s : State) (h : Nat) (g : Port → Port) : State := { s with hp := ns s.hp h (g (s.hport h)) }

/-- Host `n` and host 0 write HPn_IRQ_EN (R403). -/
def irqWriter (n : Nat) (m : Master) : Option Bool :=
  match m with
  | .host h => some (h.val == 0 || h.val == n)
  | _ => none

/-- Host 0, the boot sequencer, Indigo cores and DMA write HPn_MCTRL and HPn_MTXw (R403). -/
def mtxWriter (m : Master) : Option Bool :=
  match m with
  | .host h => some (h.val == 0)
  | .boot => some true
  | .core _ => some true
  | .dma _ => some true
  | _ => none

/-- The boot sequencer alone writes the permission table; hosts get DENIED (R393). -/
def permWriter (m : Master) : Option Bool :=
  match m with
  | .host _ => some false
  | .boot => some true
  | _ => none

/-- A register of the port that is ignored while a master frame runs (R399). -/
def State.mWrite (s : State) (n : Nat) (f : State → State) : State :=
  if s.flag (F.hpStatusMbusy n) then s.put (F.hpStatusCfgIgn n) 1 else f s

/-- Port `n` changes its mode now: to master mode, where a ready reply is dropped, or to slave mode with its RESET reply
(R389, R398). -/
def State.modeSet (s : State) (n : Nat) (on : Bool) : State :=
  (s.put (F.hpCfgMaster n) (b2n on)).setHp n (fun p => { Port.fresh with low := p.low, ready := if on then none else some (s.resetNow n) })

/-- A write of HPn_CFG.MASTER: at once while SEL_N is high and no frame is in progress, else once that holds (R398). -/
def State.modeWrite (s : State) (n : Nat) (on : Bool) : State :=
  let p := s.hport n
  if s.flag (F.hpCfgMaster n) == on then s.setHp n (fun q => { q with mchg := none })
  else if p.low || p.req.isSome || p.built.isSome then s.setHp n (fun q => { q with mchg := some on })
  else s.modeSet n on

/-- A write of HPn_CFG. -/
def State.hpCfgWrite (s : State) (n : Nat) (v : Word) : State :=
  s.mWrite n (fun t => (t.wr (R.hpCfg n) ((v &&& 0x18FF0007#32) ||| (t.rd (R.hpCfg n) &&& 0x80000000#32))).modeWrite n (v.getLsbD 31))

/-- HPn_MCTRL.GO (R399). -/
def State.goWrite (s : State) (n : Nat) : State :=
  let len := s.get (F.hpLenLen n)
  if decide (len < 8) || decide (4096 < len) then s.put (F.hpStatusCfgErr n) 1
  else if !s.flag (F.hpCfgMaster n) || s.flag (F.hpStatusMbusy n) then s.put (F.hpStatusCfgIgn n) 1
  else (s.put (F.hpStatusMbusy n) 1).setHp n (fun p => { p with mrun := false, off := false })

/-- A write of HPn_HDBELL: host `n` clears the written bits, any other master sets them (R397). -/
def State.hdbellWrite (s : State) (m : Master) (n : Nat) (v : Word) : State :=
  let old := s.get (F.hpHdbellPend n)
  let x := fieldOf v.toNat 0 16
  if hostOf m == some n then s.put (F.hpHdbellPend n) (old - (old &&& x)) else s.put (F.hpHdbellPend n) (old ||| x)

/-- A write in the block of port `n`. -/
def State.hpWrite (s : State) (m : Master) (a : Nat) (v : Word) : State :=
  let n := (a - 0x080C0000) / 0x1000
  let o := a % 0x1000
  if o = 0 then s.guard (host0Boot m) (fun t => t.hpCfgWrite n v)
  else if o = 4 ∨ o = 8 then s.guard (host0Boot m) (fun t => t.mWrite n (fun u => u.plainWrite a v))
  else if o = 0x14 then s.guard (mtxWriter m) (fun t => if v.getLsbD 0 then t.goWrite n else t)
  else if o = 0x18 then s.guard (irqWriter n m) (fun t => t.plainWrite a v)
  else if o = 0x20 then s.ok.hdbellWrite m n v
  else if 0x200 ≤ o ∧ o < 0x400 then s.guard (mtxWriter m) (fun t => t.mWrite n (fun u => u.plainWrite a v))
  else if 0xC00 ≤ o ∧ n = 0 then
    s.guard (permWriter m) (fun t =>
      match o % 16 with
      | 0 => t.wr a (v &&& 0xFFFFFF00#32)
      | 4 => t.wr a (v &&& 0xFFFFFF00#32)
      | 8 => t.wr a (v &&& 0x80000FFF#32)
      | _ => t)
  else s.ok.plainWrite a v

/-! ## The other blocks -/

/-- SYS, power, PLL, Ochre and snapshot registers. -/
def State.sysWrite (s : State) (m : Master) (a : Nat) (v : Word) : State :=
  if a = R.sysCtrl then s.guard (host0Only m) (fun t => if v.getLsbD 0 then t.reepoch else t)
  else if a = R.pwrReq then s.guard (host0Boot m) (fun t => t.pwrReqWrite v)
  else if a = R.pwrCtrl then s.guard (host0Boot m) (fun t => t.pwrCtrlWrite v)
  else if 0x08002000 ≤ a ∧ a < 0x08002200 then
    let p := (a - 0x08002000) / 0x100
    let o := a % 0x100
    s.guard (host0Boot m) (fun t =>
      if o = 0 then t.pllCtrlWrite p v
      else if o = 4 ∧ p = 1 then t.multWrite v
      else if o = 8 ∧ p = 1 then t.mdenWrite v
      else if 0x40 ≤ o ∧ o % 8 = 0 then t.outCfgWrite p ((o - 0x40) / 8) v
      else if 0x40 ≤ o ∧ o % 8 = 4 then t.dlyWrite p ((o - 0x44) / 8) v
      else t.plainWrite a v)
  else if a = R.clkXtal then s.guard (host0Boot m) (fun t => t.plainWrite a v)
  else if 0x08003000 ≤ a ∧ a < 0x08004000 then
    s.guard (host0Boot m) (fun t => State.clampSync <|
      if a = R.ocPhaseStep then t.phaseStep v
      else if 0x08003040 ≤ a ∧ a ≤ 0x08003080 ∧ a % 8 = 0 then t.refCfgWrite ((a - 0x08003040) / 8) v
      else if a = R.ocRefinFnom 0 ∨ a = R.ocRefinFnom 1 then t.refinWrite ((a - R.ocRefinFnom 0) / 4) v
      else if a = R.ocState ∨ a = R.ocRefEvt then t.plainWrite a v
      else (t.plainWrite a v).ocShow)
  else if a = R.snapCtrl then s.guard (snapWriter m) (fun t => t.snapCtrlWrite v)
  else s.ok.plainWrite a v

/-- Tick-engine registers; the cluster must be powered (R54, R80). -/
def State.teWrite (s : State) (m : Master) (a : Nat) (v : Word) : State :=
  let e := (a - 0x08010000) / 0x1000
  let o := a % 0x1000
  if 8 ≤ e then s.ok
  else if 0x40 ≤ o ∧ o < 0x80 then s.guard (directWriter m) (fun t => t.liveWrite (writerPlace m) e ((o - 0x40) / 4) v)
  else if !s.tePowered e then s.ok
  else if o = 0 then s.ok.teCtrlWrite e v
  else if o = 8 then s.ok.progLenWrite e v
  else if o = 0xC then s.shWrite m a v
  else s.ok.plainWrite a v

/-- Mordant, migration, twin, domain and bridge registers (R113, R151, R184). -/
def State.mdWrite (s : State) (m : Master) (a : Nat) (v : Word) : State :=
  if a = R.mdReq then s.commitReq m (fieldOf v.toNat 16 16) (fieldOf v.toNat 0 12)
  else if isGcfg a then s.shWrite m a v
  else if 0x08021000 ≤ a ∧ a < 0x08022000 then
    s.guard (host0Boot m) (fun t =>
      if a = R.migCtrl then t.migCtrlWrite v
      else if a = R.migAlias then t.aliasWrite v
      else if 0x08021100 ≤ a ∧ a < 0x08021140 ∧ a % 16 = 0 then t.twinCtrlWrite ((a - 0x08021100) / 16) v
      else if 0x08021100 ≤ a ∧ a < 0x08021140 ∧ a % 16 = 4 then t.tapWrite ((a - 0x08021100) / 16) false v
      else if 0x08021100 ≤ a ∧ a < 0x08021140 ∧ a % 16 = 8 then t.tapWrite ((a - 0x08021100) / 16) true v
      else t.plainWrite a v)
  else if a = R.domCfg then s.guard (host0Boot m) (fun t => t.plainWrite a v)
  else if a = R.domCtrl then s.guard (host0Boot m) (fun t => if v.getLsbD 0 then t.applyNow else t)
  else if 0x08022100 ≤ a ∧ a < 0x08022200 ∧ a % 16 = 0 then s.guard (host0Boot m) (fun t => t.brCfgWrite ((a - 0x08022100) / 16) v)
  else s.ok.plainWrite a v

/-- Tables of the fabric, its registers, generators and override words. -/
def State.rtWrite (s : State) (m : Master) (a : Nat) (v : Word) : State :=
  if isActiveView a then s.actWrite
  else if (objOf a).isSome then s.shWrite m a v
  else if 0x0804C800 ≤ a ∧ a < 0x0804C840 then
    (if a % 8 = 0 then s.ok.tgCfgWrite ((a - 0x0804C800) / 8) v
     else if a % 8 = 4 then s.ok.tgStepWrite ((a - 0x0804C800) / 8) v else s.ok)
  else if 0x08058000 ≤ a ∧ a < 0x08058080 then s.ovrWordWrite m ((a - 0x08058000) / 4) v
  else if 0x08058080 ≤ a ∧ a < 0x08058100 then s.ovrSinkWrite m ((a - 0x08058080) / 4) v
  else if 0x0804C100 ≤ a ∧ a < 0x0804C180 ∧ a % 8 = 0 ∧ sinkValid (fieldOf v.toNat 0 12) = false then
    (s.ok.plainWrite a v).put (F.rtMtrPkPeak ((a - 0x0804C100) / 8)) 0
  else s.ok.plainWrite a v

/-- Indigo registers (R246). -/
def State.igWrite (s : State) (m : Master) (a : Nat) (v : Word) : State :=
  let c := (a - 0x08060000) / 0x1000
  let o := a % 0x1000
  if o = 0x28 then (if s.igPowered c then s.ok.dbellSet c v.toNat else s.ok)
  else s.igGuard m c (fun t =>
    if o = 0 then t.igCtrlWrite c v
    else if o = 0x2C then t.igDbgWrite c v
    else t.plainWrite a v)

/-- Vat registers (R250, R273). -/
def State.vatWrite (s : State) (m : Master) (a : Nat) (v : Word) : State :=
  if a < 0x08070020 then s.ok.vatStage m ((a - 0x08070000) / 4) v
  else if 0x08070040 ≤ a ∧ a < 0x08070050 then s.guard (host0Boot m) (fun t => t.partWrite ((a - 0x08070040) / 4) v)
  else if 0x08070060 ≤ a ∧ a < 0x08070080 then s.guard (host0Boot m) (fun t => t.fclkWrite ((a - 0x08070060) / 4) v)
  else if 0x08070104 ≤ a ∧ a < 0x08070200 then s.guard (host0Boot m) (fun t => t.plainWrite a v)
  else if 0x08070400 ≤ a ∧ a < 0x08070800 then
    s.guard (host0Boot m) (fun t =>
      if a % 8 = 0 then t.bufAddrWrite ((a - 0x08070400) / 8) v else t.bufCfgWrite ((a - 0x08070400) / 8) v)
  else s.ok.plainWrite a v

/-- Ports, PDM and ASRC registers. -/
def State.audioWrite (s : State) (m : Master) (a : Nat) (v : Word) : State :=
  s.guard (hostOrBoot m) (fun t =>
    if a < 0x08086000 then
      let n := (a - 0x08080000) / 0x1000
      match a % 0x1000 with
      | 0 => t.tpCtrlWrite n v
      | 4 => t.tpStoppedWrite n a 0xFF3FF3C0#32 v
      | 8 => t.tpStoppedWrite n a 0x3F#32 v
      | 0xC => t.maskWrite n false v
      | 0x10 => t.maskWrite n true v
      | _ => t.plainWrite a v
    else if a = R.pdmCtrl then t.pdmCtrlWrite v
    else if 0x08088020 ≤ a ∧ a < 0x0808802C then t.pdmClkWrite ((a - 0x08088020) / 4) v
    else if 0x08088100 ≤ a ∧ a < 0x08088160 then t.pdmChWrite ((a - 0x08088100) / 4) v
    else if 0x08090000 ≤ a ∧ a < 0x08090100 ∧ a % 32 < 0xC then t.asrcWrite ((a - 0x08090000) / 32) (a % 32 / 4) v
    else t.plainWrite a v)

/-- DMA, shared-memory, MRAM and Vermilion registers (R358, R359, R373). -/
def State.storeWrite (s : State) (m : Master) (a : Nat) (v : Word) : State :=
  if a < 0x080A2000 then
    let n := (a - 0x080A0000) / 0x100
    match a % 0x100 with
    | 0x24 => s.guard (host0Boot m) (fun t => t.dmaOwnWrite n v)
    | 0x0C => s.guard (s.dmaWriter n m) (fun t => t.dmaCtrlWrite n v)
    | 0x08 => s.guard (s.dmaWriter n m) (fun t => t.dmaParamWrite n a (v &&& 0xFFFFFF#32))
    | 0x20 => s.guard (s.dmaWriter n m) (fun t => t.dmaParamWrite n a (v &&& 0xFFFFFFE0#32))
    | 0x00 => s.guard (s.dmaWriter n m) (fun t => t.dmaParamWrite n a v)
    | 0x04 => s.guard (s.dmaWriter n m) (fun t => t.dmaParamWrite n a v)
    | 0x14 => s.guard (s.dmaWriter n m) (fun t => t.dmaParamWrite n a v)
    | 0x10 => s.guard (s.dmaWriter n m) (fun t => t.plainWrite a v)
    | 0x18 => s.guard (s.dmaWriter n m) id
    | 0x1C => s.guard (s.dmaWriter n m) id
    | _ => s.ok
  else if a = R.dmaEvt then s.dmaEvtWrite m v
  else if a = R.dmaActive then s.guard (s.dmaAnyWriter m) id
  else if a = R.smemRet then s.guard (host0Boot m) (fun t => t.retWrite v)
  else if a = R.smemErr ∨ a = R.mramcCtrl ∨ a = R.mramcStatus then s.guard (host0Boot m) (fun t => t.plainWrite a v)
  else if a = R.mramcCntInc then s.guard (host0Boot m) (fun t => t.cntIncWrite v)
  else if a = R.vermCtrl then s.vermCtrlWrite m v
  else if R.vermToken 0 ≤ a ∧ a < R.vermToken 8 then s.guard (host0Only m) (fun t => t.wr a v)
  else s.ok.plainWrite a v

/-- CAN, event, chime, thermal and OTP registers and memories (R422, R457). -/
def State.vehWrite (s : State) (m : Master) (a : Nat) (v : Word) : State :=
  if a = R.otpLcReq then s.lcWrite m v
  else if a < 0x080D3000 ∨ a = R.thermCfg then
    s.guard (host0Boot m) (fun t =>
      if a = R.canCtrl then t.canCtrlWrite v
      else if 0x080D0400 ≤ a ∧ a < 0x080D0E00 then t.canMemWrite a v
      else if 0x080D1000 ≤ a ∧ a < 0x080D1020 then t.evtCfgWrite ((a - 0x080D1000) / 4) v
      else if a = R.chimeCfg then t.chimeCfgWrite v
      else if a = R.chimeCtrl then t.chimeCtrlWrite v
      else t.plainWrite a v)
  else s.ok.plainWrite a v

/-! ## Any register -/

/-- Address `a` lies in the register range (Table 01-9). -/
def isReg (a : Nat) : Bool := decide (0x08000000 ≤ a)

/-- A register, or a word of a window of the register range, stands at `a` (R10). -/
def holdsReg (a : Nat) : Bool := (regDesc a).isSome || isActiveView a

/-- A 32-bit write at a register address: the register's own rule, or its access code (R13); addresses that hold no
register ignore it (R10). -/
def State.regWrite (s : State) (m : Master) (a : Nat) (v : Word) : State :=
  if a % 4 != 0 || !s.powered 1 || !holdsReg a then s.ok
  else if a < 0x08010000 then s.sysWrite m a v
  else if a < 0x08020000 then s.teWrite m a v
  else if a < 0x08030000 then s.mdWrite m a v
  else if a < 0x08060000 then s.rtWrite m a v
  else if a < 0x08070000 then s.igWrite m a v
  else if a < 0x08080000 then s.vatWrite m a v
  else if a < 0x080A0000 then s.audioWrite m a v
  else if a < 0x080C0000 then s.storeWrite m a v
  else if a < 0x080C4000 then s.hpWrite m a v
  else s.vehWrite m a v

/-- The low halves of RL pairs (R17). -/
def isRlLow (a : Nat) : Bool :=
  a == R.sysTstampLo || a == R.mdAppliedLo || a == R.migTactLo || a == R.domDtickbLo || a == R.domDtickcLo ||
    (decide (0x08060000 ≤ a) && decide (a < 0x08070000) && a % 0x1000 == 0x40)

/-- What a read finds, before its effects. -/
def State.peek (s : State) (m : Master) (a : Nat) : Word :=
  if 0x08060000 ≤ a ∧ a < 0x08070000 then s.viewIg a
  else if 0x08002000 ≤ a ∧ a < 0x08003000 then s.viewPll a
  else if 0x080C0000 ≤ a ∧ a < 0x080C4000 ∧ a % 0x1000 = 0x1C then BitVec.ofNat 32 (s.irqStat ((a - 0x080C0000) / 0x1000))
  else if a < 0x08070020 ∧ 0x08070000 ≤ a then 0#32
  else if a = R.vatSubmitRes then s.vatRes m
  else if R.vermToken 0 ≤ a ∧ a < R.vermToken 8 then 0#32
  else if (objOf a).isSome then (if 0x08010000 ≤ a ∧ a < 0x08018000 && !s.tePowered ((a - 0x08010000) / 0x1000) then 0#32 else s.shRead a)
  else if isActiveView a then s.actRead a
  else s.view a

/-- The RL latch of the low half at `a` for master `m` (R17). -/
def State.latchOf (s : State) (m : Master) (a : Nat) : Word := spGet (fun _ => 0#32) s.latches (0x100000000 * latchNo m + a)
def State.latchSet (s : State) (m : Master) (a : Nat) (v : Word) : State :=
  { s with latches := spSet (fun _ => 0#32) s.latches (0x100000000 * latchNo m + a) v }

/-- Address `a` lies in the registers of a core whose cluster is not powered: it reads 0 (R242). -/
def State.igHidden (s : State) (a : Nat) : Bool :=
  decide (0x08060000 ≤ a) && decide (a < 0x08070000) && !s.igPowered ((a - 0x08060000) / 0x1000)

/-- RC bits clear with the read (R16); a register that a power state hides keeps them. -/
def State.rcClear (s : State) (a : Nat) : State :=
  match regDesc a with
  | none => s
  | some d =>
    let hid := 0x08010000 ≤ a ∧ a < 0x08018000 ∧ !s.tePowered ((a - 0x08010000) / 0x1000)
    if d.rc == 0 || decide hid || s.igHidden a then s else s.wr a (s.rd a &&& ~~~(BitVec.ofNat 32 d.rc))

/-- What the read finds has moved until now, where it is a clock value that moves between commands. -/
def State.readNow (s : State) (a : Nat) : State := if 0x08002000 ≤ a ∧ a < 0x08004000 then s.drift else s

/-- A 32-bit read at a register address: the word goes to `rdata`, and the read has its effects (R9, R10, R16, R17, R263). -/
def State.regRead (s : State) (m : Master) (a : Nat) : State :=
  if a % 4 != 0 || !s.powered 1 then { s.ok with rdata := 0#32 }
  else if 0x080700A0 ≤ a ∧ a < 0x080700C0 ∧ a % 8 = 0 then s.cplPop m ((a - 0x080700A0) / 8)
  else if isRlLow a then
    { (s.latchSet m a (s.peek m (a + 4))).ok with rdata := s.peek m a }
  else if isRlLow (a - 4) then { s.ok with rdata := if s.igHidden a then 0#32 else s.latchOf m (a - 4) }
  else
    let t := s.readNow a
    let s1 := { t.ok with rdata := t.peek m a, free := t.free + 1 }
    s1.rcClear a

/-! ## Any address -/

/-- A write of one word by master `m` anywhere on the bus; `old`: issued before its group refused accesses (R339). -/
def State.busWrite (s : State) (m : Master) (a : Nat) (v : Word) (old : Bool) : State :=
  if isReg a then s.regWrite m a v else s.fabWrite m a (wordBytes v) old

/-- A read of one word by master `m` anywhere on the bus, into `rdata`. -/
def State.busRead (s : State) (m : Master) (a : Nat) (old : Bool) : State :=
  if isReg a then s.regRead m a else State.answer (s.fabRead m a 4 old)

/-- The access was served: not refused, failed or held. -/
def State.served (s : State) : Bool := s.resp == .ok

/-! ## Meanings -/

/-- REGISTER_WRITE: narrower than 32 bits or misaligned, it is ignored (R9). -/
def execRegisterWrite (m : Master) (a v : Word) (size cyc : Nat) (s : State) : Out :=
  .next (if !isReg a.toNat then s else if size == 4 then ((s.atCyc cyc).regWrite m a.toNat v).settle else s.ok)
def execReadToClear (m : Master) (a : Word) (s : State) : Out := .next (if isReg a.toNat then s.regRead m a.toNat else s)
def execRlLowRead (m : Master) (a : Word) (s : State) : Out := .next (if isReg a.toNat then s.regRead m a.toNat else s)
def execGo (m : Master) (h : Fin 4) (s : State) : Out := .next (s.guard (mtxWriter m) (fun t => t.goWrite h))
def execHostDoorbellWrite (m : Master) (h : Fin 4) (v : Word) (s : State) : Out := .next (s.ok.hdbellWrite m h v)
/-- MASTER_MODE_CHANGE: a write of HPn_CFG that changes MASTER alone. -/
def execMasterModeChange (m : Master) (h : Fin 4) (on : Bool) (s : State) : Out :=
  .next (s.guard (host0Boot m) (fun t => t.mWrite h (fun u => u.modeWrite h on)))

end Sys2Proof.Machine
end

