-- ==== Sys2Proof/Machine/Run.lean ====
section
/-! DEFINITION. Accesses that complete on the bus: an Indigo core's far reads and writes, and a DMA channel's data, link and
descriptor accesses (R243, R358 to R369, R126). -/

namespace Sys2Proof.Machine

/-- A write of one word at `a` finds its object frozen and the internal queue of 64 writes full (R126). -/
def State.queueFull (s : State) (a : Nat) : Bool :=
  (match objOf a with
   | some k => s.frozen k && !s.shHidden a
   | none => false) && decide (64 ≤ (s.md.held.filter Held.internal).length)

/-- An access at `a` must wait for a waking group (R340). -/
def State.busWait (s : State) (a : Nat) : Bool := !isReg a && s.mustWait a

/-! ## Far accesses of a core (R243) -/

/-- The access of core `c` was refused or failed. -/
def State.farBad (s : State) : Bool :=
  match s.resp with
  | .denied => true
  | .error _ => true
  | _ => false

/-- Core `c` as a master. -/
def coreM (c : Nat) : Master := .core ⟨c % 16, Nat.mod_lt _ (by decide)⟩

/-- `n` stall cycles of core `c` end with a far access, where the core stalls and its clock runs (R226). -/
def State.stallEnd (s : State) (c n : Nat) : State :=
  let k := s.core c
  if s.igRuns c && (k.stall != 0 || k.fin != 0) then s.igCycles c n else s

/-- FLD_COMPLETE: after every earlier FST, the word read is written at the end of the FLD bundle; `n`: the stall cycles that
are not counted yet. -/
def State.fldDone (s : State) (c n : Nat) : State :=
  let k := s.core c
  if !(s.igRuns c && k.stall == 1 && k.fst_.isEmpty) || s.busWait k.fldAddr then s
  else
    let s1 := (s.stallEnd c n).busRead (coreM c) k.fldAddr k.fldOk
    let v := if s1.farBad then 0#32 else s1.rdata
    let s2 := (s1.setIf s1.farBad (F.igStatusFarErr c)).setCore c (fun j => { j with stall := 0, fldOk := false })
    s2.igEnd c (s2.core c) 0#64 [(k.fldReg, v)] []

/-- The oldest posted far write of core `c` has its response: room frees, and a wait for it ends unless the core's clock is
gated (R243, R316). -/
def State.fstEnd (s : State) (c n : Nat) (l : List FarWrite) : State :=
  let t := (s.stallEnd c n).setCore c (fun j => { j with fst_ := l })
  if t.igRuns c then t.igGoOn c else t

/-- FST_COMPLETE: the oldest posted far write lands, and a wait for it ends. A write of the MRAM store responds once its word
stands in the array (R353). -/
def State.fstDone (s : State) (c n : Nat) : State :=
  let k := s.core c
  match k.fst_ with
  | [] => s
  | p :: l =>
    if !s.igPowered c then s
    else if p.queued then (if s.mramWaits (coreM c) then s else s.fstEnd c n l)
    else if s.busWait p.addr then s
    else if s.queueFull p.addr then s.put F.mdErrIqStall 1
    else
      let s1 := s.busWrite (coreM c) p.addr p.val p.ok
      if isMram p.addr && s1.resp == .held then s1.setCore c (fun j => { j with fst_ := { p with queued := true } :: l })
      else (s1.setIf s1.farBad (F.igStatusFarErr c)).fstEnd c n l

/-! ## DMA accesses (R358 to R369) -/

/-- Channel `n` as a master. -/
def dmaM (n : Nat) : Master := .dma ⟨n % 32, Nat.mod_lt _ (by decide)⟩

/-- The error of an answer, if it is one. -/
def State.errOf (s : State) : Option Nat :=
  match s.resp with
  | .error k => some k
  | .denied => some errPerm
  | _ => none

/-- A data access of channel `n` takes effect: its error, the bytes read, the state after. Vermilion refuses DMA itself (R342);
an access of the register range that is no aligned word reads 0 or is ignored (R9). -/
def State.dmaAccess (s : State) (n : Nat) (x : DmaAcc) : Option Nat × List Byte × State :=
  if !isVerm x.addr && !s.permits (s.dmaHost n) (b2n x.wr) x.addr then (some errPerm, [], s)
  else if isReg x.addr then
    if x.size != 4 then (none, List.replicate x.size 0#8, s)
    else if x.wr then (none, [], s.regWrite (dmaM n) x.addr (BitVec.ofNat 32 (leNat x.data)))
    else
      let t := s.regRead (dmaM n) x.addr
      (none, wordBytes t.rdata, t)
  else if x.wr then
    let t := s.fabWrite (dmaM n) x.addr x.data x.ok
    (t.errOf, [], t)
  else
    let r := s.fabRead (dmaM n) x.addr x.size x.ok
    (r.2.errOf, r.1, r.2)

/-- An access that the engine issued before `x` to a 16-byte block of `x`, by whatever alias, is outstanding (R333). -/
def State.dmaBehind (s : State) (x : DmaAcc) : Bool :=
  s.dma.ch.toList.any (fun k => k.out.any (fun y => decide (y.seq < x.seq) &&
    decide (plainAddr y.addr / 16 ≤ (plainAddr x.addr + x.size - 1) / 16) &&
    decide (plainAddr x.addr / 16 ≤ (plainAddr y.addr + y.size - 1) / 16)))

/-- The channel ends in ABORTED (R366). -/
def State.dmaAborted (s : State) (n : Nat) : State :=
  ((s.put (F.dmaStatusResumePend n) 0).dmaRest n dmAborted).dmaEvt n

/-- A response ends the running set when it is a failure (R365). -/
def State.dmaFail (s : State) (n kind addr : Nat) : State :=
  if (s.dch n).out.isEmpty then s.dmaErr n kind addr
  else
    (((s.put (F.dmaStatusEtype n) kind).put (F.dmaErraddrAddr n) addr).put (F.dmaStatusResumePend n) 0).setDch n
      (fun k => { k with ph := 3, left := 0, buf := [] })

/-- What channel `n` does after a response (R364 to R366). -/
def State.dmaAfter (s : State) (n : Nat) (x : DmaAcc) (e : Option Nat) (b : List Byte) : State :=
  let k := s.dch n
  if k.ph == 1 then
    match e with
    | some kind => s.dmaFail n kind x.addr
    | none =>
      let s1 := if x.wr then s else s.setDch n (fun j => { j with buf := j.buf ++ b })
      if k.out.isEmpty && s.get (F.dmaCountCount n) == 0 then s1.dmaSetDone n else s1
  else if k.ph == 2 then (if k.out.isEmpty then s.dmaAborted n else s)
  else
    let s1 := s.setIf e.isSome (F.dmaStatusErrMulti n)
    if k.out.isEmpty then ((s1.put (F.dmaStatusResumePend n) 0).dmaRest n dmError).dmaEvt n else s1

/-- The read of a Vat descriptor responds (R364). -/
def State.dmaVatRead (s : State) (n : Nat) (x : DmaAcc) : State :=
  if (s.dch n).stop then s.dmaAborted n
  else match s.dmaFetch n x with
    | (some k, _, t) => t.dmaErr n k.1 k.2
    | (none, b, t) => t.dmaSubmit n b

/-- The outstanding access of channel `n` that responds next, if nothing makes it wait (R333, R340). -/
def State.dmaHead (s : State) (n : Nat) : Option DmaAcc :=
  match (s.dch n).out with
  | [] => none
  | x :: _ => if s.busWait x.addr || s.dmaBehind x then none else some x

/-- A data access of channel `n` responds. A write of the MRAM store responds once its words stand in the array (R353). -/
def State.dmaData (s : State) (n : Nat) (x : DmaAcc) : State :=
  let l := (s.dch n).out.drop 1
  let after := fun (t : State) (e : Option Nat) (b : List Byte) => ((t.setDch n (fun k => { k with out := l })).dmaAfter n x e b).dmaGo
  if x.queued then (if s.mramWaits (dmaM n) then s else after s none [])
  else if x.wr && s.queueFull x.addr then s.put F.mdErrIqStall 1
  else
    let r := s.dmaAccess n x
    if x.wr && isMram x.addr && r.1.isNone then r.2.2.setDch n (fun k => { k with out := { x with queued := true } :: l })
    else after r.2.2 r.1 r.2.1

/-- DMA_ACCESS_COMPLETE: the oldest outstanding access of channel `n` responds, a data access or the read of its Vat
descriptor. -/
def State.dmaComplete (s : State) (n : Nat) : State :=
  let k := s.dch n
  match s.dmaHead n with
  | none => s
  | some x =>
    (if k.ph == 7 then (s.dmaVatRead n x).dmaGo
     else if decide (1 ≤ k.ph) && decide (k.ph ≤ 3) then s.dmaData n x else s).settle

/-- The link word at descriptor `d` has been read (R368, R369). -/
def State.dmaLink (s : State) (n d : Nat) (x : DmaAcc) : State :=
  let again := (s.dch n).again
  match s.dmaFetch n x with
  | (some k, _, t) => t.dmaErr n k.1 k.2
  | (none, b, t) =>
    let next := leNat (b.take 4)
    let e := leNat (b.drop 4)
    if next % 32 != 0 || decide (2 ≤ e) then t.dmaErr n errDesc d
    else if e == 0 then ((t.put (F.dmaLinkAddr n) next).put (F.dmaStatusState n) dmActive).dmaTurn n 5
    else
      let t1 := ((t.put (F.dmaTailAddr n) d).dmaRest n dmChainEnd).dmaEvt n
      if t1.flag (F.dmaStatusResumePend n) || again then (t1.put (F.dmaStatusResumePend n) 0).dmaTurn n 6 else t1

/-- DMA_LINK_READ_DONE. -/
def State.dmaLinkDone (s : State) (n : Nat) : State :=
  let k := s.dch n
  match s.dmaHead n with
  | none => s
  | some x =>
    if !(k.ph == 4 || k.ph == 6) then s
    else if k.stop then (s.dmaAborted n).dmaGo
    else (s.dmaLink n (x.addr - 16) x).dmaGo

/-- A descriptor breaks Table 12-8 or the checks of R359. -/
def descBad (w : List Word) : Bool :=
  let g := fun (i : Nat) => ((w[i]?).getD 0#32).toNat
  let esize := fieldOf (g 3) 11 3
  decide (2 ^ 24 ≤ g 2) || g 3 % 256 != 0 || decide (2 ^ 20 ≤ g 3) || g 4 % 32 != 0 || decide (2 ≤ g 5) || g 7 != 0 ||
    dmaBad (g 0) (g 1) (g 2) esize ((g 3).testBit 9) ((g 3).testBit 10)

/-- A descriptor goes into the channel's registers (Table 12-8). -/
def State.descLoad (s : State) (n : Nat) (w : List Word) : State :=
  let g := fun (i : Nat) => (w[i]?).getD 0#32
  let s1 := ((s.wr (R.dmaSrc n) (g 0)).wr (R.dmaDst n) (g 1)).wr (R.dmaCount n) (g 2)
  (s1.wr (R.dmaCtrl n) (g 3 &&& 0xBFF00#32)).wr (R.dmaVdesc n) (g 6 &&& 0xFFFFFFE0#32)

/-- DMA_DESCRIPTOR_LOADED: the descriptor at LINK runs, or ends the channel with DESC (R367). -/
def State.dmaDescDone (s : State) (n : Nat) : State :=
  let k := s.dch n
  match s.dmaHead n with
  | none => s
  | some x =>
    if k.ph != 5 then s
    else if k.stop then (s.dmaAborted n).dmaGo
    else match s.dmaFetch n x with
      | (some e, _, t) => (t.dmaErr n e.1 e.2).dmaGo
      | (none, b, t) =>
        let w := wordsOf b 8
        (if descBad w then t.dmaErr n errDesc x.addr else (t.descLoad n w).dmaRunSet n).dmaGo

/-! ## Meanings -/

def execFldComplete (c : Timed (Fin 16)) (n : Nat) (s : State) : Out := .next ((s.atCyc c.cyc).fldDone c.what n).settle
def execFstComplete (c : Timed (Fin 16)) (n : Nat) (s : State) : Out := .next ((s.atCyc c.cyc).fstDone c.what n).settle
def execDmaAccessComplete (n : Timed (Fin 32)) (s : State) : Out := .next ((s.atCyc n.cyc).dmaComplete n.what)
def execDmaLinkReadDone (n : Fin 32) (s : State) : Out := .next (s.dmaLinkDone n)
def execDmaDescriptorLoaded (n : Fin 32) (s : State) : Out := .next (s.dmaDescDone n)

end Sys2Proof.Machine
end

