-- ==== Sys2Proof/Machine/Boot.lean ====
section
/-! DEFINITION. The boot sequencer: image header, stages, authentication, overlays, the warm-start record and its
verification (R424 to R442, R456). -/

namespace Sys2Proof.Machine

/-! ## Headers, sections, authentication (R428 to R435) -/

/-- The little-endian number in `n` bytes at offset `o`. -/
def leAt (l : List Byte) (o n : Nat) : Nat := leNat ((l.drop o).take n)

/-- MAGIC is right (R428). -/
def magicOk (h : List Byte) : Bool := h.take 4 == [0x53#8, 0x4C#8, 0x44#8, 0x42#8]

/-- HCRC is right. -/
def hcrcOk (h : List Byte) : Bool := crc32 (h.take 0x3C) == BitVec.ofNat 32 (leAt h 0x3C 4)

/-- S0 of a header (R429). -/
def hdrStart (h : List Byte) : Nat := if leAt h 0x1C 1 == 1 then 0xC0 else 0x40

/-- The conditions of R429 beside MAGIC and HCRC. -/
def hdrFields (h : List Byte) : Bool :=
  let e := fun (k : Nat) => leAt h (0x0C + 4 * k) 4
  h.length == 64 && leAt h 4 2 == 1 && leAt h 0x1F 1 == 0 && (h.drop 0x28).take 20 == List.replicate 20 0#8 &&
  decide (leAt h 0x1C 1 ≤ 1) && decide (hdrStart h ≤ e 0) && decide (e 0 ≤ e 1) && decide (e 1 ≤ e 2) && decide (e 2 ≤ e 3) &&
  e 3 == leAt h 8 4 && decide (e 0 ≤ 262144)

/-- A header is valid (R429). -/
def hdrValid (h : List Byte) : Bool := hdrFields h && magicOk h && hcrcOk h

/-- The sections that fill `l` exactly, each of stage `k` with its CRC right; none otherwise (R430). -/
def sectsOf (k : Nat) : Nat → List Byte → Option (List Sect)
  | 0, l => if l.isEmpty then some [] else none
  | f + 1, l =>
    if l.isEmpty then some []
    else
      let w0 := leAt l 0 4
      let len := leAt l 8 4
      let pay := (l.drop 16).take len
      if decide (l.length < 16) || decide (1024 ≤ w0) || w0 / 256 != k || len % 4 != 0 || decide (12582912 < len) ||
          pay.length != len || crc32 pay != BitVec.ofNat 32 (leAt l 12 4) then none
      else (sectsOf k f (l.drop (16 + len))).map (fun r => ⟨w0 % 256, leAt l 4 4, pay⟩ :: r)

/-- The sections of stage `k` of an image with header `h`, `met` sections having gone before; the whole image holds NSECT. -/
def stageSects (h : List Byte) (k met : Nat) (body : List Byte) : Option (List Sect) :=
  match sectsOf k (body.length / 16 + 1) body with
  | none => none
  | some l =>
    let n := met + l.length
    let last := leAt h (0x0C + 4 * k) 4 == leAt h 8 4
    if decide (leAt h 6 2 < n) || (last && n != leAt h 6 2) then none else some l

/-- An image-authentication key is present (R433); Vermilion that wipes holds none (R372, R456). -/
def State.keyPresent (s : State) : Bool := s.vermMay .boot && s.rw 0x03000020 == 1#32

/-- The outcome of R433 and R434 for stage `k`: 0 unsigned, 1 tags verified, 2 refused or tag failed. -/
def State.authOf (s : State) (h tags : List Byte) (k : Nat) (body : List Byte) (warm : Bool) : Nat :=
  if leAt h 0x1C 1 == 0 then (if s.keyPresent && decide (2 ≤ s.lc) then 2 else 0)
  else if !s.keyPresent then (if warm then 0 else 2)
  else if body.isEmpty then 1
  else if hmac (s.rbs 0x03000000 32) (h ++ body) == (tags.drop (32 * k)).take 32 then 1
  else 2

/-! ## What the apply writes (R431, R432) -/

/-- The bits that say that a request written to a register was refused: LEN_ERR of an engine (R47), the conditions of a migration or a
pair start (R144, R151, R152), APPLY (R173), bridges (R178), Vat clocks, groups and partitions, ports (R277), ASRCs (R284, R285), PDM
groups (R295), PLLs (R308, R310), the MRAM store (R355, R356), SEAL (R345), DMA (R359), GO, the CAN listener and the life cycle. -/
def refusals : List Fld :=
  (List.range 8).map F.teStatusLenErr ++ [F.migStatusTap, F.migStatusTwin, F.migStatusPower, F.migStatusDomain, F.migStatusErrState,
    F.migStatusBusy, F.domStatusErrBusy, F.domStatusErrCode] ++ (List.range 16).map F.brStatusCfgErr ++ [F.vatEvtCfgErr] ++
  (List.range 6).map F.tpStatusCfgErr ++ [F.pdmStatusCfgErr] ++ (List.range 8).map F.asrcStatusCfgErr ++
  [F.pllStatusFmaxErr 0, F.pllStatusFmaxErr 1, F.mramcStatusProt, F.vermStatusSealErr] ++ (List.range 32).map F.dmaStatusCfgErr ++
  (List.range 4).map F.hpStatusCfgErr ++ [F.canStatusCfgErr, F.otpStatusReqErr]

/-- Address `a` lies in a block of domain `d`: registers, program and coefficient memories of its engines, registers and local
memories of its cores (Table 01-8). -/
def inDom (d a : Nat) : Bool :=
  if d < 4 then
    within (0x08010000 + 0x4000 * (d - 2)) 0x4000 a || within (pmBase (4 * (d - 2))) 0x80000 a ||
      within (cfBase (4 * (d - 2))) 0x40000 a
  else within (0x08060000 + 0x4000 * (d - 4)) 0x4000 a || within (lmBase (4 * (d - 4))) 0x100000 a

/-- Address `a` lies in a block of a domain of PD2 to PD7 that has no power. -/
def State.inOff (s : State) (a : Nat) : Bool := (List.range 6).any (fun i => inDom (i + 2) a && !s.powered (i + 2))

/-- The target of a write refuses it by its own rule: with no refusal shown before, one shows after it. -/
def State.targetRefuses (s : State) (a : Nat) (v : Word) : Bool :=
  let clear := (refusals.filter s.flag).foldl (fun (t : State) f => t.put f 0) s
  refusals.any ((clear.busWrite .boot a v false).flag)

/-- A write of the boot sequencer: a refusal, a failure or a target in a domain without power shows in WR_ERR, and a shadow word's
object is noted. -/
def State.bootPut (s : State) (a : Nat) (v : Word) : State :=
  let t := s.busWrite .boot a v false
  let bad := match t.resp with
    | .ok => false
    | .held => false
    | _ => true
  let bit := match objOf a with
    | some k => if s.shHidden a then 0 else 2 ^ k
    | none => 0
  (t.setIf (bad || s.targetRefuses a v || s.inOff a) F.bootStatusWrErr).setBoot (fun b => { b with mask := b.mask ||| bit })

/-- Words written at rising addresses from `a`. -/
def State.bootWords (s : State) (a : Nat) (l : List Word) : State :=
  (List.range l.length).foldl (fun (t : State) i => t.bootPut (a + 4 * i) ((l[i]?).getD 0#32)) s

/-- The pairs of a list payload. -/
def pairsOf (pay : List Byte) : List (Nat × Word) :=
  (List.range (pay.length / 8)).map (fun i => (leAt pay (8 * i) 4, BitVec.ofNat 32 (leAt pay (8 * i + 4) 4)))

/-- Pairs written in order. -/
def State.bootPairs (s : State) (l : List (Nat × Word)) : State :=
  l.foldl (fun (t : State) p => t.bootPut p.1 p.2) s

/-- [a, a+n) and [lo, lo+m) meet. -/
def meets (a n lo m : Nat) : Bool := n != 0 && m != 0 && decide (a < lo + m) && decide (lo < a + n)

/-- A memory load to [a, a+n) reaches what R432 forbids; [g, g+gn) is the stage's staging area. The shadow windows of nodes
and Umber sets, which R430 loads this way, are no part of the register range here. -/
def loadBad (a n g gn : Nat) : Bool :=
  let inside := fun (lo m : Nat) => decide (lo ≤ a) && decide (a + n ≤ lo + m)
  let reg := meets a n 0x08000000 0xF8000000 && !inside 0x08040000 0x4000 && !inside 0x08050000 0x800
  meets a n 0x03000000 0x40000 || meets a n 0x05000000 0x800000 ||
  (List.range 8).any (fun e => meets a n (cfBase e + 0x8000) 0x8000) || reg ||
  meets a n 0x07000000 0x41000 || meets a n 0x07077000 0x9000 ||
  meets a n g gn || meets a n (0x01000000 + g) gn || meets a n (0x02000000 + g) gn

/-- A memory load of `n` bytes at `a` reaches a memory of domain `d`. -/
def loadIn (d a n : Nat) : Bool :=
  if d < 4 then meets a n (pmBase (4 * (d - 2))) 0x80000 || meets a n (cfBase (4 * (d - 2))) 0x40000
  else meets a n (lmBase (4 * (d - 4))) 0x100000

/-- The target of a section lies in domain `d` (R432); of a list, the target of one of its pairs. -/
def sectIn (d : Nat) (x : Sect) : Bool :=
  match x.ty with
  | 2 => loadIn d x.dest x.pay.length
  | 1 => (pairsOf x.pay).any (fun p => inDom d p.1)
  | 8 => (pairsOf x.pay).any (fun p => inDom d p.1)
  | _ => false

/-- Domain `d` powers up, or has been asked to and will (R432, R443). -/
def State.comesUp (s : State) (d : Nat) : Bool := s.pwr d == 2 || (s.want d == 3 && !s.parked d && s.pwr d != 3)

/-- A section waits: its target lies in a domain that is powering up (R432). -/
def State.sectWaits (s : State) (x : Sect) : Bool := (List.range 6).any (fun i => s.comesUp (i + 2) && sectIn (i + 2) x)

/-- The target of a section lies in a domain that is off or in retention with no power-up requested: of a load, a part of it; of a list,
the targets of all its pairs. A list is not skipped for one of its pairs: that write fails by itself (DEDUCED, log 78). -/
def State.sectOff (s : State) (x : Sect) : Bool :=
  match x.ty with
  | 2 => (List.range 6).any (fun i => !s.powered (i + 2) && !s.comesUp (i + 2) && sectIn (i + 2) x)
  | 1 => !(pairsOf x.pay).isEmpty && (pairsOf x.pay).all (fun p => s.inOff p.1)
  | 8 => !(pairsOf x.pay).isEmpty && (pairsOf x.pay).all (fun p => s.inOff p.1)
  | _ => false

/-- Stage `k`'s staging area: address and bytes (R431). -/
def State.staging (s : State) (k : Nat) : Nat × Nat :=
  if k = 0 then (0x00BC0000, s.stageEnd 0) else (s.hdrW 0x24, s.stageEnd k - s.stageFrom k)

/-- A section is skipped with DEST_ERR (R432, Table 15-4). -/
def State.sectBad (s : State) (k : Nat) (x : Sect) : Bool :=
  let n := x.pay.length
  match x.ty with
  | 1 => x.dest != 0 || s.sectOff x
  | 2 => loadBad x.dest n (s.staging k).1 (s.staging k).2 || s.sectOff x
  | 3 => decide (2048 < x.dest + n / 16)
  | 4 => decide (512 < x.dest + n / 16)
  | 5 => k != 0 || x.dest != 0 || decide (64 < n / 12)
  | 6 => k != 0 || x.dest != 0 || decide (2048 < n)
  | 7 => k != 0 || x.dest != 0
  | 8 => x.dest != 0 || s.sectOff x
  | _ => true

/-- The overlay policy of a payload (Table 15-8): its entries. -/
def policyOf (pay : List Byte) : List Policy :=
  (List.range (min 32 (fieldOf (leAt pay 0 4) 8 6))).map (fun e =>
    let w := leAt pay (4 + 12 * e) 4
    ⟨fieldOf w 0 16, fieldOf w 16 2, leAt pay (8 + 12 * e) 4, leAt pay (12 + 12 * e) 4⟩)

/-- One section of stage `k` is applied; a start list is kept for later (R431, Table 15-4). -/
def State.sectApply (s : State) (k : Nat) (x : Sect) : State :=
  let w := wordsOf x.pay (x.pay.length / 4)
  if s.sectBad k x then s.put F.bootStatusDestErr 1
  else match x.ty with
    | 1 => s.bootPairs (pairsOf x.pay)
    | 2 => s.bootWords x.dest w
    | 3 => s.bootWords (0x08030000 + 16 * x.dest) (w.take (w.length / 4 * 4))
    | 4 => s.bootWords (0x08048000 + 16 * x.dest) (w.take (w.length / 4 * 4))
    | 5 => ((List.range (w.length / 3)).foldl (fun (t : State) i => t.bootWords (R.permBase i) ((w.drop (3 * i)).take 3)) s).setBoot
      (fun b => { b with perms := true })
    | 6 => (s.bootWords 0x080D0400 (w.take 128)).bootWords 0x080D0800 (w.drop 128)
    | 7 => s.setBoot (fun b => { b with wsEn := (leAt x.pay 0 4).testBit 0, pol := policyOf x.pay })
    | 8 => s.setBoot (fun b => { b with starts := b.starts ++ pairsOf x.pay })
    | _ => s

/-! ## Overlays (R441, R442) -/

/-- One pair of a record under its policy entry. -/
def State.ovlPair (s : State) (e : Policy) (p : Nat × Word) : State :=
  if p.1 % 4 != 0 || decide (p.1 < e.base) || decide (e.limit < p.1) then s.put F.bootStatusOvlSkip 1
  else s.bootPut p.1 p.2

/-- A record with its 16-byte head `h` and its pairs applies in stage `k` (R442). -/
def State.ovlRecord (s : State) (k : Nat) (h pay : List Byte) : State :=
  match s.boot.pol.find? (fun e => e.id == leAt h 0 2 && e.stage == k) with
  | none => s
  | some e =>
    if leAt h 12 4 == 1 && crc32 pay == BitVec.ofNat 32 (leAt h 8 4) then
      (pairsOf pay).foldl (fun (t : State) p => t.ovlPair e p) s
    else s

/-- The scan from MRAM address `a` on, over at most `f` records (R441); one whose words cannot be read is passed over, or ends
the scan where its length cannot be told (R357). -/
def State.ovlScan (s : State) (k : Nat) : Nat → Nat → State
  | 0, _ => s
  | f + 1, a =>
    if 0x07076000 < a + 16 then s
    else
      let q := s.mramBytes a 16
      match q.1 with
      | none => q.2
      | some h =>
        let n := leAt h 4 2
        if leAt h 2 2 != 0x4F56 || decide (0x07076000 < a + 16 + 8 * n) then q.2
        else
          let x := q.2.mramBytes (a + 16) (8 * n)
          let t := match x.1 with
            | some pay => if n == 0 || decide (4096 < n) || leAt h 6 2 != 0 then x.2 else x.2.ovlRecord k h pay
            | none => x.2
          t.ovlScan k f (a + 16 + 8 * n)

/-- The overlays of stage `k`; without a policy none applies. -/
def State.overlays (s : State) (k : Nat) : State := if s.boot.pol.isEmpty then s else s.ovlScan k 13568 0x07041000

/-! ## The stages (R427, R431, R435 to R437) -/

/-- The start lists of the stage run. -/
def State.runStarts (s : State) : State := (s.setBoot (fun b => { b with starts := [] })).bootPairs s.boot.starts

/-- A group of shared memory that the staging area reaches is in one of the states `l`. -/
def State.stagingIn (s : State) (k n : Nat) (l : List Nat) : Bool :=
  let a := (s.staging k).1
  (List.range 12).any (fun g => meets a n (g * 2 ^ 20) (2 ^ 20) && l.contains (s.get (F.smemRetStatState g)))

/-- The bytes of a stage that have been read stand in its staging area, whatever its checks find (R431); the cycles that the
writes lost to other masters are a free value (R335). -/
def State.staged (s : State) (k : Nat) (bytes : List Byte) : State :=
  ((s.draw.2.conflict 6 s.draw.1.toNat).ueClear (s.staging k).1 bytes.length 4).wbs (s.staging k).1 bytes

/-- The permission table is empty: the default of R394 applies until an image writes it. -/
def State.permClear (s : State) : State :=
  (s.regClear 0x080C0C00 0x080C1000).setBoot (fun b => { b with perms := false })

/-- Every section of stage `k` is applied: its overlays follow. Stage 0 then runs its start lists, and steps 7 to 9 follow; a later
stage's commit is requested with SEQ k (R424, R431). -/
def State.applied (s : State) (k : Nat) : State :=
  let s1 := (s.setBoot (fun b => { b with todo := [], ph := 0, back := 0, tries := 0 })).overlays k
  if k = 0 then (s1.runStarts.chimeCopy.setBoot (fun b => { b with wsTodo := !b.warm })).stepEight
  else
    let s2 := s1.setBoot (fun b => { b with wait := true })
    s2.bootPut R.mdReq (BitVec.ofNat 32 (k * 2 ^ 16 + s2.boot.mask))

/-- The sections of stage `k` are applied in order, up to one that waits for its domain (R431, R432). -/
def State.applySects (s : State) (k : Nat) : List Sect → State
  | [] => s.applied k
  | x :: l =>
    if s.sectWaits x then s.setBoot (fun b => { b with todo := x :: l, ph := 4, back := 0, tries := 0 })
    else (s.sectApply k x).applySects k l

/-- The apply of stage `k`, whose sections are `l`, begins. -/
def State.stageApply (s : State) (k : Nat) (l : List Sect) : State :=
  (s.setBoot (fun b => { b with mask := 0, starts := [], sects := b.sects + l.length })).applySects k l

/-- A domain has come up or gone down: an apply that waited for it and step 8 go on (R424, R432). -/
def State.bootGo (s : State) : State :=
  if s.boot.ph == 4 then s.applySects s.boot.stage s.boot.todo
  else if s.boot.step == 8 then s.stepEight
  else s

/-- No image: NOIMG, and steps 7 to 10 with nothing applied (R436). -/
def State.noImage (s : State) : State :=
  let s1 := (((s.put F.bootStatusNoimg 1).put F.bootStatusSrc 0).put F.sysStateWarm 0).wr R.bootImageId 0#32
  let s2 := s1.flog 0x0D (s1.rd R.bootStatus) 0#32
  let s3 := s2.setBoot (fun b => { b with ph := 0, back := 0, ended := true, hdr := [], pol := [], wsEn := false, wsTodo := false })
  (s3.permClear.chimeCopy).stepEight

/-- The verification has read the flash: 1 equal, 2 a valid image that differs, 3 no usable image (R440). -/
def State.verdict (s : State) (c : Nat) : State := s.setBoot (fun b => { b with cmp := c, ph := 0, back := 0, tries := 0 })

/-- The stage that is read is abandoned: the boot ends with it (R427, R436, R437). -/
def State.abandon (s : State) : State :=
  let s1 := s.put F.bootStatusAbandoned 1
  if s.boot.verify then (s1.flog 0x0D (s1.rd R.bootStatus) 0#32).verdict 3
  else if s.boot.step == 6 then s1.noImage
  else (s1.flog 0x0D (s1.rd R.bootStatus) (BitVec.ofNat 32 s.boot.stage)).setBoot (fun b => { b with ended := true, ph := 0, back := 0 })

/-- A read attempt fails (R427). -/
def State.readFail (s : State) : State :=
  let s1 := s.bump F.bootStatusRetries 1
  if 7 ≤ s.boot.tries then s1.abandon
  else s1.setBoot (fun b => { b with back := b.ph, ph := 0, tries := b.tries + 1 })

/-- Stage 0 has passed its checks: `all` is its bytes from the header on (R431, R424 steps 6 to 9). -/
def State.stage0 (s : State) (all : List Byte) (l : List Sect) (auth : Nat) : State :=
  let warm := s.boot.warm
  let s1 := (((s.put F.bootStatusAuth auth).put F.bootStatusSrc (if warm then 2 else 1)).put F.bootImageIdId (s.hdrW 0x20)).permClear
  let s2 := s1.setBoot (fun b => { b with tags := (all.drop 0x40).take 128, pol := [], wsEn := false })
  s2.stageApply 0 l

/-- A stage's commit has applied: its start lists run (R431, R437). -/
def State.bootFollow (s : State) : State :=
  let k := s.boot.stage
  if s.boot.wait && s.get (F.mdHostAppSeq 4) == k then
    let s1 := (s.setBoot (fun b => { b with wait := false, done := k + 1 })).runStarts
    (s1.put F.sysStateStage k).put F.pwrEvtStageDone 1
  else s

/-! ## The warm-start record (R438 to R440) -/

/-- What the record holds, when R439 lets step 6 use it: the copy, its sections and authentication. -/
def State.recordOk (s : State) (r c : List Byte) : Option (List Byte × List Sect × Nat) :=
  let h := c.take 64
  if !hdrValid h || leAt h 0x0C 4 != c.length || crc32 c != BitVec.ofNat 32 (leAt r 12 4) then none
  else match stageSects h 0 0 (c.drop (hdrStart h)) with
    | none => none
    | some l =>
      let a := s.authOf h ((c.drop 0x40).take 128) 0 (c.drop (hdrStart h)) true
      if a == 2 then none else some (c, l, a)

/-- The record is read: its header, then the copy (R438, R439). -/
def State.warmRecord (s : State) : Option (List Byte × List Sect × Nat) × State :=
  let q := s.mramBytes 0x07000000 32
  match q.1 with
  | none => (none, q.2)
  | some r =>
    let len := leAt r 8 4
    if leAt r 0 4 != 0x57444C53 || leAt r 4 4 != 1 || decide (262144 < len) || decide (len < 64) then (none, q.2)
    else
      let x := q.2.mramBytes 0x07001000 len
      match x.1 with
      | none => (none, x.2)
      | some c => (x.2.recordOk r c, x.2)

/-- PDMASK of the header in use joins the power requests (R424 step 8). -/
def State.pdMask (s : State) : State :=
  (s.wr R.pwrReq (s.rd R.pwrReq ||| BitVec.ofNat 32 (leAt s.boot.hdr 0x1E 1 / 4 * 4))).powerAll

/-- Step 6 takes the record (R439). -/
def State.warmTake (s : State) (h : List Byte) : State :=
  let s1 := ((s.put F.sysStateWarm 1).put F.bootStatusSrc 2).cntInc 1
  (s1.setBoot (fun b => { b with hdr := h, warm := true, ph := 3, tries := 0, stage := 0, sects := 0 })).pdMask

/-- A valid flash header is in use, and stage 0 is read (R426, R429). -/
def State.hdrTake (s : State) (h : List Byte) : State :=
  let s1 := s.setBoot (fun b => { b with hdr := h, ph := 3, tries := 0, stage := 0 })
  if s.boot.verify then s1
  else (((s1.put F.sysStateWarm 0).put F.bootStatusSrc 1).setBoot (fun b => { b with warm := false, sects := 0 })).pdMask

/-- The flash holds no image (R426, R429). -/
def State.hdrNone (s : State) : State := if s.boot.verify then s.verdict 3 else s.noImage

/-- A header read from flash completes (R426, R427, R429). -/
def State.hdrRead (s : State) (h : List Byte) : State :=
  if h.length != 64 then s.readFail
  else if !magicOk h then (if s.boot.ph == 1 then s.setBoot (fun b => { b with ph := 2 }) else s.hdrNone)
  else if !hcrcOk h then s.readFail
  else if !hdrFields h then s.hdrNone
  else s.hdrTake h

/-- Step 6 takes stage 0 from the warm-start record. -/
def State.step6Warm (s : State) : Bool := s.boot.step == 6 && s.boot.warm

/-- A flash read has come to its end: HP0 drives again, after another master was seen (R400, R401). -/
def State.flashEnd (s : State) : State := s.setHp 0 (fun p => { p with off := false })

/-- HEADER_READ_DONE. Where the record is marked valid it is the record's read that completes: it is taken, or refused, and then the
flash's header is read. -/
def State.headerDone (s : State) (h : List Byte) : State :=
  if !s.bootReads || !(s.boot.ph == 1 || s.boot.ph == 2) then s
  else if s.recordFirst then
    match s.warmRecord with
    | (some r, t) => t.warmTake (r.1.take 64)
    | (none, t) => t.setBoot (fun b => { b with noWarm := true })
  else if s.boot.step == 6 && s.boot.ph == 1 && s.boot.tries == 0 && !s.boot.noWarm then s.flashEnd.warmRecord.2.hdrRead h
  else s.flashEnd.hdrRead h

/-- Stage `k`'s bytes from S0 on, as `bytes` read from flash hold them: stage 0 comes with what follows its header. -/
def State.stageBody (s : State) (k : Nat) (bytes : List Byte) : List Byte :=
  if k = 0 then bytes.drop (hdrStart s.boot.hdr - 64) else bytes

/-- The sections of the stage, if it has its length and they pass their checks (R430, R431). -/
def State.stageParse (s : State) (k : Nat) (bytes : List Byte) : Option (List Sect) :=
  let want := if k = 0 then s.stageEnd 0 - 64 else s.stageEnd k - s.stageFrom k
  if bytes.length == want then stageSects s.boot.hdr k (if k = 0 then 0 else s.boot.sects) (s.stageBody k bytes)
  else none

/-- The record's copy equals the flash's header and stage 0 (R440); an unreadable copy does not. -/
def State.sameAsRecord (s : State) (all : List Byte) : Bool × State :=
  let q := s.mramBytes 0x07001000 all.length
  (q.1 == some all, q.2)

/-- The stage's checks: its sections and authentication follow, or the attempt fails (R427, R431, R433 to R436). The
verification compares a flash image that passes them with the record (R440). -/
def State.stageCheck (s : State) (k : Nat) (bytes : List Byte) : State :=
  let h := s.boot.hdr
  let tags := if k = 0 then bytes.take 128 else s.boot.tags
  match s.stageParse k bytes with
  | none => s.readFail
  | some l =>
    let a := s.authOf h tags k (s.stageBody k bytes) false
    if s.boot.verify then
      (if a == 2 then (s.put F.bootStatusAuth 2).verdict 3 else (s.sameAsRecord (h ++ bytes)).2.verdict (if (s.sameAsRecord (h ++ bytes)).1 then 1 else 2))
    else if a == 2 then
      (if k = 0 then (s.put F.bootStatusAuth 2).noImage else (s.put F.bootStatusAuthErr 1).abandon)
    else if k = 0 then s.stage0 (h ++ bytes) l a
    else s.stageApply k l

/-- Groups of shared memory that the staging area reaches, as a mask. -/
def State.stagingMask (s : State) (k n : Nat) : Nat :=
  (List.range 12).foldl (fun (m : Nat) g => if meets (s.staging k).1 n (g * 2 ^ 20) (2 ^ 20) then m ||| (1 <<< g) else m) 0

/-- An access of the sequencer to the staging area meets a group that refuses it, and has not waited for its wake (R339, R340). -/
def State.stagingRefused (s : State) (k n : Nat) : Bool :=
  (List.range 12).any (fun g => (s.stagingMask k n).testBit g && !s.boot.memOld.testBit g &&
    [1, 2].contains (s.get (F.smemRetStatState g)))

/-- BOOT_READ_DONE: `bytes` are the flash's bytes of the stage, for stage 0 those after the header. A staging area in a group that
wakes makes the read wait (R340), and one in a group that refuses accesses fails the attempt (R339). -/
def State.stageDone (s : State) (bytes : List Byte) : State :=
  let k := s.boot.stage
  let n := (s.staging k).2
  let u := s.setBoot (fun b => { b with memOld := 0 })
  if !s.bootReads || s.boot.ph != 3 then s
  else if !s.boot.verify && s.stagingIn k n [3] then s.setBoot (fun b => { b with memOld := b.memOld ||| s.stagingMask k n })
  else if !s.boot.verify && s.stagingRefused k n then (u.fail errRet).readFail
  else if s.step6Warm then
    match u.warmRecord with
    | (some r, t) => (t.staged 0 r.1).stage0 r.1 r.2.1 r.2.2
    | (none, t) => t.setBoot (fun b => { b with ph := 1, noWarm := true, warm := false })
  else if s.boot.verify then u.flashEnd.stageCheck k bytes
  else (u.flashEnd.staged k (((if k = 0 then s.boot.hdr else []) ++ bytes).take n)).stageCheck k bytes

/-- BOOT_RETRY_BACKOFF: the failed read is made again (R427). -/
def State.retry (s : State) : State :=
  if s.boot.back == 0 then s else s.setBoot (fun b => { b with ph := b.back, back := 0 })

/-- STAGE_READ_START (R432, R437). -/
def State.stageStart (s : State) (k : Nat) : State :=
  if s.boot.step == 11 && s.st != stSafe && !s.boot.ended && !s.boot.wait && !s.boot.verify && !s.boot.wsTodo &&
      s.boot.ph == 0 && s.boot.back == 0 && k != 0 && s.nextStage == k then
    let s1 := s.setBoot (fun b => { b with stage := k, tries := 0, ph := 3 })
    if 0xC00000 < (s1.staging k).1 + (s1.staging k).2 then (s1.put F.bootStatusDestErr 1).abandon else s1
  else s

/-- The record's word writes for the copy `c`, in the order of R438. -/
def recordWords (c : List Byte) : List (Nat × List Byte) :=
  let w := fun (v : Nat) => wordBytes (BitVec.ofNat 32 v)
  [(0x07000004, w 0)] ++ (List.range ((c.length + 7) / 8)).map (fun i => (0x07001000 + 8 * i, (c.drop (8 * i)).take 8)) ++
    [(0x07000000, w 0x57444C53), (0x07000008, w c.length ++ wordBytes (crc32 c)), (0x07000010, w (leAt c 0x20 4)), (0x07000004, w 1)]

/-- Writes of the record begin: kind 1 the record, 2 its invalidation alone; they enter the queue as it has room (R353, R438). -/
def State.recordStart (s : State) (kind : Nat) (l : List (Nat × List Byte)) : State :=
  (s.setBoot (fun b => { b with wsGo := kind, wsRest := l, memOld := 0 })).recordFeed

/-- The error of an access of the boot sequencer is reported; the answer to the command's own access stands. -/
def State.bootUe (s : State) (u : Nat) : State := { s.ueSeen u with resp := s.resp }

/-- The record of the image just booted is written from the staging area. A copy that cannot be read leaves the record invalid, and a
header whose words cannot be read-modify-written stays as it is. -/
def State.recordWrite (s : State) : State :=
  let len := s.stageEnd 0
  let off := [(0x07000004, wordBytes 0#32)]
  match (s.ueIn 0x07000000 8 8).or (s.ueIn 0x07000010 8 8) with
  | some u => (s.bootUe u).setBoot (fun b => { b with wsTodo := false, memOld := 0 })
  | none =>
    if s.stagingRefused 0 len then { s.fail errRet with resp := s.resp }.recordStart 2 off
    else match s.ueIn 0x00BC0000 len 4 with
      | some u => (s.bootUe u).recordStart 2 off
      | none => (s.draw.2.conflict 6 s.draw.1.toNat).recordStart 1 (recordWords (s.rbs 0x00BC0000 len))

/-- With WS_EN = 0 a valid record is made invalid; its header is read first (R357, R438). -/
def State.recordOff (s : State) : State :=
  match s.mramBytes 0x07000000 8 with
  | (none, t) => t.setBoot (fun b => { b with wsTodo := false })
  | (some h, t) =>
    if leAt h 0 4 == 0x57444C53 && leAt h 4 4 == 1 then t.recordStart 2 [(0x07000004, wordBytes 0#32)]
    else t.setBoot (fun b => { b with wsTodo := false })

/-- WARM_START_WRITE: the boot sequencer begins to write the record of a flash boot, or its invalidation with WS_EN = 0 (R438). A
staging area in a group that wakes makes it wait (R340). -/
def State.warmWrite (s : State) : State :=
  if !(s.boot.wsTodo && s.boot.step == 11) || s.boot.wsGo != 0 then s
  else if !s.boot.wsEn then s.recordOff
  else if s.stagingIn 0 (s.stageEnd 0) [3] then s.setBoot (fun b => { b with memOld := b.memOld ||| s.stagingMask 0 (s.stageEnd 0) })
  else s.recordWrite

/-- WARM_VERIFY_DONE: the flash equals the record, holds a valid image that differs, or no usable image (R440). A drain or HALT
under way absorbs the reload's drain, and steps 6 to 10 run in it (R42). -/
def State.verifyDone (s : State) : State :=
  if !s.boot.verify then s
  else match s.boot.cmp with
    | 0 => s
    | 1 => (s.put F.bootStatusWsVerified 1).setBoot (fun b => { b with verify := false, ph := 0, back := 0, tries := 0 })
    | 2 =>
      let s1 := (s.put F.bootStatusWsMismatch 1).flog 0x0E 0#32 (BitVec.ofNat 32 (s.hdrW 0x20))
      let s2 := s1.setBoot (fun b => { b with verify := false, ended := true, ph := 0, back := 0 })
      if s.st == stDrain || s.st == stHalt then s2.reloadBoot else s2.setSys (fun y => { y with dueReload := true, late := s2.lateDue 2 s2.sys.dueReload })
    | _ => (s.put F.bootStatusFlashErr 1).setBoot (fun b => { b with verify := false, ended := true, ph := 0, back := 0 })

/-! ## Meanings -/

/-- COMMIT_APPLY: the swap at E_B, and the start lists of a stage whose commit it was (R120, R431). -/
def execCommitApply (s : State) : Out := .next s.commitApply.bootFollow.settle
def execPowerDomainUp (d : Fin 8) (s : State) : Out := .next (s.domainUp d).bootGo
def execPowerDomainDown (d : Fin 8) (s : State) : Out :=
  .next (if d == 0 then s else if d == 1 then s.pd1Down else (s.domainDown d).bootGo)
def execHeaderReadDone (bytes : List Byte) (s : State) : Out := .next (s.headerDone bytes).settle
def execBootReadDone (x : Timed (List Byte)) (s : State) : Out := .next ((s.atCyc x.cyc).stageDone x.what).settle
def execBootRetryBackoff (s : State) : Out := .next s.retry
def execStageReadStart (k : Fin 4) (s : State) : Out := .next (s.stageStart k)
def execWarmStartWrite (s : State) : Out := .next s.warmWrite
def execWarmVerifyDone (cyc : Nat) (s : State) : Out := .next (s.atCyc cyc).verifyDone

end Sys2Proof.Machine
end

