-- ==== Sys2Proof/Machine/Link.lean ====
section
/-! DEFINITION. Host ports: frames, the end-of-frame checks, the commands of the link protocol, replies, and master mode
(R374 to R402). -/

namespace Sys2Proof.Machine

/-! ## Replies (R386, Tables 13-3 and 13-4) -/

/-- The STATUS codes. -/
def stOk : Nat := 0
def stAborted : Nat := 1
def stCrcErr : Nat := 2
def stBadOp : Nat := 3
def stDenied : Nat := 4
def stBusErr : Nat := 5
def stRefused : Nat := 6

/-- INFO of a reply to host `h` that is built now. -/
def State.info (s : State) (h : Nat) (side split : Bool) (detail arg : Nat) : Nat :=
  b2n side * 2 ^ 31 + b2n split * 2 ^ 30 + b2n (s.irqOut h) * 2 ^ 29 + detail * 2 ^ 24 + arg % 2 ^ 16

/-- Bits of a reply on the wire (R386). -/
def State.replyBits (s : State) (h : Nat) (r : Reply) : Nat := 64 + 32 * r.data.length + 16 * b2n (s.flag (F.hpCfgRcrc h))

/-- The big-endian bytes of a word (R377). -/
def beBytes (v : Word) : List Byte := (wordBytes v).reverse

/-- A reply as the bytes that SDO shifts: header, data, and the CRC trailer when RCRC is 1 (R386, R391). -/
def Reply.wire (r : Reply) (rcrc : Bool) : List Byte :=
  let b := [BitVec.ofNat 8 r.status, BitVec.ofNat 8 r.tag, BitVec.ofNat 8 (r.data.length / 256), BitVec.ofNat 8 r.data.length] ++
    beBytes (BitVec.ofNat 32 r.info) ++ r.data.flatMap beBytes
  let c := crc16 b
  if rcrc then b ++ [c.extractLsb' 8 8, c.extractLsb' 0 8] else b

/-- A DENIED reply counts (R395). -/
def State.denyCount (s : State) (h : Nat) : State := (s.bump (F.hpErrCntDenied h) 1).put (F.hpStatusDenyEvt h) 1

/-- The reply of the frame in execution is built; it becomes ready later. -/
def State.build (s : State) (h : Nat) (r : Reply) : State :=
  let s1 := if r.status == stDenied then s.denyCount h else s
  s1.setHp h (fun p => { p with req := none, built := some r, served := 0, data := [], held := false, woken := none })

/-! ## Frames (R375 to R379, R387, R388) -/

/-- Port `h` acts as a slave: MASTER = 0, EN = 1, PD1 on, and the boot sequencer does not master it. -/
def State.slave (s : State) (h : Nat) : Bool :=
  s.pd1On && !s.flag (F.hpCfgMaster h) && s.flag (F.hpCfgEn h) && !s.bootMasters h

/-- A frame of the port is in execution. -/
def Port.busy (p : Port) : Bool := p.req.isSome || p.built.isSome

/-- FRAME_START: SEL_N falls. A slave shifts its ready reply or the busy pattern. -/
def State.frameStart (s : State) (h : Nat) : State :=
  if (s.hport h).low then s
  else
    let on := s.slave h
    s.setHp h (fun p => { p with
      low := true
      sel := on
      mode := if on && p.ready.isSome then 1 else if p.busy then 2 else 0 })

/-- A frame's header fields: OP, TAG, WORDS, ADDR. -/
structure Head where
  op : Nat
  tag : Nat
  words : Nat
  addr : Nat
  deriving DecidableEq, Repr

/-- The header of a frame of at least 64 bits. -/
def headOf (b : List Byte) : Head := ⟨beNat (b.take 1), beNat ((b.drop 1).take 1), beNat ((b.drop 2).take 2), beNat ((b.drop 4).take 4)⟩

/-- Payload words of a command (Table 13-1). -/
def Head.payload (x : Head) : Nat :=
  match x.op % 64 with
  | 0 => x.words
  | 2 => x.words
  | 3 => 2
  | 5 => 8
  | _ => 0

/-- OP[7] CRC and OP[6] FIX. -/
def Head.crc (x : Head) : Bool := x.op.testBit 7
def Head.fix (x : Head) : Bool := x.op.testBit 6

/-- The implied bit count (R377). -/
def Head.bits (x : Head) : Nat := 64 + 32 * x.payload + 16 * b2n x.crc

/-- The header is valid by Table 13-1 and R378. -/
def Head.ok (x : Head) (rcrc : Bool) : Bool :=
  let c := x.op % 64
  (!x.fix || c == 1 || c == 2) &&
  match c with
  | 0 => decide (x.words ≤ 126) && x.addr == 0 && decide (32 * x.words + 16 * b2n x.crc ≤ 4032)
  | 1 => decide (1 ≤ x.words) && decide (x.words ≤ 126) && x.addr % 4 == 0 && decide (32 * x.words + 16 * b2n rcrc ≤ 4032)
  | 2 => decide (1 ≤ x.words) && decide (x.words ≤ 126) && x.addr % 4 == 0 && decide (32 * x.words + 16 * b2n x.crc ≤ 4032)
  | 3 => x.words == 2 && x.addr % 4 == 0
  | 4 => x.words == 0 && fieldOf x.addr 12 4 == 0
  | 5 => x.words == 8 && x.addr == 0
  | 6 => x.words == 0 && decide (x.addr < 2)
  | 7 => x.words == 0 && x.addr == 0
  | _ => false

/-- The address of word `i` of a frame. -/
def wordAddr (op addr i : Nat) : Nat := if op.testBit 6 then addr else (addr + 4 * i) % 2 ^ 32

/-- The windows allow every access of the frame (R392, Table 13-6). -/
def State.frameMay (s : State) (h : Nat) (x : Head) : Bool :=
  match x.op % 64 with
  | 1 => (List.range x.words).all (fun i => s.permits h 0 (wordAddr x.op x.addr i))
  | 2 => (List.range x.words).all (fun i => s.permits h 1 (wordAddr x.op x.addr i))
  | 3 => s.permits h 0 x.addr && s.permits h 1 x.addr
  | 4 => s.permCommit h (x.addr % 2 ^ 12)
  | 5 => s.permits h 1 0x08070000
  | 6 => s.permits h 1 0x08004000
  | _ => true

/-- The trailer matches, and is there when it must be (Table 13-2, check 4). -/
def State.trailerOk (s : State) (h : Nat) (x : Head) (b : List Byte) : Bool :=
  if x.crc then
    let n := b.length - 2
    (crc16 (b.take n)).toNat == beNat (b.drop n)
  else !s.flag (F.hpCfgCrcReq h)

/-- The first check of Table 13-2 that a frame of `n` bits fails: STATUS and ARG. -/
def State.frameCheck (s : State) (h : Nat) (b : List Byte) (n : Nat) : Option (Nat × Nat) :=
  let x := headOf b
  if n < 64 then some (stAborted, n)
  else if !x.ok (s.flag (F.hpCfgRcrc h)) then some (stBadOp, 0)
  else if n != x.bits then some (stAborted, min n 4097)
  else if !s.trailerOk h x b then some (stCrcErr, 0)
  else if !s.frameMay h x then some (stDenied, 0)
  else none

/-- The count and the event of a failed check; those of DENIED come with its reply. -/
def State.checkCount (s : State) (h st : Nat) : State :=
  if st == stAborted then (s.bump (F.hpErrCntAborted h) 1).put (F.hpStatusAbortEvt h) 1
  else if st == stCrcErr then (s.bump (F.hpErrCntCrc h) 1).put (F.hpStatusCrcEvt h) 1
  else s

/-- A change of MASTER that waited takes effect once the port is idle (R398). -/
def State.modeSync (s : State) (h : Nat) : State :=
  let p := s.hport h
  match p.mchg with
  | some on => if p.low || p.busy then s else s.modeSet h on
  | none => s

/-- The reply that the ending frame carried counts as shifted, whole or truncated (R387). A frame ignored while another
executes leaves the reply that a RESEND in execution copies (R390). -/
def State.shiftOut (s : State) (h n : Nat) : State :=
  let p := s.hport h
  let r := if p.mode == 1 then p.ready else none
  let s1 := match r with
    | some x => s.setIf (decide (n < s.replyBits h x)) (F.hpStatusTrunc h)
    | none => s
  s1.setHp h (fun q => { q with prior := if q.req.isSome then q.prior else q.shifted, shifted := r, ready := if q.mode == 1 then none else q.ready })

/-- A frame that is neither empty nor ignored: a command to execute, or an error reply (R379). -/
def State.frameTake (s : State) (h : Nat) (b : List Byte) (n : Nat) : State :=
  let x := headOf b
  match s.frameCheck h b n with
  | some e =>
    let s1 := s.checkCount h e.1
    s1.build h ⟨e.1, if n < 16 then 0 else x.tag, s1.info h s.side false 0 e.2, []⟩
  | none =>
    let pay := (List.range x.payload).map (fun i => BitVec.ofNat 32 (beNat ((b.drop (8 + 4 * i)).take 4)))
    s.setHp h (fun p => { p with req := some (x.op, x.tag, x.words, x.addr, pay), served := 0, data := [], side := false, split := false, held := false, woken := none })

/-- FRAME_END: SEL_N rises after the bytes `b` and `extra` further bits, which the port sampled while EN was 1. A port that is
disabled then takes no frame, and a reply that it was shifting is truncated (R375, R387). -/
def State.frameEnd (s : State) (h : Nat) (b : List Byte) (extra : Nat) : State :=
  let p := s.hport h
  let n := 8 * b.length + extra
  let s1 := s.setHp h (fun q => { q with low := false, sel := false })
  if !p.low then s
  else if n = 0 || !(p.sel || s.slave h) then (s1.setHp h (fun q => { q with mode := 0 })).modeSync h
  else
    let s2 := (s1.shiftOut h n).setHp h (fun q => { q with mode := 0 })
    if !s.slave h then s2.modeSync h
    else if p.mode == 2 then ((s2.bump (F.hpErrCntBusy h) 1).put (F.hpStatusBusyEvt h) 1).modeSync h
    else s2.frameTake h b n

/-! ## Commands (R380 to R385, R390) -/

/-- Host `h` as a master. -/
def hostM (h : Nat) : Master := .host ⟨h % 4, Nat.mod_lt _ (by decide)⟩

/-- One word of the frame has been served: SIDE at the first, SPLIT when COUNT[0] has changed since (Table 13-4). -/
def State.serve (s : State) (h : Nat) (w : List Word) : State :=
  s.setHp h (fun p => { p with
    side := if p.served == 0 then s.side else p.side
    split := p.split || (p.served != 0 && s.side != p.side)
    served := p.served + 1
    data := p.data ++ w
    held := false
    woken := none })

/-- SIDE for a reply: of the first word served, else as it is now. -/
def State.sideOf (s : State) (h : Nat) : Bool := if (s.hport h).served == 0 then s.side else (s.hport h).side

/-- STATUS and DETAIL of a failed access (R381). -/
def Resp.status (r : Resp) : Nat × Nat :=
  match r with
  | .denied => (stDenied, 0)
  | .refused => (stRefused, 0)
  | .error k => (stBusErr, k)
  | _ => (stOk, 0)

/-- The frame stops at the word whose access failed (R381); `data` is what the reply carries. -/
def State.stop (s : State) (h tag : Nat) (data : List Word) : State :=
  let st := s.resp.status
  let n := (s.hport h).served
  s.build h ⟨st.1, tag, s.info h (s.sideOf h) (s.hport h).split st.2 n, data⟩

/-- The frame has been executed in full. -/
def State.complete (s : State) (h tag : Nat) (data : List Word) : State :=
  s.build h ⟨stOk, tag, s.info h (s.sideOf h) (s.hport h).split 0 0, data⟩

/-- The word at `a` waits for its group's wake; it has arrived there (R340). -/
def State.wakeWait (s : State) (h a : Nat) : State := s.setHp h (fun p => { p with woken := some a })

/-- The word at `a` has waited for its group's wake, which a later entry does not refuse (R339, R340). -/
def State.wokenAt (s : State) (h a : Nat) : Bool := (s.hport h).woken == some a

/-- Port `h` begins an access to the word at `a`. Where a higher-numbered port has begun one in this cycle, the order of R380 puts this
one into a later cycle: the next. -/
def State.portTurn (s : State) (h a : Nat) : State :=
  let key := 0x10000000000 + a / 4
  let t := if s.lastWriter key (h + 1) then s else s.atCyc (s.sys.cyc + 1)
  t.noteWriter key (h + 1)

/-- At most so many further words of a READ; a word that must wait for its memory leaves the frame in execution. -/
def State.readWords (s : State) (h op tag words addr : Nat) : Nat → State
  | 0 => s
  | n + 1 =>
    let i := (s.hport h).served
    let a := wordAddr op addr i
    if s.busWait a then s.wakeWait h a
    else
      let t := (s.portTurn h a).busRead (hostM h) a (s.wokenAt h a)
      if t.served then
        let u := t.serve h [t.rdata]
        if words ≤ i + 1 then u.complete h tag (u.hport h).data else u.readWords h op tag words addr n
      else t.stop h tag ((t.hport h).data ++ List.replicate (words - i) 0#32)

/-- The held write of host `h` at `a` has landed (R126, R345, R353). -/
def State.landed (s : State) (h a : Nat) : Bool :=
  !s.md.held.any (fun x => x.m == hostM h) && !(isVerm a && s.flag F.vermStatusSealing) && !(isMram a && s.mramWaits (hostM h))

/-- The held write of host `h` at `a` was abandoned with its seal: it fails with PERM (R349). -/
def State.sealFails (s : State) (a : Nat) : Bool := isVerm a && s.sm.sealLost
def State.sealFail (s : State) (h : Nat) : State := ({ s with sm := { s.sm with sealLost := false } }).vermRefuse (hostM h)

/-- At most so many further words of a WRITE; a held word leaves the frame in execution (R126, R345, R353). -/
def State.writeWords (s : State) (h op tag words addr : Nat) (pay : List Word) : Nat → State
  | 0 => s
  | n + 1 =>
    let i := (s.hport h).served
    let a := wordAddr op addr i
    let go := fun (t : State) =>
      let u := t.serve h []
      if words ≤ i + 1 then u.complete h tag [] else u.writeWords h op tag words addr pay n
    if (s.hport h).held then
      (if s.sealFails a then (s.sealFail h).stop h tag [] else if s.landed h a then go s else s)
    else if s.busWait a then s.wakeWait h a
    else
      let t := (s.portTurn h a).busWrite (hostM h) a ((pay[i]?).getD 0#32) (s.wokenAt h a)
      match t.resp with
      | .ok => go t
      | .held => t.setHp h (fun p => { p with held := true })
      | _ => t.stop h tag []

/-- A write of the word at `a` would be held now, or could not enter the queue of MRAM writes: RMW waits with its read. -/
def State.wouldHold (s : State) (a : Nat) : Bool :=
  (match objOf a with
   | some k => s.frozen k && !s.shHidden a
   | none => false) || (isVerm a && decide (a < 0x03002000) && s.flag F.vermStatusSealing) ||
  (isMram a && decide (8 ≤ s.sm.wq.length))

/-- RMW: the read and the write of one word with nothing between (R382); a write of MRAM is served once it stands in the
array (R353). -/
def State.rmw (s : State) (h tag a : Nat) (mask val : Word) : State :=
  if (s.hport h).held then
    (if s.landed h a then
      let d := (s.hport h).data
      (s.serve h []).complete h tag d
     else s)
  else if s.busWait a then s.wakeWait h a
  else if s.wouldHold a then s
  else
    let t := (s.portTurn h a).busRead (hostM h) a (s.wokenAt h a)
    if !t.served then t.stop h tag [0#32]
    else
      let u := t.busWrite (hostM h) a ((t.rdata &&& ~~~mask) ||| (val &&& mask)) (s.wokenAt h a)
      match u.resp with
      | .ok => (u.serve h []).complete h tag [t.rdata]
      | .held => u.setHp h (fun p => { p with held := true, data := [t.rdata] })
      | _ => u.stop h tag [t.rdata]

/-- Port `h` executes a frame whose command is `c`. -/
def State.link (s : State) (h c : Nat) (f : Nat → Nat → Nat → Nat → List Word → State) : State :=
  match (s.hport h).req with
  | some (op, tag, words, addr, pay) => if op % 64 == c && s.powered 1 then (f op tag words addr pay).settle else s
  | none => s

/-- COMMIT (R383). -/
def State.linkCommit (s : State) (h tag addr : Nat) : State :=
  let t := s.commitReq (hostM h) (fieldOf addr 16 16) (fieldOf addr 0 12)
  if t.served then t.complete h tag [] else t.build h ⟨t.resp.status.1, tag, t.info h t.side false 0 0, []⟩

/-- SUBMIT (R384). -/
def State.linkSubmit (s : State) (h tag : Nat) (pay : List Word) : State :=
  let r := s.vatOffer pay .host (some h)
  r.2.build h ⟨if r.1 == 0 then stOk else stRefused, tag, r.2.info h r.2.side false 0 r.1, []⟩

/-- RESEND: a copy of the reply shifted in the frame before, or the RESET reply (R390); a copy of a DENIED reply is a DENIED
reply, and counts (R395). -/
def State.resend (s : State) (h : Nat) : State := s.build h (((s.hport h).prior).getD (s.resetNow h))

/-- REPLY_READY: the reply is ready; a change of MASTER discards it (R390, R398, Table 13-5). -/
def State.replyReady (s : State) (h : Nat) : State :=
  let p := s.hport h
  match p.built with
  | none => s
  | some r =>
    let s1 := s.setHp h (fun q => { q with built := none })
    if p.mchg.isSome then (s1.put (F.hpStatusTrunc h) 1).modeSync h
    else s1.setHp h (fun q => { q with ready := some r })

/-! ## Master mode (R399, R400) -/

/-- The first `n` bits received stand in HPn_MRXw, bit 31 of word 0 first; the rest is unchanged (R399). -/
def State.rxBits (s : State) (h n : Nat) (rx : List Word) : State :=
  (List.range ((n + 31) / 32)).foldl (fun (t : State) (w : Nat) =>
    let b := 32 - min 32 (n - 32 * w)
    let keep := (t.rd (R.hpMrx h w)).toNat % 2 ^ b
    t.wr (R.hpMrx h w) (BitVec.ofNat 32 (((rx[w]?).getD 0#32).toNat / 2 ^ b * 2 ^ b + keep))) s

/-- Another master is seen: the port lets go, with the `n` bits received by then (R400), until its next GO or, where the boot
sequencer masters it, until its next flash read begins; a flash read under way fails (R401, R427). -/
def State.mmFault (s : State) (h n : Nat) (rx : List Word) : State :=
  if s.bootMasters h then
    let s1 := (s.put (F.hpStatusMmFault h) 1).setHp h (fun p => { p with off := true })
    if s.bootReading then s1.readFail else s1
  else if s.flag (F.hpCfgMaster h) then
    let s1 := if (s.hport h).mrun then s.rxBits h (min n (s.get (F.hpLenLen h))) rx else s
    ((s1.put (F.hpStatusMmFault h) 1).put (F.hpStatusMbusy h) 0).setHp h (fun p => { p with mrun := false, off := true })
  else s

/-- MASTER_FRAME_START: after the idle wait and the sense; `sel` tells that SEL_N reads low (Table 13-8, R400). -/
def State.mStart (s : State) (h : Nat) (sel : Bool) : State :=
  if !(s.flag (F.hpCfgMaster h) && s.flag (F.hpStatusMbusy h)) || (s.hport h).mrun then s
  else if sel then s.mmFault h 0 []
  else s.setHp h (fun p => { p with mrun := true })

/-- MASTER_FRAME_DONE: LEN bits have been received (R399). -/
def State.mDone (s : State) (h : Nat) (rx : List Word) : State :=
  if !((s.hport h).mrun && s.flag (F.hpStatusMbusy h)) then s
  else
    (((s.rxBits h (s.get (F.hpLenLen h)) rx).put (F.hpStatusMbusy h) 0).put (F.hpStatusMdone h) 1).setHp h
      (fun p => { p with mrun := false })

/-! ## Meanings -/

def execFrameStart (h : Fin 4) (s : State) : Out := .next (s.frameStart h)
def execFrameEnd (h : Fin 4) (bits : List Byte) (extra cyc : Nat) (s : State) : Out :=
  .next ((s.atCyc cyc).frameEnd h bits extra)
def execLinkNop (h : Fin 4) (s : State) : Out := .next (s.link h 0 (fun _ tag _ _ _ => s.complete h tag []))
/-- LINK_READ: at most `x.n` further words are served; a frame takes as many commands as its sender cuts it into, so that other
masters come between (R380). -/
def execLinkRead (x : Serve) (s : State) : Out :=
  let t := s.atCyc x.cyc
  .next (t.link x.h 1 (fun op tag words addr _ => t.readWords x.h op tag words addr (min x.n words)))
/-- LINK_WRITE: at most `x.n` further words are served, in cycle `x.cyc` of the tick, from which R58 counts (Table 13-9). -/
def execLinkWrite (x : Serve) (s : State) : Out :=
  let t := s.atCyc x.cyc
  .next (t.link x.h 2 (fun op tag words addr pay => t.writeWords x.h op tag words addr pay (min x.n words)))
def execLinkRmw (h : Timed (Fin 4)) (s : State) : Out :=
  let t := s.atCyc h.cyc
  .next (t.link h.what 3 (fun _ tag _ addr pay => t.rmw h.what tag addr ((pay[0]?).getD 0#32) ((pay[1]?).getD 0#32)))
def execLinkCommit (h : Timed (Fin 4)) (s : State) : Out :=
  let t := s.atCyc h.cyc
  .next (t.link h.what 4 (fun _ tag _ addr _ => t.linkCommit h.what tag addr))
def execLinkSubmit (h : Fin 4) (s : State) : Out := .next (s.link h 5 (fun _ tag _ _ pay => s.linkSubmit h tag pay))
/-- LINK_SNAP_ARM is SNAP with ADDR[0] = 0 (R385). -/
def execLinkSnapArm (h : Fin 4) (s : State) : Out :=
  .next (s.link h 6 (fun _ tag _ addr _ => if addr == 0 then s.snapArm.complete h tag [] else s))
/-- LINK_SNAP_TRIGGER is SNAP with ADDR[0] = 1 (R385). -/
def execLinkSnapTrigger (h : Fin 4) (s : State) : Out :=
  .next (s.link h 6 (fun _ tag _ addr _ => if addr == 1 then ((s.fire 0).settle).complete h tag [] else s))
def execLinkResend (h : Fin 4) (s : State) : Out := .next (s.link h 7 (fun _ _ _ _ _ => s.resend h))
def execReplyReady (h : Fin 4) (s : State) : Out := .next (s.replyReady h)
def execMasterFrameStart (h : Fin 4) (sel : Bool) (s : State) : Out := .next (s.mStart h sel)
def execMasterFrameDone (h : Fin 4) (rx : List Word) (s : State) : Out := .next (s.mDone h rx)
def execMmFault (x : Seen) (s : State) : Out := .next (s.mmFault x.h x.n x.rx)

end Sys2Proof.Machine
end

