-- ==== Sys2Proof/Machine/Dispatch.lean ====
section
/-! DEFINITION. The meaning of every command: one arm for each constructor of Instr. -/

namespace Sys2Proof.Machine

def exec (i : Instr) (s : State) : Host.Outcome State Fault Refusal :=
  match i with
  | .registerWrite m a v size cyc => Sys2Proof.Machine.execRegisterWrite m a v size cyc s
  | .readToClear m a => Sys2Proof.Machine.execReadToClear m a s
  | .rlLowRead m a => Sys2Proof.Machine.execRlLowRead m a s
  | .reepoch m => Sys2Proof.Machine.execReepoch m s
  | .engineStartRequest m e cyc => Sys2Proof.Machine.execEngineStartRequest m e cyc s
  | .engineStart e => Sys2Proof.Machine.execEngineStart e s
  | .engineStopRequest m e cyc => Sys2Proof.Machine.execEngineStopRequest m e cyc s
  | .engineStop e => Sys2Proof.Machine.execEngineStop e s
  | .liveHold m e on cyc => Sys2Proof.Machine.execLiveHold m e on cyc s
  | .clrstate m e => Sys2Proof.Machine.execClrstate m e s
  | .engineClearDone e => Sys2Proof.Machine.execEngineClearDone e s
  | .programMemoryWrite m e off v => Sys2Proof.Machine.execProgramMemoryWrite m e off v s
  | .liveWordWrite m e w v cyc => Sys2Proof.Machine.execLiveWordWrite m e w v cyc s
  | .delayStoreFabricAccess m e off wr x => Sys2Proof.Machine.execDelayStoreFabricAccess m e off wr x s
  | .teMacSlot e => Sys2Proof.Machine.execTeMacSlot e s
  | .teDelayRead e => Sys2Proof.Machine.execTeDelayRead e s
  | .teInterpolatedRead e => Sys2Proof.Machine.execTeInterpolatedRead e s
  | .teDelayWrite e => Sys2Proof.Machine.execTeDelayWrite e s
  | .teIllegalSlot e => Sys2Proof.Machine.execTeIllegalSlot e s
  | .teNop e => Sys2Proof.Machine.execTeNop e s
  | .teLdi e => Sys2Proof.Machine.execTeLdi e s
  | .teMov e => Sys2Proof.Machine.execTeMov e s
  | .teLdc e => Sys2Proof.Machine.execTeLdc e s
  | .teAdd e => Sys2Proof.Machine.execTeAdd e s
  | .teSub e => Sys2Proof.Machine.execTeSub e s
  | .teRsb e => Sys2Proof.Machine.execTeRsb e s
  | .teAdds e => Sys2Proof.Machine.execTeAdds e s
  | .teSubs e => Sys2Proof.Machine.execTeSubs e s
  | .teAnd e => Sys2Proof.Machine.execTeAnd e s
  | .teOr e => Sys2Proof.Machine.execTeOr e s
  | .teXor e => Sys2Proof.Machine.execTeXor e s
  | .teMin e => Sys2Proof.Machine.execTeMin e s
  | .teMax e => Sys2Proof.Machine.execTeMax e s
  | .teMinu e => Sys2Proof.Machine.execTeMinu e s
  | .teMaxu e => Sys2Proof.Machine.execTeMaxu e s
  | .teAsr e => Sys2Proof.Machine.execTeAsr e s
  | .teLsr e => Sys2Proof.Machine.execTeLsr e s
  | .teLsl e => Sys2Proof.Machine.execTeLsl e s
  | .teAbs e => Sys2Proof.Machine.execTeAbs e s
  | .teNeg e => Sys2Proof.Machine.execTeNeg e s
  | .teCmp e => Sys2Proof.Machine.execTeCmp e s
  | .teFop e => Sys2Proof.Machine.execTeFop e s
  | .teFset e => Sys2Proof.Machine.execTeFset e s
  | .teAmov e => Sys2Proof.Machine.execTeAmov e s
  | .teAint e => Sys2Proof.Machine.execTeAint e s
  | .teAadd e => Sys2Proof.Machine.execTeAadd e s
  | .teAccld e => Sys2Proof.Machine.execTeAccld e s
  | .teAccadd e => Sys2Proof.Machine.execTeAccadd e s
  | .teEmit e => Sys2Proof.Machine.execTeEmit e s
  | .commitRequest m seq mask cyc => Sys2Proof.Machine.execCommitRequest m seq mask cyc s
  | .shadowWrite m a v => Sys2Proof.Machine.execShadowWrite m a v s
  | .activeViewWrite m a v => Sys2Proof.Machine.execActiveViewWrite m a v s
  | .glideEnd e ch => Sys2Proof.Machine.execGlideEnd e ch s
  | .overrideWordWrite m idx v => Sys2Proof.Machine.execOverrideWordWrite m idx v s
  | .overrideSinkWrite m idx v => Sys2Proof.Machine.execOverrideSinkWrite m idx v s
  | .pairStart m p => Sys2Proof.Machine.execPairStart m p s
  | .twinDisable m p => Sys2Proof.Machine.execTwinDisable m p s
  | .lockstepExit p => Sys2Proof.Machine.execLockstepExit p s
  | .migrationMove m v => Sys2Proof.Machine.execMigrationMove m v s
  | .twinJoin m v => Sys2Proof.Machine.execTwinJoin m v s
  | .lateStart m v => Sys2Proof.Machine.execLateStart m v s
  | .migrationAbort m => Sys2Proof.Machine.execMigrationAbort m s
  | .migAliasWrite m v => Sys2Proof.Machine.execMigAliasWrite m v s
  | .domainApply m => Sys2Proof.Machine.execDomainApply m s
  | .bridgeEnable m b v => Sys2Proof.Machine.execBridgeEnable m b v s
  | .bridgeDisable m b v => Sys2Proof.Machine.execBridgeDisable m b v s
  | .bridgeStart b => Sys2Proof.Machine.execBridgeStart b s
  | .bridgeStop b => Sys2Proof.Machine.execBridgeStop b s
  | .transitionEnd idx => Sys2Proof.Machine.execTransitionEnd idx s
  | .gateBlockEnd n => Sys2Proof.Machine.execGateBlockEnd n s
  | .scaleRampEnd n => Sys2Proof.Machine.execScaleRampEnd n s
  | .testGeneratorConfig m g v => Sys2Proof.Machine.execTestGeneratorConfig m g v s
  | .testGeneratorStep m g v => Sys2Proof.Machine.execTestGeneratorStep m g v s
  | .vatDispatch c => Sys2Proof.Machine.execVatDispatch c s
  | .affinityWaitExpiry id => Sys2Proof.Machine.execAffinityWaitExpiry id s
  | .igNop c => Sys2Proof.Machine.execIgNop c s
  | .igMac c => Sys2Proof.Machine.execIgMac c s
  | .igMacp c => Sys2Proof.Machine.execIgMacp c s
  | .igMac2 c => Sys2Proof.Machine.execIgMac2 c s
  | .igMacq c => Sys2Proof.Machine.execIgMacq c s
  | .igMpy c => Sys2Proof.Machine.execIgMpy c s
  | .igClr c => Sys2Proof.Machine.execIgClr c s
  | .igMova c => Sys2Proof.Machine.execIgMova c s
  | .igMovac c => Sys2Proof.Machine.execIgMovac c s
  | .igAdd c => Sys2Proof.Machine.execIgAdd c s
  | .igSub c => Sys2Proof.Machine.execIgSub c s
  | .igAdds c => Sys2Proof.Machine.execIgAdds c s
  | .igSubs c => Sys2Proof.Machine.execIgSubs c s
  | .igAnd c => Sys2Proof.Machine.execIgAnd c s
  | .igOr c => Sys2Proof.Machine.execIgOr c s
  | .igXor c => Sys2Proof.Machine.execIgXor c s
  | .igMin c => Sys2Proof.Machine.execIgMin c s
  | .igMax c => Sys2Proof.Machine.execIgMax c s
  | .igMov c => Sys2Proof.Machine.execIgMov c s
  | .igCmp c => Sys2Proof.Machine.execIgCmp c s
  | .igAddi c => Sys2Proof.Machine.execIgAddi c s
  | .igAsr c => Sys2Proof.Machine.execIgAsr c s
  | .igLsr c => Sys2Proof.Machine.execIgLsr c s
  | .igLsl c => Sys2Proof.Machine.execIgLsl c s
  | .igNsb c => Sys2Proof.Machine.execIgNsb c s
  | .igAgset c => Sys2Proof.Machine.execIgAgset c s
  | .igAgadd c => Sys2Proof.Machine.execIgAgadd c s
  | .igMts c => Sys2Proof.Machine.execIgMts c s
  | .igMfs c => Sys2Proof.Machine.execIgMfs c s
  | .igLdiw c => Sys2Proof.Machine.execIgLdiw c s
  | .igBr c => Sys2Proof.Machine.execIgBr c s
  | .igCall c => Sys2Proof.Machine.execIgCall c s
  | .igRet c => Sys2Proof.Machine.execIgRet c s
  | .igRte c => Sys2Proof.Machine.execIgRte c s
  | .igRep c => Sys2Proof.Machine.execIgRep c s
  | .igDone c => Sys2Proof.Machine.execIgDone c s
  | .igFld c => Sys2Proof.Machine.execIgFld c s
  | .igFst c => Sys2Proof.Machine.execIgFst c s
  | .igFence c => Sys2Proof.Machine.execIgFence c s
  | .igSubmit c => Sys2Proof.Machine.execIgSubmit c s
  | .igBkpt c => Sys2Proof.Machine.execIgBkpt c s
  | .igLoad c => Sys2Proof.Machine.execIgLoad c s
  | .igStore c => Sys2Proof.Machine.execIgStore c s
  | .igScaledStore c => Sys2Proof.Machine.execIgScaledStore c s
  | .igIllegalBundle c => Sys2Proof.Machine.execIgIllegalBundle c s
  | .fldComplete c n => Sys2Proof.Machine.execFldComplete c n s
  | .fstComplete c n => Sys2Proof.Machine.execFstComplete c n s
  | .repeatIterationEnd c => Sys2Proof.Machine.execRepeatIterationEnd c s
  | .exceptionTake c => Sys2Proof.Machine.execExceptionTake c s
  | .watchdogExpiry c => Sys2Proof.Machine.execWatchdogExpiry c s
  | .itemCompletion c => Sys2Proof.Machine.execItemCompletion c s
  | .debugHalt m c => Sys2Proof.Machine.execDebugHalt m c s
  | .debugStep m c => Sys2Proof.Machine.execDebugStep m c s
  | .debugResume m c => Sys2Proof.Machine.execDebugResume m c s
  | .doorbellWrite m c v => Sys2Proof.Machine.execDoorbellWrite m c v s
  | .icinv m c => Sys2Proof.Machine.execIcinv m c s
  | .icacheFillDone c cyc => Sys2Proof.Machine.execIcacheFillDone c cyc s
  | .localMemoryFabricAccess m c off wr x same => Sys2Proof.Machine.execLocalMemoryFabricAccess m c off wr x same s
  | .vatSubmit m w7 => Sys2Proof.Machine.execVatSubmit m w7 s
  | .itemRelease flow => Sys2Proof.Machine.execItemRelease flow s
  | .completionRecordRead m h => Sys2Proof.Machine.execCompletionRecordRead m h s
  | .partitionConfig m p v => Sys2Proof.Machine.execPartitionConfig m p v s
  | .frameClockEnable m c v => Sys2Proof.Machine.execFrameClockEnable m c v s
  | .frameClockStart c => Sys2Proof.Machine.execFrameClockStart c s
  | .frameFence c => Sys2Proof.Machine.execFrameFence c s
  | .captureWindowOpen c => Sys2Proof.Machine.execCaptureWindowOpen c s
  | .fenceCutoff c => Sys2Proof.Machine.execFenceCutoff c s
  | .portEnable m n => Sys2Proof.Machine.execPortEnable m n s
  | .portDisable m n => Sys2Proof.Machine.execPortDisable m n s
  | .portResyncRequest m n => Sys2Proof.Machine.execPortResyncRequest m n s
  | .portEnterRun n => Sys2Proof.Machine.execPortEnterRun n s
  | .inputFrameComplete n edges period words => Sys2Proof.Machine.execInputFrameComplete n edges period words s
  | .outputFrameStart n => Sys2Proof.Machine.execOutputFrameStart n s
  | .takePoint n => Sys2Proof.Machine.execTakePoint n s
  | .slotmaskWrite m n out v => Sys2Proof.Machine.execSlotmaskWrite m n out v s
  | .fsyncLoss n => Sys2Proof.Machine.execFsyncLoss n s
  | .fsyncReturn n => Sys2Proof.Machine.execFsyncReturn n s
  | .asrcConfig m g which v => Sys2Proof.Machine.execAsrcConfig m g which v s
  | .asrcLoopTimer g => Sys2Proof.Machine.execAsrcLoopTimer g s
  | .pdmGroupEnable m k v => Sys2Proof.Machine.execPdmGroupEnable m k v s
  | .pdmClockStart k => Sys2Proof.Machine.execPdmClockStart k s
  | .pdmWakeExpiry k => Sys2Proof.Machine.execPdmWakeExpiry k s
  | .pdmChannelEnable m c v => Sys2Proof.Machine.execPdmChannelEnable m c v s
  | .micStuck c => Sys2Proof.Machine.execMicStuck c s
  | .micStuckClear c => Sys2Proof.Machine.execMicStuckClear c s
  | .pllLock p => Sys2Proof.Machine.execPllLock p s
  | .pllLossOfLock p => Sys2Proof.Machine.execPllLossOfLock p s
  | .pllDividerWrite m p k v => Sys2Proof.Machine.execPllDividerWrite m p k v s
  | .pllMultiplierWrite m v => Sys2Proof.Machine.execPllMultiplierWrite m v s
  | .pllApply m => Sys2Proof.Machine.execPllApply m s
  | .outputDelayWrite m p k v => Sys2Proof.Machine.execOutputDelayWrite m p k v s
  | .mclkEnable m k on => Sys2Proof.Machine.execMclkEnable m k on s
  | .mclkOutputStart k => Sys2Proof.Machine.execMclkOutputStart k s
  | .ochreWindowEnd offs => Sys2Proof.Machine.execOchreWindowEnd offs s
  | .referenceLos r => Sys2Proof.Machine.execReferenceLos r s
  | .referenceEdgeReturn r => Sys2Proof.Machine.execReferenceEdgeReturn r s
  | .phaseStep m v => Sys2Proof.Machine.execPhaseStep m v s
  | .sharedMemoryAccess m a wr data ecc lost => Sys2Proof.Machine.execSharedMemoryAccess m a wr data ecc lost s
  | .bitSetWrite m a data lost => Sys2Proof.Machine.execBitSetWrite m a data lost s
  | .bitClearWrite m a data lost => Sys2Proof.Machine.execBitClearWrite m a data lost s
  | .retentionRequest m g => Sys2Proof.Machine.execRetentionRequest m g s
  | .retentionEntered g => Sys2Proof.Machine.execRetentionEntered g s
  | .wakeRequest m g => Sys2Proof.Machine.execWakeRequest m g s
  | .groupWakeDone g => Sys2Proof.Machine.execGroupWakeDone g s
  | .unlock m => Sys2Proof.Machine.execUnlock m s
  | .lock m => Sys2Proof.Machine.execLock m s
  | .vermSeal m => Sys2Proof.Machine.execVermSeal m s
  | .wipe m => Sys2Proof.Machine.execWipe m s
  | .wipeDone ok => Sys2Proof.Machine.execWipeDone ok s
  | .mramWrite m a size data => Sys2Proof.Machine.execMramWrite m a size data s
  | .counterIncrement m v => Sys2Proof.Machine.execCounterIncrement m v s
  | .dmaStart m n v => Sys2Proof.Machine.execDmaStart m n v s
  | .dmaAbort m n v => Sys2Proof.Machine.execDmaAbort m n v s
  | .dmaResume m n v => Sys2Proof.Machine.execDmaResume m n v s
  | .dmaAccessComplete n => Sys2Proof.Machine.execDmaAccessComplete n s
  | .dmaLinkReadDone n => Sys2Proof.Machine.execDmaLinkReadDone n s
  | .dmaDescriptorLoaded n => Sys2Proof.Machine.execDmaDescriptorLoaded n s
  | .frameStart h => Sys2Proof.Machine.execFrameStart h s
  | .frameEnd h bits extra cyc => Sys2Proof.Machine.execFrameEnd h bits extra cyc s
  | .linkNop h => Sys2Proof.Machine.execLinkNop h s
  | .linkRead x => Sys2Proof.Machine.execLinkRead x s
  | .linkWrite x => Sys2Proof.Machine.execLinkWrite x s
  | .linkRmw h => Sys2Proof.Machine.execLinkRmw h s
  | .linkCommit h => Sys2Proof.Machine.execLinkCommit h s
  | .linkSubmit h => Sys2Proof.Machine.execLinkSubmit h s
  | .linkSnapArm h => Sys2Proof.Machine.execLinkSnapArm h s
  | .linkSnapTrigger h => Sys2Proof.Machine.execLinkSnapTrigger h s
  | .linkResend h => Sys2Proof.Machine.execLinkResend h s
  | .replyReady h => Sys2Proof.Machine.execReplyReady h s
  | .hostDoorbellWrite m h v => Sys2Proof.Machine.execHostDoorbellWrite m h v s
  | .masterModeChange m h on => Sys2Proof.Machine.execMasterModeChange m h on s
  | .go m h => Sys2Proof.Machine.execGo m h s
  | .masterFrameStart h sel => Sys2Proof.Machine.execMasterFrameStart h sel s
  | .masterFrameDone h rx => Sys2Proof.Machine.execMasterFrameDone h rx s
  | .mmFault x => Sys2Proof.Machine.execMmFault x s
  | .canEnable m v => Sys2Proof.Machine.execCanEnable m v s
  | .canFrameReceived f cyc => Sys2Proof.Machine.execCanFrameReceived f cyc s
  | .signalTimeout sg cyc => Sys2Proof.Machine.execSignalTimeout sg cyc s
  | .eventPinChange idx level => Sys2Proof.Machine.execEventPinChange idx level s
  | .debounceExpiry idx cyc => Sys2Proof.Machine.execDebounceExpiry idx cyc s
  | .chatterWindow idx cyc => Sys2Proof.Machine.execChatterWindow idx cyc s
  | .stuckTimeout idx cyc => Sys2Proof.Machine.execStuckTimeout idx cyc s
  | .test m pat => Sys2Proof.Machine.execTest m pat s
  | .testStop m => Sys2Proof.Machine.execTestStop m s
  | .reload m => Sys2Proof.Machine.execReload m s
  | .resetPin asserted => Sys2Proof.Machine.execResetPin asserted s
  | .bootReadDone x => Sys2Proof.Machine.execBootReadDone x s
  | .stageReadStart k => Sys2Proof.Machine.execStageReadStart k s
  | .warmVerifyDone cyc => Sys2Proof.Machine.execWarmVerifyDone cyc s
  | .powerRequest m v => Sys2Proof.Machine.execPowerRequest m v s
  | .powerDomainUp d => Sys2Proof.Machine.execPowerDomainUp d s
  | .powerDomainDown d => Sys2Proof.Machine.execPowerDomainDown d s
  | .pd1Fault timeout => Sys2Proof.Machine.execPd1Fault timeout s
  | .sleepRetain m => Sys2Proof.Machine.execSleepRetain m s
  | .sleepAonOnly m => Sys2Proof.Machine.execSleepAonOnly m s
  | .thermalEvaluation t0 t1 t2 t3 => Sys2Proof.Machine.execThermalEvaluation t0 t1 t2 t3 s
  | .arm m => Sys2Proof.Machine.execArm m s
  | .trig m => Sys2Proof.Machine.execTrig m s
  | .lifeCycleRequest m v => Sys2Proof.Machine.execLifeCycleRequest m v s
  | .outputDelayArrival p k => Sys2Proof.Machine.execOutputDelayArrival p k s
  | .headerReadDone bytes => Sys2Proof.Machine.execHeaderReadDone bytes s
  | .drainBegin => Sys2Proof.Machine.execDrainBegin s
  | .drainClearDone => Sys2Proof.Machine.execDrainClearDone s
  | .epochStart => Sys2Proof.Machine.execEpochStart s
  | .tickBoundary => Sys2Proof.Machine.execTickBoundary s
  | .mirrorRingWrite => Sys2Proof.Machine.execMirrorRingWrite s
  | .commitCutoff => Sys2Proof.Machine.execCommitCutoff s
  | .commitApply => Sys2Proof.Machine.execCommitApply s
  | .reconcileEnd => Sys2Proof.Machine.execReconcileEnd s
  | .pairStartCheckDone => Sys2Proof.Machine.execPairStartCheckDone s
  | .migrationCheckDone => Sys2Proof.Machine.execMigrationCheckDone s
  | .sweepEnd => Sys2Proof.Machine.execSweepEnd s
  | .handoverCutoff => Sys2Proof.Machine.execHandoverCutoff s
  | .handover => Sys2Proof.Machine.execHandover s
  | .handoverVerify => Sys2Proof.Machine.execHandoverVerify s
  | .rateSetBoundary => Sys2Proof.Machine.execRateSetBoundary s
  | .retuneStep => Sys2Proof.Machine.execRetuneStep s
  | .mclkDividerBoundary => Sys2Proof.Machine.execMclkDividerBoundary s
  | .mclkRestart => Sys2Proof.Machine.execMclkRestart s
  | .crystalLoss => Sys2Proof.Machine.execCrystalLoss s
  | .crystalGood => Sys2Proof.Machine.execCrystalGood s
  | .ochreSecond => Sys2Proof.Machine.execOchreSecond s
  | .slewEnd => Sys2Proof.Machine.execSlewEnd s
  | .sealDone => Sys2Proof.Machine.execSealDone s
  | .tamper => Sys2Proof.Machine.execTamper s
  | .voltageGlitch => Sys2Proof.Machine.execVoltageGlitch s
  | .clockGlitch => Sys2Proof.Machine.execClockGlitch s
  | .mramWordWriteDone => Sys2Proof.Machine.execMramWordWriteDone s
  | .vinBrownOut => Sys2Proof.Machine.execVinBrownOut s
  | .canIntegrationDone => Sys2Proof.Machine.execCanIntegrationDone s
  | .chimeTonePeriod => Sys2Proof.Machine.execChimeTonePeriod s
  | .chimeStepEnd => Sys2Proof.Machine.execChimeStepEnd s
  | .chimeOvercurrent => Sys2Proof.Machine.execChimeOvercurrent s
  | .vinValid => Sys2Proof.Machine.execVinValid s
  | .powerOnReset => Sys2Proof.Machine.execPowerOnReset s
  | .crystalStartTimeout => Sys2Proof.Machine.execCrystalStartTimeout s
  | .bootRetryBackoff => Sys2Proof.Machine.execBootRetryBackoff s
  | .warmStartWrite => Sys2Proof.Machine.execWarmStartWrite s
  | .pd1FaultRetry => Sys2Proof.Machine.execPd1FaultRetry s
  | .sleepEntry => Sys2Proof.Machine.execSleepEntry s
  | .parkInterval => Sys2Proof.Machine.execParkInterval s
  | .safeStateExit => Sys2Proof.Machine.execSafeStateExit s
  | .otpProgrammingDone => Sys2Proof.Machine.execOtpProgrammingDone s

end Sys2Proof.Machine
end

