-- ==== Sys2Proof/Certificates/Slice0/Obligations.lean ====
section
/-! DEFINITION. What the provers are asked to prove of the model. A statement names the rule of spec/ it formalises or
rests on. Statements that give the next state as an equation say all of it: what the equation does not name is unchanged. A
statement in two or three parts is the conjunction of the definitions before it that end in Rule. -/

open Sys2Proof Sys2Proof.Machine

/-! ## The queue, the reset state, the form of the stores -/

/-- Asked of a block: the command at the front of the queue takes effect on the state with the queue's rest, and an empty
queue idles (log entry 1). -/
def Obligations.StepRunsFrontCommand : Prop :=
  (∀ (s : State) (c : Instr) (l : List Instr), step { s with pending := c :: l } = exec c { s with pending := l }) ∧
  ∀ s : State, s.pending = [] → step s = .next s

/-- What reset leaves: R8 and R12 with the reset columns of the register tables; the epoch machine of R33 with no epoch. That the
queue is empty and that every byte of memory reads 0 is the model's own: no rule gives it.
Model's choices: log entries 1, 4. -/
def Obligations.ResetState : Prop :=
  (∀ a, State.reset.rd a = regReset a) ∧ State.reset.pending = [] ∧
  regReset R.sysId = 0x88161000#32 ∧ State.reset.st = stBoot ∧ State.reset.get F.sysEpochEpoch = 0 ∧
  State.reset.get F.sysEpochCause = 0 ∧ State.reset.tstamp = 0 ∧ State.reset.rd R.domAct = 0x4401#32 ∧
  State.reset.rd (R.pllMden 0) = 0x18#32 ∧ State.reset.rd R.mdRecon = 0x0F000000#32 ∧
  (∀ e, e < 8 → State.reset.teState e = teStopped) ∧ (∀ a, State.reset.rb a = 0#8)

/-- The register store and memory have their canonical form at reset. -/
def Obligations.ResetForm : Prop := Regs.wf State.reset.regs ∧ Memory.wf State.reset.mem

/-- Every step keeps the canonical form of the register store and of memory: no two entries for one address, rising
addresses, and no entry that holds what an unlisted address reads as. -/
def Obligations.StepKeepsForm : Prop :=
  ∀ s t : State, step s = .next t → (Regs.wf s.regs → Regs.wf t.regs) ∧ (Memory.wf s.mem → Memory.wf t.mem)

/-- No command is lost or made up: a step leaves the queue's rest, and the count of free values drawn never goes back, so
that no free value is drawn twice. The queue and the count of free values are the model's own fields.
Model's choices: log entries 1, 6. -/
def Obligations.StepKeepsQueue : Prop :=
  ∀ s t : State, step s = .next t → t.pending = s.pending.tail ∧ s.free ≤ t.free

/-! ## Register accesses of no row of their own (R9, R13, R16, R17) -/

/-- REGISTER_WRITE: narrower than 32 bits or misaligned it is ignored, and a misaligned read gives 0 (R9); one wider than 32 bits is
ignored as well, which R9 does not say; a word of an EMIT template (RW) takes the written value while the engine's cluster is
powered. The frame is the equation: nothing else changes, but for the snapshot of R450.
Model's choices: log entry 97. -/
def RegisterWriteRule : Prop :=
  (∀ (m : Master) (a v : Word) (size cyc : Nat) (s : State), 0x08000000 ≤ a.toNat →
    (size ≠ 4 → exec (.registerWrite m a v size cyc) s = .next s.ok) ∧
    (a.toNat % 4 ≠ 0 → s.sys.trig = 0 → size = 4 → exec (.registerWrite m a v size cyc) s =
      .next { (s.atCyc cyc).ok with sys := { (s.atCyc cyc).sys with trig := 0 } }) ∧
    (a.toNat % 4 ≠ 0 → exec (.readToClear m a) s = .next { s.ok with rdata := 0#32 } ∧
      exec (.rlLowRead m a) s = .next { s.ok with rdata := 0#32 })) ∧
  (∀ (m : Master) (e : Fin 8) (k : Fin 128) (v : Word) (cyc : Nat) (s : State),
    s.powered 1 = true → s.tePowered e = true →
    exec (.registerWrite m (BitVec.ofNat 32 (0x08010200 + 0x1000 * e + 4 * k)) v 4 cyc) s =
      .next (((s.atCyc cyc).ok.wr (0x08010200 + 0x1000 * e + 4 * k) v).settle))

/-- READ_TO_CLEAR (R16): TEn_SAT_CNT answers its count and is 0 afterwards. -/
def ReadToClearRule : Prop :=
  ∀ (m : Master) (e : Fin 8) (s : State), s.powered 1 = true → s.tePowered e = true →
    ∃ t, exec (.readToClear m (BitVec.ofNat 32 (R.teSatCnt e))) s = .next t ∧
      t.rdata = s.rd (R.teSatCnt e) ∧ t.rd (R.teSatCnt e) = 0#32 ∧ t.resp = .ok ∧
      (∀ a, a ≠ R.teSatCnt e → t.rd a = s.rd a) ∧ t.mem = s.mem ∧ t.te = s.te

/-- RL_LOW_READ (R17): a read of SYS_TSTAMP_LO answers TSTAMP[31:0] and latches TSTAMP[47:32] with the epoch number for the
reading master, and for no other. -/
def LowReadLatchesRule : Prop :=
  ∀ (m : Master) (s : State), s.powered 1 = true →
    ∃ t, exec (.rlLowRead m (BitVec.ofNat 32 R.sysTstampLo)) s = .next t ∧
      t.rdata = BitVec.ofNat 32 (s.tstamp % 2 ^ 32) ∧
      t.latchOf m R.sysTstampLo = BitVec.ofNat 32 (s.get F.sysEpochEpoch * 2 ^ 16 + s.tstamp / 2 ^ 32) ∧
      (∀ k, latchNo k ≠ latchNo m → ∀ a, a < 0x100000000 → t.latchOf k a = s.latchOf k a) ∧ t.regs = s.regs ∧ t.mem = s.mem

/-- Writes and reads of registers that have no row of their own (R9, R13, R16, R17). -/
def Obligations.RegisterAccess : Prop := RegisterWriteRule ∧ ReadToClearRule ∧ LowReadLatchesRule

/-! ## Epochs (R34 to R42) -/

/-- REEPOCH (R34, R42, Table 01-6): host 0 in RUN makes a drain due at the first common boundary that comes after its write, so that
at the boundary already passed none begins; in any other state its write is absorbed; another host is DENIED, other masters are
ignored. -/
def Obligations.ReepochWaitsForCommonBoundary : Prop :=
  ∀ s : State,
    (s.st = stRun → exec (.reepoch (.host 0)) s = .next { s with resp := .ok, sys := { s.sys with
      dueHost := true, late := if s.sys.dueHost = true then s.sys.late else putField s.sys.late 3 1 1 } }) ∧
    (s.st = stRun → s.sys.dueFam = false → s.sys.dueRate = false → s.sys.dueReload = false → s.sys.dueHost = false →
      ∃ t, exec (.reepoch (.host 0)) s = .next t ∧ t.drainDue = true ∧ exec .drainBegin t = .next t) ∧
    (s.st ≠ stRun → exec (.reepoch (.host 0)) s = .next { s with resp := .ok }) ∧
    (∀ h : Fin 4, h ≠ 0 → exec (.reepoch (.host h)) s = .next { s with resp := .denied }) ∧
    (∀ c : Fin 16, exec (.reepoch (.core c)) s = .next { s with resp := .ok }) ∧
    (∀ n : Fin 32, exec (.reepoch (.dma n)) s = .next { s with resp := .ok })

/-- DRAIN_BEGIN (R35, Table 01-6): at a common boundary at which a cause is due that came before it, STATE reads DRAIN, TSTAMP holds
its value, the clear of R36 is under way, no engine runs, and no cause waits any more; away from such a boundary, and where no cause
or only later ones wait, nothing happens.
Model's choices: log entries 3, 20. -/
def DrainBeginRule : Prop :=
  ∀ s : State,
    (s.st = stRun → s.atCommon = true →
      (s.sys.dueFam = true ∧ s.sys.late.testBit 0 = false) ∨ (s.sys.dueRate = true ∧ s.sys.late.testBit 1 = false) ∨
        (s.sys.dueReload = true ∧ s.sys.late.testBit 2 = false) ∨ (s.sys.dueHost = true ∧ s.sys.late.testBit 3 = false) →
      ∃ t, exec .drainBegin s = .next t ∧ t.st = stDrain ∧ t.tstamp = s.tstamp ∧ t.sys.clearing = true ∧
        t.sys.cleared = false ∧ t.sys.dueHost = false ∧ ∀ e, e < 8 → (t.eng e).active = false) ∧
    (s.atCommon = false ∨ s.drainNow = false → exec .drainBegin s = .next s)

/-- DRAIN_CLEAR_DONE (R36): the clear leaves every powered engine's registers, accumulators, input and output words zero and
lets the epoch start. -/
def DrainClearRule : Prop :=
  ∀ s : State, s.st = stDrain → s.sys.clearing = true → s.sys.engClk = true →
    ∃ t, exec .drainClearDone s = .next t ∧ t.sys.clearing = false ∧ t.sys.cleared = true ∧
      ∀ e, e < 8 → s.tePowered e = true →
        (t.eng e).d = Vector.replicate 32 0#32 ∧ (t.eng e).a = Vector.replicate 8 0#34 ∧ (t.eng e).f = 0#4 ∧
        (t.eng e).acc = Vector.replicate 4 0#72 ∧ (t.eng e).inp = Vector.replicate 64 0#32 ∧
        (t.eng e).out = Vector.replicate 64 0#32 ∧ (t.eng e).dirty = [] ∧ (t.eng e).live = (s.eng e).live

/-- EPOCH_START (R32, R37): when the clear has completed and ENG_CLK runs, TSTAMP is 0; with ENG_CLK stopped or the clear
not ended, no epoch starts.
Model's choices: log entry 83. -/
def EpochStartRule : Prop :=
  ∀ s : State,
    (s.mayEpoch = true → ∃ t, exec .epochStart s = .next t ∧ t.tstamp = 0 ∧ t.sys.qt = 0 ∧ t.sys.cyc = 0 ∧ t.pending = s.pending) ∧
    (s.sys.engClk = false → exec .epochStart s = .next s) ∧
    (s.st = stDrain → s.sys.cleared = false → exec .epochStart s = .next s)

/-- The epoch number (R33): 16 bits, 0 at reset; every epoch start increments it, 0xFFFF is followed by 1, so that a number
is 0 after no epoch start. -/
def EpochNumberRule : Prop :=
  State.reset.get F.sysEpochEpoch = 0 ∧
  ∀ s : State, s.get F.sysEpochEpoch < 2 ^ 16 ∧
    (s.mayEpoch = true → ∃ t, exec .epochStart s = .next t ∧ t.get F.sysEpochEpoch ≠ 0 ∧
      t.get F.sysEpochEpoch = if s.get F.sysEpochEpoch = 0xFFFF then 1 else s.get F.sysEpochEpoch + 1)

/-- The drain of an epoch, from its first boundary to the end of the clear, and the number of the next (R33, R35, R36). -/
def Obligations.DrainClearsEpoch : Prop := DrainBeginRule ∧ DrainClearRule ∧ EpochNumberRule

/-- TICK_BOUNDARY (R32, R49): while an epoch runs with ENG_CLK, the edge last passed moves on by the shortest tick of the
three domains, so that TSTAMP counts domain-A ticks, and causes that came before it are due; while none runs, nothing happens.
Model's choices: log entry 90. -/
def TickBoundaryRule : Prop :=
  ∀ s : State,
    (s.st = stRun → s.sys.engClk = true →
      ∃ t, exec .tickBoundary s = .next t ∧ t.sys.qt = s.sys.qt + s.stepQ ∧ t.sys.cyc = 0 ∧ t.sys.late = 0 ∧
        t.tstamp = (s.sys.qt + s.stepQ) / 4 % 2 ^ 48 ∧ t.pending = s.pending) ∧
    (s.st ≠ stRun → exec .tickBoundary s = .next s)

/-- The engines whose runs end at the next tick edge. -/
def runsEndAt (s : State) : List Nat :=
  (s.engsIn (s.domsAt (s.sys.qt + s.stepQ))).filter (fun e => (s.eng e).active)

/-- `s` after the slots that remain of those runs (R45). -/
def slotsEnded (s : State) : State := (runsEndAt s).foldl (fun (t : State) e => t.finishRun e) s

/-- `s` at the next tick edge, with those slots executed. -/
def edgeState (s : State) : State :=
  ((slotsEnded s).setSys (fun y => { y with qt := s.sys.qt + s.stepQ, cyc := 0, wrote := [], late := 0 })).ovrTrim

/-- `s` as the sources supply their samples there and the fabric delivers them. -/
def sampledState (s : State) : State := ((edgeState s).runsEnd (runsEndAt s)).samples (s.domsAt (s.sys.qt + s.stepQ))

/-- No drain, no sleep and no commit begins at the next edge, and no pair in LOCKSTEP and no migration joins two engines. -/
def PlainEdge (s : State) : Prop :=
  s.st = stRun ∧ s.sys.engClk = true ∧ s.drainDue = false ∧ s.boot.slp = 0 ∧ s.md.frz = none ∧ s.mig.kind = 0 ∧
    s.get F.migStatusState = 0 ∧ ∀ p, p < 4 → s.get (F.twinStatusState p) ≠ 1

/-- Table 02-2 at a tick boundary (R45, R56, R58, R60, R83, R85, R129): for an engine whose run ends there, after its remaining slots
its output words are captured and then kept or zeroed as OUTZERO asks, accumulators are zero, flags clear as FLAGCLR asks, D and A
stay and show for inspection; the input words of the next run are the samples delivered there; live words that wait come into force
unless held; the glide channels step; the queued EMITs go to the Vat in slot order; a RUNNING engine begins at slot 0, one in
STOP_PENDING has had its last run; an enabled generator takes its next sample; engines whose domains do not tick keep their registers.
Model's choices: log entries 3, 90, 92, 135. -/
def BoundaryActionsRule : Prop :=
  ∀ s : State, PlainEdge s →
    let u := slotsEnded s
    let v := sampledState s
    ∃ t, exec .tickBoundary s = .next t ∧
      (∀ e ∈ runsEndAt s,
        let g := u.eng e
        let x := (s.rd (R.teScaleAct e)).toNat
        (t.eng e).cap = g.out ∧
        (t.eng e).out = (if x.testBit 8 = true then Vector.replicate 64 0#32 else g.out) ∧
        (t.eng e).acc = Vector.replicate 4 0#72 ∧ (t.eng e).f = (if x.testBit 9 = true then 0#4 else g.f) ∧
        (t.eng e).d = g.d ∧ (t.eng e).a = g.a ∧ (t.eng e).insD = g.d ∧ (t.eng e).insA = g.a ∧
        t.get (F.teFlagsF e) = g.f.toNat ∧ (t.eng e).inp = (v.eng e).pend ∧ (t.eng e).pend = Vector.replicate 64 0#32 ∧
        (t.eng e).emits = [] ∧
        ((s.eng e).hold = true → (t.eng e).live = (s.eng e).live) ∧
        ((s.eng e).hold = false → (t.eng e).live = Vector.ofFn (fun i => ((s.eng e).lpend[i]).getD (s.eng e).live[i]) ∧
          (t.eng e).lpend = (s.eng e).lnext) ∧
        (t.eng e).hold = s.flag (F.teCtrlLiveHold e) ∧
        t.md.glides.filter (fun c => c.eng == e) = (s.md.glides.filter (fun c => c.eng == e)).filterMap (fun c =>
          if c.j + 1 ≤ 2 ^ c.g then some { c with j := c.j + 1 } else none) ∧
        t.teState e = s.teState e ∧
        (s.teState e = teRunning → (t.eng e).active = true ∧ (t.eng e).slot = 0) ∧
        (s.teState e = teStopPending → (t.eng e).active = false) ∧
        ((∀ x ∈ runsEndAt s, x ≠ e → (u.eng x).emits = []) → s.get (F.twinStatusState (e / 2)) = 0 →
          t.vat.pend = (g.emits.foldl (fun (w : State) p => (w.vatOffer (w.emitDsc e p.1 p.2) .engine none).2) (edgeState s)).vat.pend)) ∧
      t.rt.now = v.rt.now ∧ t.rt.sinks = v.rt.sinks ∧
      (∀ (k : Fin 8) (d : RDom), domOf (s.get (F.tgCfgDomain k)) = some d → d ∈ s.domsAt (s.sys.qt + s.stepQ) → s.inUse d = true →
        s.flag (F.tgCfgEn k) = true →
        let w := s.get (F.tgCfgWave k)
        let y := if (s.tg k).running = true then s.tg k else ⟨0#32, 1#32, true, 0#32, (s.tg k).nb⟩
        (t.tg k).phase = y.phase + s.rd (R.tgStep k) ∧ (t.tg k).cur = tgWave w (tgAmp (s.get (F.tgCfgLevel k))) y ∧
        (t.tg k).lfsr = (if w = 2 then lfsrStep y.lfsr else y.lfsr) ∧ (t.tg k).running = true) ∧
      ∀ e, e < 8 → e ∉ s.engsIn (s.domsAt (s.sys.qt + s.stepQ)) → (t.eng e).d = (s.eng e).d ∧ (t.eng e).a = (s.eng e).a ∧
        (t.eng e).f = (s.eng e).f ∧ (t.eng e).acc = (s.eng e).acc ∧ (t.eng e).out = (s.eng e).out ∧
        (t.eng e).cap = (s.eng e).cap ∧ (t.eng e).slot = (s.eng e).slot ∧ (t.eng e).live = (s.eng e).live

/-- The compare of a pair in LOCKSTEP whose members end a run at the boundary (R147, R148, Table 05-1): with equal tapped words the pair
stays; else TWIN_MISMATCH is set, a first mismatch leaves its stamp, word and count, and the pair's action stops the secondary, the
primary or both. -/
def TwinCompareRule : Prop :=
  ∀ (s : State) (p : Fin 4) (d : RDom), s.st = stRun → s.sys.engClk = true → s.drainDue = false → s.boot.slp = 0 →
    s.get (F.twinStatusState p) = 1 → (∀ r, r < 4 → r ≠ p.val → s.get (F.twinStatusState r) ≠ 1) → s.mig.kind = 0 →
    2 * p.val ∈ runsEndAt s → 2 * p.val + 1 ∈ runsEndAt s → s.engDom (2 * p) = some d →
    let word := fun (e w : Nat) => ng ((slotsEnded s).eng e).out w 0#32
    let diff := (List.range 64).filter (fun w => (s.tapMask p).testBit w && word (2 * p) w != word (2 * p + 1) w)
    let act := s.get (F.twinCtrlAction p)
    let old := s.flag (F.twinStatusTwinMismatch p)
    ∃ t, exec .tickBoundary s = .next t ∧
      (diff = [] → t.get (F.twinStatusState p) = 1 ∧ t.flag (F.twinStatusTwinMismatch p) = old ∧
        t.teState (2 * p) = s.teState (2 * p) ∧ t.teState (2 * p + 1) = s.teState (2 * p + 1)) ∧
      (∀ w l, diff = w :: l → t.flag (F.twinStatusTwinMismatch p) = true ∧
        t.get (F.twinMisStampStamp p) = (if old = true then s.get (F.twinMisStampStamp p)
          else (s.dtickAt d (s.sys.qt + s.stepQ) + 2 ^ 48 - 1) % 2 ^ 32) ∧
        t.get (F.twinMisInfoWord p) = (if old = true then s.get (F.twinMisInfoWord p) else w) ∧
        t.get (F.twinMisInfoCount p) = (if old = true then s.get (F.twinMisInfoCount p) else (w :: l).length % 2 ^ 5) ∧
        (act = 0 → t.get (F.twinStatusState p) = 2 ∧ t.get (F.twinStatusVoice p) = 0 ∧ t.teState (2 * p + 1) = teStopped ∧
          t.flag (F.teCtrlRun (2 * p + 1)) = false ∧ t.teState (2 * p) = s.teState (2 * p)) ∧
        (act = 1 → t.get (F.twinStatusState p) = 2 ∧ t.get (F.twinStatusVoice p) = 1 ∧ t.teState (2 * p) = teStopped ∧
          t.flag (F.teCtrlRun (2 * p)) = false ∧ t.teState (2 * p + 1) = s.teState (2 * p + 1)) ∧
        (2 ≤ act → t.get (F.twinStatusState p) = 3 ∧ t.teState (2 * p) = teStopped ∧ t.teState (2 * p + 1) = teStopped ∧
          t.mig.chimeReq.testBit p = true))

/-- An epoch starts, and its ticks pass (R32, R37, R45, R49, R56, R58, R83, R85, R129, R147, R210). -/
def Obligations.EpochTicks : Prop := EpochStartRule ∧ TickBoundaryRule ∧ BoundaryActionsRule ∧ TwinCompareRule

/-! ## Tick engines: requests, starts, stops, direct words and memories (R45 to R86) -/

/-- ENGINE_START_REQUEST (R47, R50, R52): a stopped engine with a LEN in range goes to START_PENDING, one with a LEN out of
range sets LEN_ERR and stays; in STOP_PENDING the request takes the stop back. -/
def EngineStartRequestRule : Prop :=
  ∀ (m : Master) (e : Fin 8) (cyc : Nat) (s : State),
    s.tePowered e = true → s.flag (F.teCtrlRun e) = false → s.migStartHeld e = false →
    (s.teState e = teStopped → s.lenOk e = true →
      ∃ t, exec (.engineStartRequest m e cyc) s = .next t ∧ t.teState e = teStartPending ∧ t.flag (F.teCtrlRun e) = true ∧
        t.mem = s.mem ∧ (∀ a, a ≠ R.teCtrl e → a ≠ R.teStatus e → t.rd a = s.rd a)) ∧
    (s.teState e = teStopped → s.lenOk e = false →
      exec (.engineStartRequest m e cyc) s = .next ((s.atCyc cyc).ok.put (F.teStatusLenErr e) 1)) ∧
    (s.teState e = teStopPending →
      exec (.engineStartRequest m e cyc) s =
        .next (((s.atCyc cyc).ok.put (F.teCtrlRun e) 1).put (F.teStatusState e) teRunning))

/-- ENGINE_STOP_REQUEST (R51, R52): RUNNING goes to STOP_PENDING, START_PENDING back to STOPPED, and RUN reads 0; with a start
taken back, a domain that nothing else holds leaves use (R171).
Model's choices: log entry 112. -/
def EngineStopRequestRule : Prop :=
  ∀ (m : Master) (e : Fin 8) (cyc : Nat) (s : State), s.tePowered e = true → s.flag (F.teCtrlRun e) = true →
    (s.teState e = teRunning →
      exec (.engineStopRequest m e cyc) s =
        .next (((s.atCyc cyc).ok.put (F.teCtrlRun e) 0).put (F.teStatusState e) teStopPending)) ∧
    (s.teState e = teStartPending →
      exec (.engineStopRequest m e cyc) s =
        .next (((s.atCyc cyc).ok.put (F.teCtrlRun e) 0).put (F.teStatusState e) teStopped).useSync)

/-- Start and stop requests of an engine (R47, R50 to R52). -/
def Obligations.EngineRequests : Prop := EngineStartRequestRule ∧ EngineStopRequestRule

/-- ENGINE_START (R45, R50, R56): at a common boundary that meets the conditions the engine runs, from slot 0 with its
accumulators at 0, its D and A registers as they were, and its flags and output words cleared where the active FLAGCLR and
OUTZERO ask it; elsewhere it waits.
Model's choices: log entry 3. -/
def EngineStartRule : Prop :=
  ∀ (e : Fin 8) (s : State),
    (s.atCommon = true → s.mayStart e = true →
      ∃ t, exec (.engineStart e) s = .next t ∧ t.teState e = teRunning ∧ (t.eng e).active = true ∧ (t.eng e).slot = 0 ∧
        (t.eng e).acc = Vector.replicate 4 0#72 ∧ (t.eng e).d = (s.eng e).d ∧ (t.eng e).a = (s.eng e).a ∧
        (t.eng e).f = (if (s.scaleFrom e).testBit 9 = true then 0#4 else (s.eng e).f) ∧
        (t.eng e).out = (if (s.scaleFrom e).testBit 8 = true then Vector.replicate 64 0#32 else (s.eng e).out) ∧
        t.mem = s.mem ∧ ∀ a, a ≠ R.teStatus e → t.rd a = s.rd a) ∧
    (s.atCommon = false → exec (.engineStart e) s = .next s) ∧
    (s.flag (F.teStatusClrBusy e) = true → exec (.engineStart e) s = .next s)

/-- ENGINE_STOP (R51, R53): at the tick boundary at which its last run has ended, the engine is STOPPED, the fabric reads
its output words as 0, and it keeps D0 to D31, A0 to A7, the flags and its delay store. -/
def EngineStopRule : Prop :=
  ∀ (e : Fin 8) (s : State), s.st = stRun → s.teState e = teStopPending → s.atEngTick e = true →
    (s.eng e).active = false → s.mig.kind = 0 →
    ∃ t, exec (.engineStop e) s = .next t ∧ t.teState e = teStopped ∧ t.flag (F.teCtrlRun e) = false ∧
      (t.eng e).cap = Vector.replicate 64 0#32 ∧ (t.eng e).d = (s.eng e).d ∧ (t.eng e).a = (s.eng e).a ∧
      (t.eng e).f = (s.eng e).f ∧ t.mem = s.mem

/-- An engine starts and stops at a boundary (R45, R50, R51, R53). -/
def Obligations.EngineEdges : Prop := EngineStartRule ∧ EngineStopRule

/-- LIVE_HOLD (R60): setting it holds the live words from now on; clearing it in time for the deadline of R58 releases
them at the next boundary; either way TEn_CTRL.LIVE_HOLD reads what was written. -/
def LiveHoldRule : Prop :=
  ∀ (m : Master) (e : Fin 8) (cyc : Nat) (s : State), s.tePowered e = true →
    exec (.liveHold m e true cyc) s =
      .next (((s.atCyc cyc).ok.put (F.teCtrlLiveHold e) 1).setEng e (fun g => { g with hold := true })) ∧
    (∀ d, s.engDom e = some d → s.cycIn d (max s.sys.cyc cyc) ≤ s.cD d - 8 →
      exec (.liveHold m e false cyc) s =
        .next (((s.atCyc cyc).ok.put (F.teCtrlLiveHold e) 0).setEng e (fun g => { g with hold := false })))

/-- CLRSTATE and ENGINE_CLEAR_DONE (R53): a stopped engine shows CLR_BUSY, and at the end of the clear its registers, words,
delay store and dirty map are zero, its live words kept, and CLR_BUSY is 0; in another state the request sets CFG_IGN. -/
def EngineClearRule : Prop :=
  (∀ (m : Master) (e : Fin 8) (s : State), s.tePowered e = true →
    (s.teState e = teStopped → ∃ t, exec (.clrstate m e) s = .next t ∧ t.flag (F.teStatusClrBusy e) = true ∧
      (t.eng e).dirty = [] ∧ t.mem = s.mem) ∧
    (s.teState e ≠ teStopped → exec (.clrstate m e) s = .next (s.ok.put (F.teStatusCfgIgn e) 1))) ∧
  ∀ (e : Fin 8) (s : State), s.flag (F.teStatusClrBusy e) = true →
    ∃ t, exec (.engineClearDone e) s = .next t ∧ t.flag (F.teStatusClrBusy e) = false ∧
      (t.eng e).d = Vector.replicate 32 0#32 ∧ (t.eng e).a = Vector.replicate 8 0#34 ∧ (t.eng e).f = 0#4 ∧
      (t.eng e).acc = Vector.replicate 4 0#72 ∧ (t.eng e).inp = Vector.replicate 64 0#32 ∧
      (t.eng e).out = Vector.replicate 64 0#32 ∧ (t.eng e).dirty = [] ∧ (t.eng e).live = (s.eng e).live ∧
      (∀ p, p < 262144 → t.dlyRd e p = 0#32) ∧
      ∀ a, (a < dlyBase e ∨ dlyBase e + 0x100000 ≤ a) → t.rb a = s.rb a

/-- PROGRAM_MEMORY_WRITE (R54): the word of a stopped engine's window takes the value; while the engine is not STOPPED the
write is ignored and PMEM_IGN set. -/
def ProgramMemoryWriteRule : Prop :=
  ∀ (m : Master) (e : Fin 8) (off : Nat) (v : Word) (s : State), s.tePowered e = true → off < 0x18000 →
    (s.teState e = teStopped → s.migNames e = false →
      exec (.programMemoryWrite m e off v) s = .next (s.ok.ww (0x06000000 + 0x20000 * e + off / 4 * 4) v)) ∧
    (s.teState e ≠ teStopped → exec (.programMemoryWrite m e off v) s = .next (s.ok.put (F.teStatusPmemIgn e) 1))

/-- The clear of an engine and its program memory (R53, R54). -/
def Obligations.EngineStores : Prop := EngineClearRule ∧ ProgramMemoryWriteRule

/-- LIVE_WORD_WRITE (R58, R59): by host 0, the boot sequencer, the listener or the event inputs, a write at or before cycle
C_D − 8 becomes pending for the boundary that ends the run, a later one for the boundary after; the word in force does not
change. A write after one of the same word in the same cycle by a writer later in the order of R59 does not stand. Hosts 1 to 3
are DENIED, Indigo cores and DMA ignored.
Model's choices: log entry 24. -/
def LiveWordWriteRule : Prop :=
  ∀ (e : Fin 8) (w : Fin 16) (v : Word) (cyc : Nat) (s : State) (d : RDom),
    s.tePowered e = true → s.lockstep e = false → s.mig.kind = 0 → s.engDom e = some d →
    (∀ m : Master, m = .host 0 ∨ m = .boot ∨ m = .listener ∨ m = .events →
      ((s.atCyc cyc).lastWriter (R.teLive e w) (writerPlace m) = false →
        exec (.liveWordWrite m e w v cyc) s = .next (s.atCyc cyc).ok) ∧
      ((s.atCyc cyc).lastWriter (R.teLive e w) (writerPlace m) = true →
        (s.cycIn d (max s.sys.cyc cyc) ≤ s.cD d - 8 →
          exec (.liveWordWrite m e w v cyc) s =
            .next (((s.atCyc cyc).ok.noteWriter (R.teLive e w) (writerPlace m)).setEng e (fun g =>
              { g with lpend := ns g.lpend w (some v) }))) ∧
        (s.cD d - 8 < s.cycIn d (max s.sys.cyc cyc) →
          exec (.liveWordWrite m e w v cyc) s =
            .next (((s.atCyc cyc).ok.noteWriter (R.teLive e w) (writerPlace m)).setEng e (fun g =>
              { g with lnext := ns g.lnext w (some v) }))))) ∧
    (∀ h : Fin 4, h ≠ 0 → exec (.liveWordWrite (.host h) e w v cyc) s = .next (s.atCyc cyc).denied) ∧
    (∀ c : Fin 16, exec (.liveWordWrite (.core c) e w v cyc) s = .next (s.atCyc cyc).ok) ∧
    (∀ n : Fin 32, exec (.liveWordWrite (.dma n) e w v cyc) s = .next (s.atCyc cyc).ok)

/-- Live word `w` of engine `x` has taken `v` from `s` to `t` in cycle `cyc`, for the boundary that the deadline of R58 gives. -/
def LivePends (s t : State) (x w cyc : Nat) (v : Word) : Prop :=
  ∀ d, s.engDom x = some d → t.eng x = (if s.cycIn d (max s.sys.cyc cyc) ≤ s.cD d - 8
    then { s.eng x with lpend := ns (s.eng x).lpend w (some v) } else { s.eng x with lnext := ns (s.eng x).lnext w (some v) })

/-- LIVE_WORD_WRITE of joined engines: a write to one member of a pair in LOCKSTEP reaches both (R145). Under a move or join a write
to X reaches X and Y, and a write to Y reaches nothing before the hand-over and both engines in it (R153, R162). No other engine's
words change.
Model's choices: log entries 24, 110. -/
def JoinedLiveWordsRule : Prop :=
  ∀ (m : Master) (e x : Fin 8) (w : Fin 16) (v : Word) (cyc : Nat) (s : State),
    (m = .host 0 ∨ m = .boot ∨ m = .listener ∨ m = .events) → x ≠ e → s.tePowered e = true → s.tePowered x = true →
    (s.atCyc cyc).lastWriter (R.teLive e w) (writerPlace m) = true →
    (s.atCyc cyc).lastWriter (R.teLive x w) (writerPlace m) = true →
    let both := ∃ t, exec (.liveWordWrite m e w v cyc) s = .next t ∧ LivePends s t e w cyc v ∧ LivePends s t x w cyc v ∧
      (∀ y, y ≠ e.val → y ≠ x.val → t.eng y = s.eng y) ∧ t.regs = s.regs ∧ t.mem = s.mem
    (s.lockstep e = true → x.val = partner e → s.mig.kind = 0 → both) ∧
    (s.lockstep e = false → s.mig.kind = 1 ∨ s.mig.kind = 2 →
      (s.mig.x = e → s.mig.y = x → both) ∧
      (s.mig.x = x → s.mig.y = e → s.get F.migStatusState = 4 → both) ∧
      (s.mig.x = x → s.mig.y = e → s.get F.migStatusState ≠ 4 → exec (.liveWordWrite m e w v cyc) s = .next (s.atCyc cyc).ok))

/-- Live words: their hold and their writes (R58, R60, R145, R153, R162). -/
def Obligations.LiveWords : Prop := LiveHoldRule ∧ LiveWordWriteRule ∧ JoinedLiveWordsRule

/-- DELAY_STORE_FABRIC_ACCESS and MIRROR_RING_WRITE (R78 to R82, R332): an aligned fabric access of 1, 2, 4, 8 or 16 bytes reaches
the bytes of the engine's window and no other; with the cluster off it reads 0 and writes nothing; one of another size or
alignment fails with ALIGN. The cycles that it lost to other masters count (R335). While engine e's writes are mirrored, a word
written to its store reaches Y's store as well and sets its dirty bit, behind a mirror write of that word in flight; one written to
Y's store changes nothing (R155). The oldest mirror write lands in the target store and sets the dirty bit of its word.
Model's choices: log entries 8, 53. -/
def Obligations.DelayStoreAccess : Prop :=
  (∀ (m : Master) (e : Fin 8) (off n lost : Nat) (b : List Byte) (s : State),
    let a := 0x05000000 + 0x100000 * e.val + off
    let u := s.waited (masterNo m) (dlyBase e) lost
    off < 0x100000 → b.length = n →
    (accessOk a n = true → s.mig.kind = 0 → s.tePowered e = true →
      (∃ t, exec (.delayStoreFabricAccess m e off true ⟨b, lost⟩) s = .next t ∧ t.resp = .ok ∧ t.regs = u.regs ∧
        (∀ i (h : i < b.length), t.rb (a + i) = b[i]) ∧ ∀ x, (x < a ∨ a + n ≤ x) → t.rb x = s.rb x) ∧
      ∃ t, exec (.delayStoreFabricAccess m e off false ⟨b, lost⟩) s = .next t ∧ t.resp = .ok ∧ t.rbytes = s.rbs a n ∧
        t.mem = s.mem ∧ t.regs = u.regs) ∧
    (accessOk a n = true → s.tePowered e = false →
      exec (.delayStoreFabricAccess m e off true ⟨b, lost⟩) s = .next u.ok ∧
      exec (.delayStoreFabricAccess m e off false ⟨b, lost⟩) s =
        .next { u.ok with rbytes := List.replicate n 0#8, rdata := 0#32 }) ∧
    (accessOk a n = false → ∀ wr, ∃ t, exec (.delayStoreFabricAccess m e off wr ⟨b, lost⟩) s = .next t ∧
      t.resp = .error errAlign ∧ t.mem = s.mem)) ∧
  (∀ (m : Master) (e y : Fin 8) (p lost : Nat) (v : Word) (s : State), p < 262144 → s.mig.x = e → s.mig.y = y → y ≠ e →
    s.mirrors e = true →
    let put := fun (x : Fin 8) => exec (.delayStoreFabricAccess m x (4 * p) true ⟨wordBytes v, lost⟩) s
    (s.tePowered e = true → (∀ r ∈ s.mig.ring, r.dst = y → r.word ≠ p) →
      ∃ t, put e = .next t ∧ t.resp = .ok ∧ t.mem = ((s.dlyWr e p v).dlyWr y p v).mem ∧ t.mig = s.mig ∧
        (t.eng y).dirty = setIns p (s.eng y).dirty ∧ t.eng e = s.eng e) ∧
    (s.tePowered e = true → (∃ r ∈ s.mig.ring, r.dst = y ∧ r.word = p) →
      ∃ t, put e = .next t ∧ t.resp = .ok ∧ t.mem = (s.dlyWr e p v).mem ∧ t.mig.ring = s.mig.ring ++ [⟨y, p, v, false⟩] ∧
        t.te = s.te) ∧
    ∃ t, put y = .next t ∧ t.resp = .ok ∧ t.mem = s.mem ∧ t.mig = s.mig ∧ t.te = s.te) ∧
  ∀ (s : State) (r : Mirror) (l : List Mirror), s.mig.ring = r :: l →
    exec .mirrorRingWrite s =
      .next ((({ s with mig := { s.mig with ring := l } } : State).ww (0x05000000 + 0x100000 * r.dst + 4 * r.word) r.val).setEng
        r.dst (fun g => { g with dirty := setIns r.word g.dirty }))

/-! ## Tick-engine slots (R64 to R106) -/

/-- Engine `e` is in a run that has a slot left, and that slot is legal, of the kind `kind`, and its predicate holds. -/
def SlotIs (s : State) (e : Fin 8) (kind : DWord → Bool) : Prop :=
  s.slotReady e = true ∧ slotLegal (s.eng e).slot (s.nextSlot e) = true ∧ kind (s.nextSlot e) = true ∧
    predHolds (slPred (s.nextSlot e)) (s.eng e).f = true

/-- `s` with engine `e` changed by `g`, which has then executed its slot. -/
def slotTaken (s : State) (e : Fin 8) (g : Engine → Engine) : State :=
  s.setEng e (fun h => { g h with slot := (g h).slot + 1 })

/-- Accumulator `k` of engine `e` shifted right by 30 − (S + shift), ties toward +infinity (R69), and its word, held at 32 bits. -/
def scaledBy (s : State) (e k sh : Nat) : Int :=
  let n := (30 - (s.teS e + sx 3 sh)).toNat
  ((ng (s.eng e).acc k 0#72).toInt + 2 ^ (n - 1)) / 2 ^ n
def heldWord (r : Int) : Word := BitVec.ofInt 32 (max (-2 ^ 31) (min (2 ^ 31 - 1) r))
/-- 1 where the value of a move had to be held, which TEn_SAT_CNT counts (R70). -/
def clipOf (r : Int) : Nat := if -2 ^ 31 ≤ r ∧ r ≤ 2 ^ 31 - 1 then 0 else 1

/-- `h` after the transfer `x` of a slot of engine `e` that began in `s`: TDST takes the scaled accumulator (R69, R92). -/
def afterMove (s : State) (e : Nat) (x : Xfer) (h : Engine) : Engine :=
  if x.top = 0 then h else dstPut h x.dst (heldWord (scaledBy s e x.acc x.sh))
/-- The clips of that transfer. -/
def moveClips (s : State) (e : Nat) (x : Xfer) : Nat := if x.top = 0 then 0 else clipOf (scaledBy s e x.acc x.sh)
/-- `h` with the accumulator that move-and-clear names at 0. -/
def afterClear (x : Xfer) (h : Engine) : Engine := if x.top = 2 then { h with acc := ns h.acc x.acc 0#72 } else h

/-- The result `f x y` of the next slot's first source and operand 2 goes to XD, and nothing else changes. -/
def XdTakes (i : Instr) (e : Fin 8) (op : Nat) (f : Word → Word → Word) : Prop :=
  ∀ s : State, SlotIs s e (isX op) →
    exec i s = .next (slotTaken s e (fun g => dstPut g (slF (s.nextSlot e) 45 7)
      (f (srcVal (s.eng e) (slF (s.nextSlot e) 38 7)) (op2Val (s.eng e) (s.nextSlot e)))))

/-- The two-operand operations of Table 03-6 (R96).
Model's choices: log entry 21. -/
def TeTwoOperandRule : Prop :=
  ∀ e : Fin 8,
    XdTakes (.teAdd e) e 0x04 (fun x y => x + y) ∧
    XdTakes (.teSub e) e 0x05 (fun x y => x - y) ∧
    XdTakes (.teRsb e) e 0x06 (fun x y => y - x) ∧
    XdTakes (.teAdds e) e 0x07 (fun x y => BitVec.ofInt 32 (max (-2 ^ 31) (min (2 ^ 31 - 1) (x.toInt + y.toInt)))) ∧
    XdTakes (.teSubs e) e 0x08 (fun x y => BitVec.ofInt 32 (max (-2 ^ 31) (min (2 ^ 31 - 1) (x.toInt - y.toInt)))) ∧
    XdTakes (.teAnd e) e 0x09 (fun x y => x &&& y) ∧
    XdTakes (.teOr e) e 0x0A (fun x y => x ||| y) ∧
    XdTakes (.teXor e) e 0x0B (fun x y => x ^^^ y) ∧
    XdTakes (.teMin e) e 0x0C (fun x y => if x.slt y then x else y) ∧
    XdTakes (.teMax e) e 0x0D (fun x y => if x.slt y then y else x) ∧
    XdTakes (.teMinu e) e 0x0E (fun x y => if x.ult y then x else y) ∧
    XdTakes (.teMaxu e) e 0x0F (fun x y => if x.ult y then y else x)

/-- The one-operand operations of Table 03-6 (R96): moves, shifts by AUX[4:0], ABS and NEG, and the coefficient load.
Model's choices: log entry 21. -/
def TeOneOperandRule : Prop :=
  ∀ e : Fin 8,
    XdTakes (.teMov e) e 0x02 (fun x _ => x) ∧
    XdTakes (.teAbs e) e 0x13 (fun x _ => if x = 0x80000000#32 then 0x7FFFFFFF#32 else if x.slt 0 then -x else x) ∧
    XdTakes (.teNeg e) e 0x14 (fun x _ => if x = 0x80000000#32 then 0x7FFFFFFF#32 else -x) ∧
    ∀ s : State,
      (SlotIs s e (isX 0x01) →
        exec (.teLdi e) s = .next (slotTaken s e (fun g => dstPut g (slF (s.nextSlot e) 45 7) (BitVec.ofNat 32 (slF (s.nextSlot e) 0 32))))) ∧
      (SlotIs s e (isX 0x03) →
        exec (.teLdc e) s = .next (slotTaken s e (fun g => dstPut g (slF (s.nextSlot e) 45 7)
          (s.coef e (coefAddr (s.eng e) (slF (s.nextSlot e) 13 2) (slF (s.nextSlot e) 0 13)))))) ∧
      (SlotIs s e (isX 0x10) →
        exec (.teAsr e) s = .next (slotTaken s e (fun g => dstPut g (slF (s.nextSlot e) 45 7)
          ((srcVal (s.eng e) (slF (s.nextSlot e) 38 7)).sshiftRight (slF (s.nextSlot e) 32 5))))) ∧
      (SlotIs s e (isX 0x11) →
        exec (.teLsr e) s = .next (slotTaken s e (fun g => dstPut g (slF (s.nextSlot e) 45 7)
          (srcVal (s.eng e) (slF (s.nextSlot e) 38 7) >>> (slF (s.nextSlot e) 32 5))))) ∧
      (SlotIs s e (isX 0x12) →
        exec (.teLsl e) s = .next (slotTaken s e (fun g => dstPut g (slF (s.nextSlot e) 45 7)
          (srcVal (s.eng e) (slF (s.nextSlot e) 38 7) <<< (slF (s.nextSlot e) 32 5)))))

/-- The operations of Table 03-6 on two operands and on one (R96). -/
def Obligations.TeAluWritesDestination : Prop := TeTwoOperandRule ∧ TeOneOperandRule

/-- A flag operation: only flag AUX[1:0] changes, to `v`. -/
def FlagTakes (i : Instr) (e : Fin 8) (op : Nat) (v : State → DWord → Bool) : Prop :=
  ∀ s : State, SlotIs s e (isX op) →
    ∃ t, exec i s = .next t ∧ t.regs = s.regs ∧ t.mem = s.mem ∧
      (∀ k, k < 4 → (t.eng e).f.getLsbD k = if k = slF (s.nextSlot e) 32 2 then v s (s.nextSlot e) else (s.eng e).f.getLsbD k) ∧
      (t.eng e).d = (s.eng e).d ∧ (t.eng e).a = (s.eng e).a ∧ (t.eng e).acc = (s.eng e).acc ∧ (t.eng e).out = (s.eng e).out ∧
      (t.eng e).slot = (s.eng e).slot + 1

/-- CMP, FOP and FSET (R96, R97): the six conditions, the four flag operations, the immediate; no other flag changes. -/
def TeFlagsRule : Prop :=
  ∀ e : Fin 8,
    FlagTakes (.teCmp e) e 0x15 (fun s w =>
      let x := srcVal (s.eng e) (slF w 38 7)
      let y := op2Val (s.eng e) w
      match slF w 34 3 with
      | 0 => x == y
      | 1 => x != y
      | 2 => x.slt y
      | 3 => !x.slt y
      | 4 => x.ult y
      | _ => !x.ult y) ∧
    FlagTakes (.teFop e) e 0x16 (fun s w =>
      let a := (s.eng e).f.getLsbD (slF w 0 2)
      let b := (s.eng e).f.getLsbD (slF w 2 2)
      match slF w 4 2 with
      | 0 => a && b
      | 1 => a || b
      | 2 => a != b
      | _ => !a) ∧
    FlagTakes (.teFset e) e 0x17 (fun _ w => w.getLsbD 0)

/-- AMOV, AINT and AADD (R96, R98): AI and AF of the named address register change together, and nothing else does. -/
def TeAddressRule : Prop :=
  ∀ (e : Fin 8) (s : State),
    let w := s.nextSlot e
    let x := srcVal (s.eng e) (slF w 38 7)
    let k := slF w 32 3
    (SlotIs s e (isX 0x18) → exec (.teAmov e) s = .next (slotTaken s e (fun g => { g with a := ns g.a k (x ++ 0#2) }))) ∧
    (SlotIs s e (isX 0x19) →
      exec (.teAint e) s = .next (slotTaken s e (fun g => { g with a := ns g.a k (x.extractLsb' 0 18 ++ 0#16) }))) ∧
    (SlotIs s e (isX 0x1A) →
      exec (.teAadd e) s = .next (slotTaken s e (fun g => { g with a := ns g.a k (ng (s.eng e).a k 0#34 + (x ++ 0#2)) })))

/-- ACCLD and ACCADD (R67, R96, R97): XS1 sign-extended × 2^30, loaded, or added with saturation at the bounds of R67,
which sets ACC_OVF. -/
def TeAccLoadRule : Prop :=
  ∀ (e : Fin 8) (s : State),
    let w := s.nextSlot e
    let x := (srcVal (s.eng e) (slF w 38 7)).toInt * 2 ^ 30
    let k := slF w 32 2
    let sum := (ng (s.eng e).acc k 0#72).toInt + x
    (SlotIs s e (isX 0x1B) →
      exec (.teAccld e) s = .next (slotTaken s e (fun g => { g with acc := ns g.acc k (BitVec.ofInt 72 x) }))) ∧
    (SlotIs s e (isX 0x1C) → -2 ^ 71 ≤ sum → sum ≤ 2 ^ 71 - 1 →
      exec (.teAccadd e) s = .next (slotTaken s e (fun g => { g with acc := ns g.acc k (BitVec.ofInt 72 sum) }))) ∧
    (SlotIs s e (isX 0x1C) → sum < -2 ^ 71 ∨ 2 ^ 71 - 1 < sum →
      ∃ t, exec (.teAccadd e) s = .next t ∧ t.flag (F.teStatusAccOvf e) = true ∧
        ng (t.eng e).acc k 0#72 = (if sum < 0 then BitVec.intMin 72 else BitVec.intMax 72) ∧ (t.eng e).d = (s.eng e).d ∧
        (t.eng e).a = (s.eng e).a ∧ (t.eng e).f = (s.eng e).f ∧ (t.eng e).out = (s.eng e).out ∧ t.mem = s.mem)

/-- TE_MAC_SLOT (R65, R67, R69, R70, R89 to R92), for every legal slot whose predicate holds: MAC-A and MAC-B each add to, subtract
from or start accumulator AA or AB with the signed product of XA or XB and its coefficient word, in direct, A6, A7 or register mode;
an accumulator that both name takes both products and is held once, which sets ACC_OVF; the transfer moves an accumulator as it
stood before the slot, and move-and-clear lets it begin at 0. Nothing else changes. -/
def TeMacRule : Prop :=
  ∀ (e : Fin 8) (s : State), SlotIs s e isM →
    let w := s.nextSlot e
    let g := s.eng e
    let x := xferM w
    let mode := slF w 34 2
    let ca := slF w 21 13
    let adr := if mode = 0 then ca else (ca + aInt g (if mode = 1 then 6 else 7)) % 8192
    let ya := if mode = 3 then ng g.d (ca % 32) 0#32 else s.coef e adr
    let yb := if mode = 3 then ng g.d (ca / 32 % 32) 0#32 else s.coef e ((adr + 1) % 8192)
    let part := fun (op acc k : Nat) (p : Int) => if op = 0 ∨ acc ≠ k then 0 else if op = 2 then -p else p
    let sum := fun (k : Nat) =>
      (if (slF w 56 2 = 3 ∧ slF w 54 2 = k) ∨ (slF w 45 2 = 3 ∧ slF w 43 2 = k) ∨ (x.top = 2 ∧ x.acc = k) then 0
        else (ng g.acc k 0#72).toInt) +
      part (slF w 56 2) (slF w 54 2) k ((srcVal g (slF w 47 7)).toInt * ya.toInt) +
      part (slF w 45 2) (slF w 43 2) k ((srcVal g (slF w 36 7)).toInt * yb.toInt)
    let held := fun (k : Nat) => max (-2 ^ 71) (min (2 ^ 71 - 1) (sum k))
    ∃ t, exec (.teMacSlot e) s = .next t ∧
      t.eng e = { afterMove s e x { g with acc := Vector.ofFn (fun k => BitVec.ofInt 72 (held k)) } with slot := g.slot + 1 } ∧
      t.flag (F.teStatusAccOvf e) = (s.flag (F.teStatusAccOvf e) || (List.range 4).any (fun k => held k != sum k)) ∧
      t.get (F.teSatCntCount e) = min (s.get (F.teSatCntCount e) + moveClips s e x) 0xFFFFFFFF ∧
      (∀ f, f < 8 → f ≠ e.val → t.eng f = s.eng f) ∧ t.mem = s.mem ∧
      ∀ a, a ≠ R.teStatus e → a ≠ R.teSatCnt e → t.rd a = s.rd a

/-- The scaled move of R69, for a format-M slot that only moves (TOP 0b01, both MACs idle): TDST takes the accumulator
shifted right by 30 − (S + shift) with ties toward +infinity and saturated; a clip counts in TEn_SAT_CNT (R70). -/
def TeScaledMoveRule : Prop :=
  ∀ (e : Fin 8) (s : State), SlotIs s e isM →
    let w := s.nextSlot e
    let sh := (30 - (s.teS e + sx 3 (slF w 14 3))).toNat
    let r := ((ng (s.eng e).acc (slF w 17 2) 0#72).toInt + 2 ^ (sh - 1)) / 2 ^ sh
    slF w 56 2 = 0 → slF w 45 2 = 0 → slF w 19 2 = 1 →
    ∃ t, exec (.teMacSlot e) s = .next t ∧
      t.eng e = { dstPut (s.eng e) (slF w 7 7) (BitVec.ofInt 32 (max (-2 ^ 31) (min (2 ^ 31 - 1) r))) with
        slot := (s.eng e).slot + 1 } ∧
      t.get (F.teSatCntCount e) = (if -2 ^ 31 ≤ r ∧ r ≤ 2 ^ 31 - 1 then s.get (F.teSatCntCount e)
        else min (s.get (F.teSatCntCount e) + 1) 0xFFFFFFFF) ∧ t.mem = s.mem

/-- Format M: the multiply-accumulate and the scaled move (R65, R67, R69, R70, R90 to R92). -/
def Obligations.TeMacAndMove : Prop := TeMacRule ∧ TeScaledMoveRule

/-- TE_DELAY_READ and TE_DELAY_WRITE (R69, R70, R72 to R74, R94, R97, R155), with any transfer beside them: logical address L reaches
physical word (WP − L) mod 262,144; a read puts that word into DX; a write stores a source word, or an accumulator by R69, in that
word and in no other byte of memory, and enters the mirror ring while mirroring is on; the transfer moves an accumulator, and
move-and-clear leaves it 0. Nothing else changes. -/
def Obligations.DelayStoreSlots : Prop :=
  ∀ (e : Fin 8) (s : State), (∀ r ∈ s.mig.ring, r.dst = e → r.early = false) →
    let w := s.nextSlot e
    let x := xferD w
    let l := (slF w 34 18 + (if slF w 55 1 = 1 then aInt (s.eng e) (slF w 52 3) else 0)) % 262144
    let p := (s.engWp e + 262144 - l) % 262144
    let acc := scaledBy s e (slF w 26 2) (slF w 23 3)
    let v := if slF w 33 1 = 1 then heldWord acc else srcVal (s.eng e) (slF w 26 7)
    let same := fun (t : State) (clips : Nat) => t.get (F.teSatCntCount e) = min (s.get (F.teSatCntCount e) + clips) 0xFFFFFFFF ∧
      (∀ f, f < 8 → f ≠ e.val → t.eng f = s.eng f) ∧ ∀ a, a ≠ R.teSatCnt e → t.rd a = s.rd a
    (SlotIs s e (isD 0) →
      ∃ t, exec (.teDelayRead e) s = .next t ∧ t.mem = s.mem ∧ t.mig = s.mig ∧ same t (moveClips s e x) ∧
        t.eng e = { afterMove s e x (afterClear x (dstPut (s.eng e) (slF w 26 7)
          (s.rw (0x05000000 + 0x100000 * e + 4 * p)))) with slot := (s.eng e).slot + 1 }) ∧
    (SlotIs s e (isD 2) →
      ∃ t, exec (.teDelayWrite e) s = .next t ∧
        t.mem = (s.ww (0x05000000 + 0x100000 * e + 4 * p) v).mem ∧
        t.mig.ring = s.mig.ring ++ (if s.mirrors e = true then [⟨s.mig.y, p, v, false⟩] else []) ∧
        same t ((if slF w 33 1 = 1 then clipOf acc else 0) + moveClips s e x) ∧
        t.eng e = { afterMove s e x (afterClear x (s.eng e)) with slot := (s.eng e).slot + 1 })

/-- TE_INTERPOLATED_READ (R75, R94) of the words x0 and x1 that the engine sees at P(L) and P(L + 1), with any transfer beside it: the
result y, which DX takes, is the sum that the rule writes down, lies between x0 and x1, and is the same number before and after it
becomes a 32-bit word; the two physical words are an even and an odd one. Memory does not change. -/
def Obligations.InterpolatedRead : Prop :=
  ∀ (e : Fin 8) (s : State),
    let w := s.nextSlot e
    let x := xferD w
    let l := (slF w 34 18 + (if slF w 55 1 = 1 then aInt (s.eng e) (slF w 52 3) else 0)) % 262144
    let phys := fun (x : Nat) => (s.engWp e + 262144 - x % 262144) % 262144
    let x0 := s.dlySeen e (phys l)
    let x1 := s.dlySeen e (phys (l + 1))
    let f := if slF w 55 1 = 1 then aFrac (s.eng e) (slF w 52 3) else 0
    phys l % 2 ≠ phys (l + 1) % 2 ∧
    (SlotIs s e (isD 1) → ∃ (t : State) (y : Word), exec (.teInterpolatedRead e) s = .next t ∧
      y.toInt = x0.toInt + ((x1.toInt - x0.toInt) * f + 0x8000) / 2 ^ 16 ∧
      min x0.toInt x1.toInt ≤ y.toInt ∧ y.toInt ≤ max x0.toInt x1.toInt ∧
      t.eng e = { afterMove s e x (afterClear x (dstPut (s.eng e) (slF w 26 7) y)) with slot := (s.eng e).slot + 1 } ∧
      t.get (F.teSatCntCount e) = min (s.get (F.teSatCntCount e) + moveClips s e x) 0xFFFFFFFF ∧ t.mem = s.mem)

/-- NOP and EMIT (R83, R84, R96): NOP only takes its cycle; EMIT queues template AUX[3:0] with argument XS1, and from the
fifth of a run on drops it, sets EMIT_DROP and counts it. -/
def TeNopEmitRule : Prop :=
  ∀ (e : Fin 8) (s : State),
    (SlotIs s e (isX 0x00) → exec (.teNop e) s = .next (slotTaken s e (fun g => g))) ∧
    (SlotIs s e (isX 0x1D) → (s.eng e).emits.length < 4 →
      exec (.teEmit e) s = .next (slotTaken s e (fun g => { g with
        emits := g.emits ++ [(slF (s.nextSlot e) 32 4, srcVal (s.eng e) (slF (s.nextSlot e) 38 7))] }))) ∧
    (SlotIs s e (isX 0x1D) → 4 ≤ (s.eng e).emits.length →
      ∃ t, exec (.teEmit e) s = .next t ∧ t.flag (F.teStatusEmitDrop e) = true ∧
        t.get (F.teEmitCntDropped e) = min (s.get (F.teEmitCntDropped e) + 1) 0xFFFF ∧
        t.eng e = { s.eng e with slot := (s.eng e).slot + 1 } ∧ t.mem = s.mem)

/-- Address registers, accumulators and flags, NOP and EMIT (R67, R83, R84, R96 to R98). -/
def Obligations.TeRegistersFlagsEmit : Prop := TeFlagsRule ∧ TeAddressRule ∧ TeAccLoadRule ∧ TeNopEmitRule

/-- The commands of engine `e`'s slots, each with the test that a legal slot is of its kind. -/
def slotCommands (e : Fin 8) : List (Instr × (DWord → Bool)) :=
  [(.teNop e, isX 0x00), (.teLdi e, isX 0x01), (.teMov e, isX 0x02), (.teLdc e, isX 0x03), (.teAdd e, isX 0x04),
   (.teSub e, isX 0x05), (.teRsb e, isX 0x06), (.teAdds e, isX 0x07), (.teSubs e, isX 0x08), (.teAnd e, isX 0x09),
   (.teOr e, isX 0x0A), (.teXor e, isX 0x0B), (.teMin e, isX 0x0C), (.teMax e, isX 0x0D), (.teMinu e, isX 0x0E),
   (.teMaxu e, isX 0x0F), (.teAsr e, isX 0x10), (.teLsr e, isX 0x11), (.teLsl e, isX 0x12), (.teAbs e, isX 0x13),
   (.teNeg e, isX 0x14)] ++
  [(.teCmp e, isX 0x15), (.teFop e, isX 0x16), (.teFset e, isX 0x17), (.teAmov e, isX 0x18), (.teAint e, isX 0x19),
   (.teAadd e, isX 0x1A), (.teAccld e, isX 0x1B), (.teAccadd e, isX 0x1C), (.teEmit e, isX 0x1D), (.teMacSlot e, isM),
   (.teDelayRead e, isD 0), (.teInterpolatedRead e, isD 1), (.teDelayWrite e, isD 2)]

/-- TE_ILLEGAL_SLOT and suppressed slots (R102, R106): an illegal slot, whatever its predicate, sets ILLEGAL and does nothing
else but take its cycle; a legal slot whose predicate does not hold does nothing else but take its cycle, whatever the
operation. -/
def Obligations.TeIllegalAndSuppressed : Prop :=
  ∀ (e : Fin 8) (s : State), s.slotReady e = true →
    (slotLegal (s.eng e).slot (s.nextSlot e) = false →
      exec (.teIllegalSlot e) s = .next ((s.put (F.teStatusIllegal e) 1).setEng e (fun g => { g with slot := g.slot + 1 }))) ∧
    (slotLegal (s.eng e).slot (s.nextSlot e) = true → predHolds (slPred (s.nextSlot e)) (s.eng e).f = false →
      ∀ p ∈ slotCommands e, p.2 (s.nextSlot e) = true → exec p.1 s = .next (slotTaken s e (fun g => g)))

/-! ## Mordant (R111 to R141) -/

/-- Only registers at the addresses of `l` may differ from `s` to `t`, and no byte of memory does. -/
def OnlyRegs (l : List Nat) (s t : State) : Prop := (∀ a, a ∉ l → t.rd a = s.rd a) ∧ t.mem = s.mem

/-- COMMIT_REQUEST (R113 to R117): an accepted request merges its mask, extended to both engines of a pair in lockstep or of
a migration, into the accumulating commit, and MD_HOSTq, MD_PEND and MD_STATUS show it; a mask with an engine whose cluster
is not powered is refused whole and sets UNPOWERED; a host without commit right is DENIED; other masters are ignored.
Model's choices: log entries 100, 101. -/
def Obligations.CommitRequest : Prop :=
  ∀ (seq mask cyc : Nat) (s : State),
    let mk := mask % 2 ^ 12
    (∀ (m : Master) (q : Nat), requester m = some q → (q = 4 ∨ s.permCommit q mk = true) →
      (s.unpoweredIn mk = false →
        ∃ t c, exec (.commitRequest m seq mask cyc) s = .next t ∧ t.resp = .ok ∧ t.md = { s.md with acc := some c } ∧
          c.mask = (match s.md.acc with | some b => b.mask | none => 0) ||| s.extendMask mk ∧
          c.seq = seq % 2 ^ 16 ∧ c.src = q ∧ spGet (fun _ => 0) c.reqs q = seq % 2 ^ 16 ∧
          t.get (F.mdHostAccSeq q) = seq % 2 ^ 16 ∧ t.get F.mdPendSeq = seq % 2 ^ 16 ∧ t.get F.mdPendMask = c.mask % 2 ^ 12 ∧
          t.get F.mdStatusPending = 1 ∧ t.get F.mdStatusCount = s.get F.mdStatusCount ∧
          OnlyRegs [R.mdHost q, R.mdPend, R.mdStatus] s t) ∧
      (s.unpoweredIn mk = true →
        exec (.commitRequest m seq mask cyc) s = .next { (s.atCyc cyc).put F.mdErrUnpowered 1 with resp := .refused })) ∧
    (∀ h : Fin 4, s.permCommit h mk = false → exec (.commitRequest (.host h) seq mask cyc) s = .next (s.atCyc cyc).denied) ∧
    (∀ c : Fin 16, exec (.commitRequest (.core c) seq mask cyc) s = .next (s.atCyc cyc).ok) ∧
    ∀ n : Fin 32, exec (.commitRequest (.dma n) seq mask cyc) s = .next (s.atCyc cyc).ok

/-- COMMIT_CUTOFF (R118, R119): at the cutoff of a common boundary the accumulating commit freezes for it, so that a new one
can accumulate; nothing happens at other boundaries or while the reconcile of a named object runs.
Model's choices: log entry 22. -/
def CommitCutoffRule : Prop :=
  ∀ (s : State) (c : Commit), s.st = stRun → s.md.acc = some c →
    (s.isCommon (s.tickNo + 1) = true → s.beforeCutoff = true → s.mayFreeze c (s.tickNo + 1) = true →
      ∃ t, exec .commitCutoff s = .next t ∧ t.md.frz = some c ∧ t.md.acc = none ∧ t.md.frzAt = s.tickNo + 1 ∧
        t.md.dirty = s.md.dirty ∧ t.md.held = s.md.held ∧ t.get F.mdStatusFrozen = 1 ∧ t.get F.mdStatusPending = 0 ∧
        t.get F.mdPendMask = 0 ∧ t.sys.cyc = max s.sys.cyc (s.cA - 1024) ∧
        OnlyRegs [R.mdStatus, R.mdPend, R.rtStatus, R.umbStatus, R.rtLoad, R.rtErrEntry] s t) ∧
    (s.isCommon (s.tickNo + 1) = false → exec .commitCutoff s = .next s) ∧
    (s.reconMask &&& c.mask ≠ 0 → exec .commitCutoff s = .next s) ∧
    (s.md.frz ≠ none → exec .commitCutoff s = .next s)

/-- COMMIT_APPLY (R120, R122, R125): at E_B every named engine's coefficient banks and every named table swap shadow and
active copies, the status registers show the commit, and its reconcile starts; elsewhere, and where a drain begins, nothing
happens. (Stated with the snapshot quiet and no boot stage waiting, which would add writes of their own, R431, R450.)
Model's choices: log entry 3. -/
def CommitApplyRule : Prop :=
  ∀ (s : State) (c : Commit), s.st = stRun → s.md.frz = some c → s.md.frzEpoch = false → s.boot.wait = false →
    s.sys.trig = 0 → Memory.wf s.mem → Regs.wf s.regs →
    (s.atEdge = true → s.tickNo = s.md.frzAt → s.endsHere = false →
      ∃ t, exec .commitApply s = .next t ∧ t.md.frz = none ∧ t.md.acc = s.md.acc ∧ t.md.recons = (if c.mask = 0 then s.md.recons else s.md.recons ++ [c.mask]) ∧
        t.md.dirty = s.md.dirty ∧ t.get F.mdStatusFrozen = 0 ∧ t.get F.mdStatusCount = (s.get F.mdStatusCount + 1) % 2 ^ 8 ∧
        t.get F.mdStatusSrc = c.src % 2 ^ 3 ∧ t.get F.mdAppliedLoTstampLo = s.tstamp % 2 ^ 32 ∧
        t.get F.mdAppliedHiTstampHi = s.tstamp / 2 ^ 32 ∧ t.get F.mdAppliedHiSeq = c.seq % 2 ^ 16 ∧
        (∀ (e : Fin 8) (i : Nat), i < 0x8000 →
          t.rb (cfBase e + i) = s.rb (cfBase e + i + if c.mask.testBit e then 0x8000 else 0) ∧
          t.rb (cfBase e + 0x8000 + i) = s.rb (cfBase e + i + if c.mask.testBit e then 0 else 0x8000)) ∧
        (∀ i, i < 0x2000 →
          t.rd (0x08030000 + 4 * i) = s.rd (if c.mask.testBit 8 then 0x08038000 + 4 * i else 0x08030000 + 4 * i) ∧
          t.rd (0x08038000 + 4 * i) = s.rd (if c.mask.testBit 8 then 0x08030000 + 4 * i else 0x08038000 + 4 * i)) ∧
        ∀ a, (a < 0x06100000 ∨ 0x06180000 ≤ a) → t.rb a = s.rb a) ∧
    ((s.atEdge = false ∨ s.tickNo ≠ s.md.frzAt ∨ s.endsHere = true) →
      exec .commitApply s = .next { s with sys := { s.sys with trig := 0 } })

/-- A commit freezes and takes effect (R118 to R125). -/
def Obligations.CommitBoundary : Prop := CommitCutoffRule ∧ CommitApplyRule

/-- SHADOW_WRITE and RECONCILE_END (R111, R112, R125, R126, R145): a coefficient write lands in the shadow bank and sets its
dirty bit, in both banks of a pair in lockstep; it is held, in order of arrival, while the object is frozen; it is ignored
while the cluster is off; the oldest reconcile gives every dirty word of its objects the new active value and clears its bit.
Model's choices: log entries 23, 108, 137. -/
def Obligations.ShadowWriteAndReconcile : Prop :=
  (∀ (m : Master) (e : Fin 8) (i : Fin 8192) (v : Word) (s : State),
    let a := 0x06100000 + 0x10000 * e.val + 4 * i.val
    let w := Instr.shadowWrite m (BitVec.ofNat 32 a) v
    (s.tePowered e = true → s.frozen e = false → s.lockstep e = false →
      exec w s = .next { s.ok.ww a v with md := { s.md with dirty := setIns a s.md.dirty } }) ∧
    (s.tePowered e = true → s.frozen e = false → s.lockstep e = true →
      ∃ t, exec w s = .next t ∧ t.rw a = v ∧
        t.rw (0x06100000 + 0x10000 * partner e + 4 * i.val) = v ∧ t.md.dirty.contains a = true ∧
        t.md.dirty.contains (0x06100000 + 0x10000 * partner e + 4 * i.val) = true ∧ t.regs = s.regs) ∧
    (∀ h : Fin 4, m = .host h → s.tePowered e = true → s.frozen e = true →
      exec w s = .next { s with md := { s.md with held := s.md.held ++ [⟨m, a, v⟩] }, resp := .held }) ∧
    (s.tePowered e = false → exec w s = .next s.ok)) ∧
  ∀ s : State, s.md.held = [] → (∀ a ∈ s.md.dirty, a % 4 = 0) →
    (∀ (k : Nat) (l : List Nat), s.md.recons = k :: l → ∃ t, exec .reconcileEnd s = .next t ∧ t.md.recons = l ∧
      t.get F.mdStatusRecon = (if l = [] then 0 else 1) ∧
      (l = [] → t.get F.mdReconObj = 15 ∧ t.get F.mdReconRemain = 0) ∧
      (∀ (e : Fin 8) (i : Fin 8192), k.testBit e = true →
        t.md.dirty.contains (0x06100000 + 0x10000 * e.val + 4 * i.val) = false ∧
        t.rw (0x06100000 + 0x10000 * e.val + 4 * i.val) =
          (if s.md.dirty.contains (0x06100000 + 0x10000 * e.val + 4 * i.val)
            then s.rw (0x06108000 + 0x10000 * e.val + 4 * i.val) else s.rw (0x06100000 + 0x10000 * e.val + 4 * i.val))) ∧
      ∀ a, (a < 0x06100000 ∨ 0x06180000 ≤ a) → t.rb a = s.rb a) ∧
    (s.md.recons = [] → exec .reconcileEnd s = .next s)

/-- ACTIVE_VIEW_WRITE, GLIDE_END and the override words (R130, R136 to R139, R142): a write to an active view changes nothing and
sets ACTIVE_WR; the end of a glide changes no coefficient that a run reads, and its channel holds v_new; an override word
and its sink take their value from host 0 and the boot sequencer, unless a later writer of R142 has written the word in the
same cycle, and in an epoch that value governs the samples from 8 FAB_CLK cycles on, which are 12 of ENG_CLK; hosts 1 to 3 are
DENIED.
Model's choices: log entries 7, 18, 24. -/
def Obligations.ActiveViewsGlidesOverrides : Prop :=
  (∀ (m : Master) (a v : Word) (s : State), isActiveView a.toNat = true →
    exec (.activeViewWrite m a v) s = .next (s.ok.put F.mdErrActiveWr 1)) ∧
  (∀ (e : Fin 8) (ch : Fin 64) (s : State), ∃ t, exec (.glideEnd e ch) s = .next t ∧
    (∀ k a, t.coef k a = s.coef k a) ∧ (∀ k, t.glideBusy k = s.glideBusy k) ∧
    (∀ g ∈ t.md.glides, g.eng = e → g.ch = ch → 2 ^ g.g ≤ g.j → g.vOld = g.vNew) ∧ t.regs = s.regs ∧ t.mem = s.mem) ∧
  ∀ (i : Fin 32) (v : Word) (s : State),
    let set := fun (u : State) (a : Nat) (x : Word) =>
      (if s.runs = true then { u with md := { u.md with ovr := ⟨a, s.rd a, s.engCyc + 12⟩ :: u.md.ovr } } else u).wr a x
    (∀ m : Master, m = .host 0 ∨ m = .boot →
      exec (.overrideWordWrite m i v) s = .next (if s.lastWriter (R.ovrWord i) (writerPlace m) = true
        then set (s.ok.noteWriter (R.ovrWord i) (writerPlace m)) (R.ovrWord i) (v &&& 0xC0FFFFFF#32) else s.ok) ∧
      exec (.overrideSinkWrite m i v) s = .next (set s.ok (R.ovrSink i) (v &&& 0x801F0FFF#32)) ∧
      (s.runs = true → (∀ r ∈ s.md.ovr, r.at_ ≤ s.engCyc + 12) →
        ∃ t, exec (.overrideSinkWrite m i v) s = .next t ∧
          ∀ x, t.ovrAt x (R.ovrSink i) = if s.engCyc + 12 ≤ x then v &&& 0x801F0FFF#32 else s.ovrAt x (R.ovrSink i))) ∧
    ∀ h : Fin 4, h ≠ 0 → exec (.overrideWordWrite (.host h) i v) s = .next s.denied ∧
      exec (.overrideSinkWrite (.host h) i v) s = .next s.denied

/-! ## Twins and migration (R143 to R166) -/

/-- PAIR_START, PAIR_START_CHECK_DONE, TWIN_DISABLE, LOCKSTEP_EXIT (R144, R149, R150): a start that meets its conditions
shows CHECK, and one that fails a condition sets its ERR bit and starts nothing; a check that passes puts the pair in
LOCKSTEP with both members cleared and START_PENDING; a disable in LOCKSTEP takes effect at the exit, where the member that
is not the voice stops; in DEGRADED it takes effect at once.
Model's choices: log entries 82, 138. -/
def Obligations.TwinPairs : Prop :=
  ∀ (m : Master) (p : Fin 4) (s : State), m = .host 0 ∨ m = .boot →
    (s.pairFails p (s.mig.kind != 0) = [] →
      ∃ t, exec (.pairStart m p) s = .next t ∧ t.get F.migStatusState = 1 ∧ t.mig.kind = 4 ∧ t.mig.x = 2 * p ∧
        t.mig.y = 2 * p + 1 ∧ OnlyRegs [R.migStatus] s t) ∧
    (s.flag (F.twinCtrlEn p) = false →
      ∃ t, exec (.pairStart m p) s = .next t ∧ t.get F.migStatusTwin = 1 ∧ t.mig = s.mig ∧
        t.get F.migStatusState = s.get F.migStatusState ∧ OnlyRegs [R.migStatus] s t) ∧
    (s.mig.kind = 4 → s.mig.x = 2 * p → s.mig.y = 2 * p + 1 → s.sameProg (2 * p) (2 * p + 1) = true →
      s.sameSet (2 * p) (2 * p + 1) = true → s.pairFails p false = [] →
      (s.lenOk (2 * p) = false → ∃ t, exec .pairStartCheckDone s = .next t ∧ t.mig.kind = 0 ∧
        t.flag (F.teStatusLenErr (2 * p)) = true ∧ t.teState (2 * p) = teStopped ∧ t.get (F.twinStatusState p) = 1) ∧
      (s.lenOk (2 * p) = true → s.lenOk (2 * p + 1) = true →
       ∃ t, exec .pairStartCheckDone s = .next t ∧ t.mig.kind = 0 ∧ t.get F.migStatusState = 0 ∧
        t.get (F.twinStatusState p) = 1 ∧ t.get (F.twinStatusVoice p) = 0 ∧ t.teState (2 * p) = teStartPending ∧
        t.teState (2 * p + 1) = teStartPending ∧ t.flag (F.teStatusClrBusy (2 * p)) = true ∧
        t.flag (F.teStatusClrBusy (2 * p + 1)) = true ∧ t.mem = s.mem)) ∧
    (s.mig.kind = 4 → s.sameProg s.mig.x s.mig.y = false →
      ∃ t, exec .pairStartCheckDone s = .next t ∧ t.mig.kind = 0 ∧ t.get F.migStatusState = 0 ∧ t.get F.migStatusProg = 1 ∧
        OnlyRegs [R.migStatus, R.migRemain] s t) ∧
    (s.flag (F.twinCtrlEn p) = true → s.get (F.twinStatusState p) = 1 → s.st = stRun → s.mig.fresh.testBit p = false →
      ∃ t, exec (.twinDisable m p) s = .next t ∧ t.flag (F.twinCtrlEn p) = false ∧ t.get (F.twinStatusState p) = 1 ∧
        t.mig.exits.testBit p = true ∧ OnlyRegs [R.twinCtrl p] s t) ∧
    (s.flag (F.twinCtrlEn p) = true → s.get (F.twinStatusState p) = 2 →
      exec (.twinDisable m p) s = .next ((s.ok.put (F.twinCtrlEn p) 0).put (F.twinStatusState p) 0)) ∧
    (s.mig.exitDue.testBit p = true →
      ∃ t, exec (.lockstepExit p) s = .next t ∧ t.get (F.twinStatusState p) = 0 ∧
        t.teState (partner (s.voiceOf p)) = teStopped ∧ t.flag (F.teCtrlRun (partner (s.voiceOf p))) = false ∧
        t.teState (s.voiceOf p) = s.teState (s.voiceOf p) ∧ t.mig.exitDue.testBit p = false ∧ t.mem = s.mem) ∧
    (s.mig.exitDue.testBit p = false → exec (.lockstepExit p) s = .next s)

/-- The three start commands, MIGRATION_ABORT and MIG_ALIAS_WRITE (R151 to R153, R163 to R166): from IDLE, a start that no
condition of Table 05-2 refuses begins the check, or for LATE arms at once; a start while the unit is not IDLE sets BUSY;
ABORT before the handover cutoff abandons and sets ABANDONED, after it does nothing; an alias waits for a commit.
Model's choices: log entry 2. -/
def MigrationCommandsRule : Prop :=
  ∀ (m : Master) (x y : Fin 8) (srcEn tauto : Bool) (s : State), m = .host 0 ∨ m = .boot →
    let word : Nat → Word := fun mode => BitVec.ofNat 32
      (2 ^ 31 + b2n srcEn * 2 ^ 17 + b2n tauto * 2 ^ 16 + mode * 2 ^ 12 + y.val * 2 ^ 8 + x.val)
    (s.get F.migStatusState = 0 →
      (s.migFails 0 x y srcEn = [] → ∃ t, exec (.migrationMove m (word 0)) s = .next t ∧ t.get F.migStatusState = 1 ∧
        t.mig.kind = 1 ∧ t.mig.x = x ∧ t.mig.y = y ∧ (t.eng y).dirty = [] ∧ (t.eng y).live = (s.eng x).live ∧
        t.get F.migCtrlSrc = x ∧ t.get F.migCtrlDst = y ∧ OnlyRegs [R.migStatus, R.migCtrl] s t) ∧
      (s.migFails 1 x y srcEn = [] → ∃ t, exec (.twinJoin m (word 1)) s = .next t ∧ t.get F.migStatusState = 1 ∧
        t.mig.kind = 2 ∧ t.mig.x = x ∧ t.mig.y = y ∧ (t.eng y).dirty = [] ∧ (t.eng y).live = (s.eng x).live ∧
        OnlyRegs [R.migStatus, R.migCtrl] s t) ∧
      (s.migFails 2 x y srcEn = [] → s.lenOk y = false → ∃ t, exec (.lateStart m (word 2)) s = .next t ∧
        t.flag (F.teStatusLenErr y) = true ∧ t.mig = s.mig ∧ t.te = s.te ∧ t.get F.migStatusState = 0) ∧
      (s.migFails 2 x y srcEn = [] → s.lenOk y = true → ∃ t, exec (.lateStart m (word 2)) s = .next t ∧ t.get F.migStatusState = 3 ∧
        t.mig.kind = 3 ∧ t.mig.x = x ∧ t.mig.y = y ∧ t.mig.srcEn = srcEn ∧ t.te = s.te ∧
        OnlyRegs [R.migStatus, R.migCtrl] s t) ∧
      (s.teState y ≠ teStopped → ∃ t, exec (.migrationMove m (word 0)) s = .next t ∧ t.get F.migStatusErrState = 1 ∧
        t.get F.migStatusState = 0 ∧ t.mig = s.mig ∧ OnlyRegs [R.migStatus, R.migCtrl] s t)) ∧
    (s.get F.migStatusState ≠ 0 → ∃ t, exec (.migrationMove m (word 0)) s = .next t ∧ t.get F.migStatusBusy = 1 ∧
      t.mig = s.mig ∧ OnlyRegs [R.migStatus] s t) ∧
    (s.mig.kind = 1 ∨ s.mig.kind = 2 ∨ s.mig.kind = 3 → s.get F.migStatusState ≠ 4 →
      (s.mig.armed = false → ∃ t, exec (.migrationAbort m) s = .next t ∧ t.get F.migStatusState = 0 ∧
        t.get F.migStatusAbandoned = 1 ∧ t.mig.kind = 0 ∧ t.te = s.te ∧
        OnlyRegs [R.migStatus, R.migRemain, R.smemConf 7] s t) ∧
      (s.mig.armed = true → exec (.migrationAbort m) s = .next s.ok)) ∧
    ∀ v : Word, exec (.migAliasWrite m v) s = .next { s.ok with mig := { s.mig with aliasPend := some v } }

/-- MIGRATION_CHECK_DONE, SWEEP_END, HANDOVER_CUTOFF, HANDOVER, HANDOVER_VERIFY (R154 to R162): an equal check begins the
sweep, a differing program ends with PROG; the sweep's end arms; the cutoff of an eligible boundary names it T; at E_T of
a MOVE Y takes X's registers and flags (which FLAGCLR then clears, R56), runs with its accumulators 0, and X's alias names Y; at E_{T+2}, X stops.
Model's choices: log entry 3. -/
def MigrationRunRule : Prop :=
  ∀ s : State,
    let x := s.mig.x
    let y := s.mig.y
    (s.mig.kind = 1 → s.get F.migStatusState = 1 →
      (s.sameProg x y = true → s.sameSet x y = true → ∃ t, exec .migrationCheckDone s = .next t ∧
        t.get F.migStatusState = 2 ∧ t.get F.migRemainRemain = s.sweepLen % 2 ^ 19 ∧ t.mig.wp0 = s.engWp x ∧ t.mig.n = s.sweepLen ∧
        OnlyRegs [R.migStatus, R.migRemain] s t) ∧
      (s.sameProg x y = false → ∃ t, exec .migrationCheckDone s = .next t ∧ t.get F.migStatusState = 0 ∧
        t.get F.migStatusProg = 1 ∧ t.mig.kind = 0 ∧ OnlyRegs [R.migStatus, R.migRemain] s t)) ∧
    (s.mig.kind = 1 → s.get F.migStatusState = 2 →
      ∃ t, exec .sweepEnd s = .next t ∧ t.get F.migStatusState = 3 ∧ t.get F.migRemainRemain = 0 ∧
        (Memory.wf s.mem → x < 8 → y < 8 → ∀ p, p < 262144 → t.dlyRd y p =
          if (s.mig.wp0 + 262144 - p) % 262144 < s.mig.n ∧ p ∉ (s.eng y).dirty then s.dlyRd x p else s.dlyRd y p) ∧
        ∀ a, (a < dlyBase y ∨ dlyBase y + 0x100000 ≤ a) → t.rb a = s.rb a) ∧
    (s.st = stRun → s.get F.migStatusState = 3 → s.mig.armed = false → s.beforeCutoff = true → s.drainDue = false →
      s.flag F.migCtrlTauto = true → s.mig.nb ≤ s.tickNo + 1 →
      (s.isCommon (s.tickNo + 1) = true → s.yInUse = true ∨ isRateSet (s.tickNo + 1) = true →
        ∃ t, exec .handoverCutoff s = .next t ∧ t.mig.armed = true ∧
          t.mig.t = s.tickNo + 1 ∧ t.get F.migTactLoTLo = (s.tickNo + 1) % 2 ^ 32 ∧
          OnlyRegs [R.migTactLo, R.migTactHi] s t) ∧
      (s.isCommon (s.tickNo + 1) = false → exec .handoverCutoff s = .next s)) ∧
    (s.st = stRun → s.endsHere = false → s.get F.migStatusState = 3 → s.mig.armed = true → s.atEdge = true →
      s.tickNo = s.mig.t → s.mig.kind = 1 → x < 8 → y < 8 → x ≠ y →
      ∃ t, exec .handover s = .next t ∧ t.get F.migStatusState = 4 ∧ t.teState y = teRunning ∧
        t.flag (F.teCtrlRun y) = true ∧ (t.eng y).d = (s.eng x).d ∧ (t.eng y).a = (s.eng x).a ∧
        (t.eng y).f = (if (s.scaleFrom y).testBit 9 = true ∨ (s.teState x = teStopPending ∧ (s.scaleFrom x).testBit 9 = true)
          then 0#4 else (s.eng x).f) ∧
        (t.eng y).acc = Vector.replicate 4 0#72 ∧ (t.eng y).slot = 0 ∧ (t.eng y).active = true ∧
        t.aliasOf x = y ∧ t.mem = s.mem) ∧
    (∀ d, s.engDom x = some d → s.st = stRun → s.get F.migStatusState = 4 → s.atTick d = true →
      s.dtick d = (s.dtickAt d (4 * s.mig.t) + s.mig.cmp + 1) % 2 ^ 48 → s.sys.trig = 0 → x < 8 →
      (s.mig.cmp = 0 → s.mig.kind = 3 → s.endsHere = false →
        exec .handoverVerify s = .next { s with mig := { s.mig with cmp := 1 }, sys := { s.sys with trig := 0 } }) ∧
      (s.mig.cmp ≠ 0 → ∃ t, exec .handoverVerify s = .next t ∧ t.teState x = teStopped ∧ t.flag (F.teCtrlRun x) = false ∧
        t.get F.migStatusState = 0 ∧ t.get F.migStatusDone = 1 ∧ t.mig.kind = 0))

/-- The commands that start and end a migration, and its run (R151 to R166). -/
def Obligations.MigrationCommandsAndRun : Prop := MigrationCommandsRule ∧ MigrationRunRule

/-! ## Rate domains, bridges, routes and generators (R167 to R211) -/

/-- DOMAIN_APPLY, RATE_SET_BOUNDARY (R171, R173 to R175): invalid codes set ERR_CODE and a drain or HALT sets ERR_BUSY, with
nothing else; before an epoch DOM_ACT takes the configuration at once; in RUN a change of family, of the domain-A rate or of a
k in use waits for a drain with PEND set, DOM_CFG equal to DOM_ACT withdraws what waits; a re-base takes effect at a rate-set boundary, which also recomputes M.
Model's choices: log entries 83, 112, 139. -/
def DomainChangesRule : Prop :=
  ∀ (m : Master) (s : State), m = .host 0 ∨ m = .boot →
    let v := s.rd R.domCfg
    (cfgValid v = false → s.st ≠ stDrain → s.st ≠ stHalt →
      exec (.domainApply m) s = .next (s.ok.put F.domStatusErrCode 1)) ∧
    (cfgValid v = true → s.st = stDrain ∨ s.st = stHalt → exec (.domainApply m) s = .next (s.ok.put F.domStatusErrBusy 1)) ∧
    (cfgValid v = true → s.st = stBoot ∨ s.st = stSafe →
      ∃ t, exec (.domainApply m) s = .next t ∧ t.domAct = v ∧ t.get F.domStatusPend = 0 ∧ t.mem = s.mem ∧
        (s.boot.step ≠ 9 → s.boot.step ≠ 10 → OnlyRegs [R.domAct, R.domStatus] s t) ∧
        (s.boot.step = 9 ∨ s.boot.step = 10 → famOf (cfgFsa s.domAct) ≠ famOf (cfgFsa v) →
          t.get (F.pllMultNint 1) = (nomFam (famOf (cfgFsa v))).1 ∧ t.sys.engClk = false)) ∧
    (cfgValid v = true → s.st = stRun → famOf (cfgFsa v) ≠ famOf (cfgFsa s.domAct) →
      ∃ t, exec (.domainApply m) s = .next t ∧ t.sys.dueFam = true ∧ t.dom.apply = some v ∧ t.domAct = s.domAct ∧
        t.get F.domStatusPend = 1 ∧ OnlyRegs [R.domStatus] s t) ∧
    (cfgValid v = true → s.st = stRun → v = s.domAct → ∃ t, exec (.domainApply m) s = .next t ∧ t.dom.apply = none ∧
      t.domAct = s.domAct ∧ t.get F.domStatusPend = 0 ∧ t.sys.dueFam = false ∧ t.sys.dueRate = false ∧ OnlyRegs [R.domStatus] s t) ∧
    (cfgValid v = true → s.st = stRun → v ≠ s.domAct → famOf (cfgFsa v) = famOf (cfgFsa s.domAct) →
      ∃ t, exec (.domainApply m) s = .next t ∧ t.dom.apply = some v ∧ t.domAct = s.domAct ∧ t.get F.domStatusPend = 1 ∧
        t.sys.dueFam = false ∧ (t.sys.dueRate = true ↔ cfgFsa v ≠ cfgFsa s.domAct ∨
          (s.inUse .b = true ∧ cfgKb v ≠ cfgKb s.domAct) ∨ (s.inUse .c = true ∧ cfgKc v ≠ cfgKc s.domAct)) ∧
        OnlyRegs [R.domStatus] s t) ∧
    (s.st = stRun → s.atEdge = true → s.tstamp % 12 = 0 →
      ∃ t, exec .rateSetBoundary s = .next t ∧ t.get F.domStatusM = t.mOfUse (t.inUse .b) (t.inUse .c) ∧
        (s.dom.apply = none → t.domAct = s.domAct) ∧
        (∀ w, s.dom.apply = some w → s.applyRebase = true → s.dom.applyNb ≤ s.tickNo →
          t.domAct = w ∧ t.get F.domStatusPend = 0) ∧ OnlyRegs [R.domAct, R.domStatus] s t) ∧
    (s.tstamp % 12 ≠ 0 → exec .rateSetBoundary s = .next s)

/-- The bridge commands (R178, R179): an enable of a bridge that is OFF with sides of different rates makes it PENDING, one
with equal rates sets CFG_ERR; at its boundary it runs with empty history; a disable makes it STOP_PENDING, and at the next
common boundary it is OFF, and a domain that nothing else holds leaves use.
Model's choices: log entry 112. -/
def BridgesRule : Prop :=
  ∀ (m : Master) (b : Fin 16) (v : Word) (s : State), m = .host 0 ∨ m = .boot →
    let keep := (v &&& 0x00FF0330#32)
    (s.get (F.brStatusState b) = 0 → s.flag (F.brCfgEn b) = false → v.getLsbD 0 = true →
      ((s.wr (R.brCfg b) keep).brBad b = false →
        ∃ t, exec (.bridgeEnable m b v) s = .next t ∧ t.get (F.brStatusState b) = 1 ∧ t.rd (R.brCfg b) = keep ||| 1#32 ∧
          OnlyRegs [R.brCfg b, R.brStatus b] s t) ∧
      ((s.wr (R.brCfg b) keep).brBad b = true →
        ∃ t, exec (.bridgeEnable m b v) s = .next t ∧ t.get (F.brStatusState b) = 0 ∧ t.flag (F.brStatusCfgErr b) = true ∧
          t.rd (R.brCfg b) = keep ∧ OnlyRegs [R.brCfg b, R.brStatus b] s t)) ∧
    (s.get (F.brStatusState b) = 2 → s.flag (F.brCfgEn b) = true → v.getLsbD 0 = false →
      ∃ t, exec (.bridgeDisable m b v) s = .next t ∧ t.get (F.brStatusState b) = 3 ∧ t.flag (F.brCfgEn b) = false ∧
        OnlyRegs [R.brCfg b, R.brStatus b] s t) ∧
    (s.st = stRun → s.atCommon = true → ng s.dom.brNb b 0 ≤ s.tickNo →
      (s.get (F.brStatusState b) = 1 → s.brInUse b = true →
        exec (.bridgeStart b) s = .next ((s.brZero b).put (F.brStatusState b) 2)) ∧
      (s.get (F.brStatusState b) = 3 → exec (.bridgeStop b) s = .next ((s.brZero b).put (F.brStatusState b) 0).useSync)) ∧
    (s.atCommon = false → exec (.bridgeStart b) s = .next s ∧ exec (.bridgeStop b) s = .next s)

/-- Rate domains and the bridges between them (R171 to R179). -/
def Obligations.DomainsAndBridges : Prop := DomainChangesRule ∧ BridgesRule

/-- TRANSITION_END, GATE_BLOCK_END, SCALE_RAMP_END and the generator writes (R24, R196, R197, R201, R202, R210): after the end no
record of the entry fades out past its length; a gate with a whole block is open exactly when the block's mean square is at
least 5 × 10^-10; a ramp past its length reads as ended; a new phase step takes the place of the old, and a waveform change
leaves phase and LFSR, while a change of EN or DOMAIN stops the generator until its next tick, whose sample stands while its domain is the same.
Model's choices: log entries 27, 28. -/
def Obligations.RouteAndGenerators : Prop :=
  (∀ (i : Nat) (s : State), ∃ t, exec (.transitionEnd i) s = .next t ∧ t.regs = s.regs ∧ t.mem = s.mem ∧
    (∀ r ∈ t.rt.run, r.idx = i → r.j ≥ r.n → r.mode = 0) ∧
    ∀ r ∈ s.rt.run, r.idx ≠ i ∨ (r.mode ≠ 0 ∧ r.j < r.n) → r ∈ t.rt.run) ∧
  (∀ (n : Fin 256) (s : State), ∃ t, exec (.gateBlockEnd n) s = .next t ∧ t.regs = s.regs ∧ t.mem = s.mem ∧
    t.rt.gates.length = s.rt.gates.length ∧
    ∀ (k : Nat) (g h : Gate), s.rt.gates[k]? = some g → t.rt.gates[k]? = some h →
      h.key = g.key ∧ (∀ x, g.key / 32 = n → g.last = some x →
        (h.opened = true ↔ gateBlock (s.nodeRate n) * 2 ^ 62 * 5 ≤ x * 10 ^ 10) ∧ h.last = none) ∧
      (g.key / 32 ≠ n ∨ g.last = none → h = g)) ∧
  (∀ (n : Fin 256) (s : State), (s.node n).live = true → 2 ^ (s.node n).k ≤ (s.node n).j →
    exec (.scaleRampEnd n) s = .next (s.put (F.sumStatRamp n) 0)) ∧
  (∀ (n : Fin 256) (s : State), (s.node n).j < 2 ^ (s.node n).k → exec (.scaleRampEnd n) s = .next s) ∧
  ∀ (m : Master) (g : Fin 8) (v : Word) (s : State),
    exec (.testGeneratorStep m g v) s = .next (s.ok.wr (R.tgStep g) v) ∧
    ((s.rd (R.tgCfg g)).getLsbD 31 = v.getLsbD 31 → (s.rd (R.tgCfg g)).extractLsb' 28 2 = v.extractLsb' 28 2 →
      exec (.testGeneratorConfig m g v) s = .next (s.ok.wr (R.tgCfg g) (v &&& 0xB30007FF#32))) ∧
    ((s.rd (R.tgCfg g)).getLsbD 31 ≠ v.getLsbD 31 ∨ (s.rd (R.tgCfg g)).extractLsb' 28 2 ≠ v.extractLsb' 28 2 →
      ∃ t, exec (.testGeneratorConfig m g v) s = .next t ∧ (t.tg g).running = false ∧
        (t.tg g).cur = (if (s.rd (R.tgCfg g)).extractLsb' 28 2 = v.extractLsb' 28 2 then (s.tg g).cur else 0#32) ∧
        (t.tg g).phase = (s.tg g).phase ∧ t.rd (R.tgCfg g) = v &&& 0xB30007FF#32 ∧ OnlyRegs [R.tgCfg g, R.domStatus] s t)

/-- One contribution and one sink in a sample (R137 to R141, R189, R192, R196 to R198, R484): a steady entry gives source times gain,
DELAY samples back where it has one; one in a gain ramp gives the gain of the ramp's next sample; one fading in or out that product
times its weight; endpoints of different rates give 0; a sink's sum is exact. The sink's value is the sum rounded, ties toward
+infinity, and held, which counts, sets SAT and names the sink; an override then mutes it or applies its gain.
Model's choices: log entries 7, 26. -/
def SinkSamplesRule : Prop :=
  (∀ (r : RRun) (x p : Word), r.cur.late = false → r.back = false →
    let j := if r.j < r.n then r.j + 1 else r.j
    let v : Int := if r.cur.delay = 0 then x.toInt else (((p :: r.hist)[r.cur.delay - 1]?).getD 0#32).toInt
    r.cur.delay < 64 → r.cur.delay ≤ r.hist.length →
    (r.sample x p false).1 = 0 ∧
    (r.mode = 0 → (r.sample x p true).1 = v * r.cur.gain) ∧
    (r.mode = 1 → 0 < r.n → (r.sample x p true).2.j = j ∧
      (r.sample x p true).1 = v * (r.gFrom + ((r.cur.gain - r.gFrom) * j + (r.n / 2 : Nat)) / r.n)) ∧
    (r.mode = 2 → (r.sample x p true).2.j = j ∧
      (r.sample x p true).1 = (v * r.cur.gain * weightIn r.law j r.n + 2 ^ 30) / 2 ^ 31) ∧
    (r.mode = 3 → (r.sample x p true).1 = (v * r.gFrom * weightIn r.law (r.n - j) r.n + 2 ^ 30) / 2 ^ 31)) ∧
  (∀ (s : State) (p : Nat → Bool) (key : Nat × Nat), s.rt.run ≠ [] →
    (∀ r ∈ s.rt.run, p r.cur.sink = true ∧ s.sinkKey r.cur.sink r.cur.inp = key) →
    ∃ id, (s.sumRuns p).1 = [⟨key, id, (s.rt.run.map (fun r =>
      (r.sample (s.srcNow r.cur.src) (s.srcPrev r.cur.src) (s.sameRate tabActive r.cur.src r.cur.sink)).1)).sum⟩]) ∧
  ∀ (s : State) (a : SinkSum), s.md.ovr = [] →
    let q := (a.sum + 2 ^ 28) / 2 ^ 29
    let mine := fun (m : Nat) => s.get (F.ovrSinkEn m) ≠ 0 ∧
      s.sinkKey (s.get (F.ovrSinkSink m)) (s.get (F.ovrSinkInput m)) = a.key
    let r := s.sinkValue a
    ((∀ m, m < 32 → mine m → s.get (F.ovrWordMode m) = 0) → r.1 = heldWord q) ∧
    (∀ m, m < 32 → mine m → s.get (F.ovrWordMode m) % 2 = 1 → r.1 = 0#32) ∧
    (∀ m, m < 32 → mine m → s.get (F.ovrWordMode m) = 2 → (∀ k, k < 32 → k ≠ m → mine k → s.get (F.ovrWordMode k) = 0) →
      r.1 = heldWord (((heldWord q).toInt * s.get (F.ovrWordGain m) + 2 ^ 21) / 2 ^ 22)) ∧
    r.2.get F.rtSatCntCount = min (s.get F.rtSatCntCount + clipOf q) 0xFFFFFFFF ∧
    (clipOf q = 1 → r.2.get F.rtStatusSat = 1 ∧ r.2.rd R.rtSatSink = BitVec.ofNat 32 (a.key.2 * 2 ^ 12 + a.id)) ∧
    (clipOf q = 0 → r.2.get F.rtStatusSat = s.get F.rtStatusSat ∧ r.2.rd R.rtSatSink = s.rd R.rtSatSink)

/-- A routed sample at a boundary (R61, R189, R192): where one steady entry alone takes a generator to an input word of an engine in
its domain, TICK_BOUNDARY leaves in that word the generator's sample of the tick that ends, times the gain, rounded and held. -/
def RoutedSampleRule : Prop :=
  ∀ (s : State) (k e : Fin 8) (w : Fin 64) (d : RDom) (r : RRun), PlainEdge s → s.rt.chk.order = [] → s.rt.run = [r] →
    r.mode = 0 → r.cur.delay = 0 → r.cur.late = false → r.back = false → r.cur.src = 0x5A0 + k.val →
    r.cur.sink = 0x200 + 64 * e.val + w.val → s.engDom e = some d → domOf (s.get (F.tgCfgDomain k)) = some d →
    d ∈ s.domsAt (s.sys.qt + s.stepQ) → s.inUse d = true → s.tePowered e = true → s.aliasOf e = e →
    (∀ m, m < 32 → s.get (F.ovrSinkEn m) = 0) → s.md.ovr = [] → (∀ q ∈ s.rt.inj, q.1 ≠ 0x5A0 + k.val) →
    ∃ t, exec .tickBoundary s = .next t ∧
      ng (t.eng e).inp w 0#32 = heldWord (((s.tg k).cur.toInt * r.cur.gain + 2 ^ 28) / 2 ^ 29)

/-- One sample of a summing node (R200 to R202): the scale of LAW and of the active inputs is in force at once in a node's first
sample, and else reached by a ramp of 2^K samples, which a new target restarts from the scale in force; the node's sample is its
scale times its inputs' sum, rounded and held; NACT, RAMP and SAT show it.
Model's choices: log entry 27. -/
def NodeSamplesRule : Prop :=
  ∀ (s : State) (n : Fin 256) (t f : Nat) (vals : List ((Nat × Nat) × Word)),
    let na := ((List.range 32).filter (fun i => s.inputActive n i)).length
    let x := s.node n
    let tg := s.nodeTarget tabActive n na
    let r := s.nodeSample n t f vals
    let y := r.node n
    let next := x.sFrom + (((x.sTo : Int) - x.sFrom) * (x.j + 1 : Nat) + (2 ^ x.k / 2 : Nat)) / (2 ^ x.k : Nat)
    let law := s.nodeW tabActive n 0 / 2 ^ 24 % 4
    let sum := ((vals.filter (fun p => p.1.1 == 0x400 + n.val)).map (fun p => p.2.toInt)).sum
    let q := (y.scale * sum + 2 ^ 30) / 2 ^ 31
    (law = 0 → tg = 2 ^ 31) ∧ (na = 0 → law ≠ 3 → tg = 2 ^ 31) ∧
    (law = 1 → 0 < na → tg = (2 ^ 32 + na) / (2 * na)) ∧
    (law = 2 → 0 < na → (2 * tg - 1) ^ 2 * na ≤ 2 ^ 64 ∧ 2 ^ 64 < (2 * tg + 1) ^ 2 * na) ∧
    (law = 3 → tg = s.nodeW tabActive n (7 + max 1 (min na 8))) ∧
    (x.live = false → y.scale = tg ∧ y.live = true ∧ r.get (F.sumStatRamp n) = 0) ∧
    (x.live = true → tg = x.sTo → x.j < 2 ^ x.k → y.scale = next.toNat ∧ y.j = x.j + 1) ∧
    (x.live = true → tg = x.sTo → 2 ^ x.k ≤ x.j → y.scale = x.scale) ∧
    (x.live = true → tg ≠ x.sTo → y.sTo = tg ∧ y.sFrom = y.scale ∧ y.j = 0 ∧
      y.k = min 10 (s.nodeW tabActive n 0 / 2 ^ 16 % 16) ∧ r.get (F.sumStatRamp n) = 1) ∧
    spGet (fun _ => 0#32) r.rt.now (0x400 + n.val) = heldWord q ∧ y.nact = na ∧ r.get (F.sumStatNact n) = na ∧
    r.flag (F.sumStatSat n) = (s.flag (F.sumStatSat n) || clipOf q == 1)

/-- One sample of an Umber unit (R206, R207): the peak level is the logarithm of the sample within 0.01 dB; the static gain without a
knee is Table 07-9's; every member of a link group takes the same gain; the output is the sample D back times the gain and the
make-up, within 0.01 dB, rounded and held. Levels are in 2^-24 dB, and `log2Fix` and `pow20` are the logarithm and the power in fixed
point.
Model's choices: log entries 30, 114, 115, 140. -/
def Obligations.UmberSamples : Prop :=
  (∀ (s : State) (u : Fin 32) (x : Word), (s.umbW tabActive (s.umbLead tabActive u) 0).testBit 25 = false →
    ∃ e : Int, |e| ≤ 167772 ∧ ((s.umbLevel tabActive u x).umb u).lev =
      (log2Fix (max x.toInt.natAbs 1) - 31 * 2 ^ 32) * 6619719610838 / 2 ^ 48 + e) ∧
  (∀ (ratio range : Nat) (d : Int),
    (ratio ≠ 0 → umbStatic 0 ratio 0 range d = if d ≤ 0 then 0 else (256 - (max ratio 256 : Nat) : Int) * d / (max ratio 256 : Nat)) ∧
    umbStatic 0 0 0 range d = (if d ≤ 0 then 0 else -d) ∧ umbStatic 1 ratio 0 range d = (if d ≤ 0 then 0 else -d) ∧
    (ratio ≠ 0 → umbStatic 2 ratio 0 range d =
      if 0 ≤ d then 0 else max (-(96 * 2 ^ 24)) (((max ratio 256 : Nat) - 256 : Int) * d / 256)) ∧
    umbStatic 3 ratio 0 range d = if 0 ≤ d then 0 else -((range : Int) * 2 ^ 24)) ∧
  (∀ (s : State) (u v : Nat), u ∈ s.umbGroup tabActive u → v ∈ s.umbGroup tabActive u →
    ((s.umbGain tabActive u).umb v).g = ((s.umbGain tabActive u).umb u).g) ∧
  ∀ (s : State) (u : Fin 32) (x : Word),
    let o := s.umb u
    let mk := s.umbW tabActive (s.umbLead tabActive u) 2 % 2 ^ 8
    s.umbDelay tabActive u = o.dly → s.umbLook tabActive u = o.look → o.old = none → o.dly < 4096 → mk ≤ 240 →
    ∃ e1 e2 : Int, |e1| ≤ 167772 ∧ |e2| ≤ 167772 ∧
      (s.umbOut tabActive u x).1 = heldWord ((((((x :: o.line)[o.dly]?).getD 0#32).toInt *
        pow20 ((o.g + 2 ^ 15) / 2 ^ 16 + e1 + (mk * 2 ^ 24 / 10 : Nat) + e2)) + 2 ^ 39) / 2 ^ 40)

/-- Samples of bridges and generators (R178 to R181, R210): a bridge's output is the rounded and held sum of its taps over its input
history, with a response symmetric about its delay and 0 beyond 28 samples of the slower side, while one that does not run gives 0;
square, noise and DC are the formulas of R210, and a sine lies within 1 LSB of A times `sinPhase`, the sine in units of 2^-96.
Model's choices: log entries 29, 31. -/
def SourceSamplesRule : Prop :=
  (∀ (k : Config.BridgeFir) (pi po trim : Nat) (x : Int) (h : List Word) (s : State),
    let q := (brSum k pi po trim x h + 2 ^ 47) / 2 ^ 48
    (Config.bridge = some k → s.brSample pi po trim x h = ((heldWord q, clipOf q == 1), s)) ∧
    brSum k pi po trim x h = (h.mapIdx (fun i v => v.toInt * brTap k pi po trim (x + (i * (pi * 256) : Nat)))).sum ∧
    (∀ d : Int, let c : Int := ((28 * max pi po + pi + po) * 256 + trim * po : Nat)
      brTap k pi po trim (c + d) = brTap k pi po trim (c - d) ∧
      ((28 * max pi po * 256 : Nat) < |d| → brTap k pi po trim (c + d) = 0))) ∧
  (∀ (s : State) (ds : List RDom) (b : Fin 16) (c : Fin 8), s.srcIn ds (0xC0 + 8 * b.val) = true → s.brRuns b = false →
    spGet (fun _ => 0#32) (s.brOut ds).rt.inj (0xC0 + 8 * b.val + c.val) = 0#32) ∧
  ∀ (a : Nat) (x : Tg), a ≤ 0x7FFFFFFF →
    (tgWave 1 a x).toInt = (if x.phase.toNat < 2 ^ 31 then (a : Int) else -a) ∧
    (tgWave 2 a x).toInt = (a * x.lfsr.toInt + 2 ^ 30) / 2 ^ 31 ∧ (tgWave 3 a x).toInt = a ∧
    (|sinPhase x.phase.toNat| ≤ 2 ^ 96 → |(tgWave 0 a x).toInt * 2 ^ 96 - a * sinPhase x.phase.toNat| ≤ 2 ^ 96 + 2 ^ 40) ∧
    lfsrStep x.lfsr = (if x.lfsr.getLsbD 0 = true then (x.lfsr >>> 1) ^^^ 0x80200003#32 else x.lfsr >>> 1)

/-- The samples that a boundary computes: sinks, summing nodes, bridges and generators (R180, R192 to R210). -/
def Obligations.SampleComputations : Prop := SinkSamplesRule ∧ RoutedSampleRule ∧ NodeSamplesRule ∧ SourceSamplesRule

/-! ## The Vat (R247 to R271) -/

/-- The descriptor that master `m` has staged, with `w7` as its last word. -/
def stagedDsc (s : State) (m : Master) (w7 : Word) : List Word :=
  (List.range 8).map (fun i => if i = 7 then w7 else spGet (fun _ => 0#32) s.vat.stage (8 * latchNo m + i))

/-- VAT_SUBMIT (R248, R250, R251, R253): the staged set with the written word 7 is offered; on acceptance the item joins the
end of the pending list, on refusal the list stays; the master's result holds the code and its DONE_CNT advanced by 1. An
action code from 5 up is INVALID, a host without its HOSTS bit DENIED, a disabled partition PARTITION, and with 1,024 items
pending an unordered descriptor is FULL. R250 gives no staging set to the boot sequencer; that it has one is the model's own.
Model's choices: log entry 34. -/
def Obligations.VatSubmit : Prop :=
  ∀ (m : Master) (w7 : Word) (s : State),
    let d := stagedDsc s m w7
    (∃ t, exec (.vatSubmit m w7) s = .next t ∧
      t.vat.pend = s.vat.pend ++ (if s.dscCheck d (hostOf m) = 0 then [s.itemOf d] else []) ∧
      t.vatRes m = BitVec.ofNat 32 (((s.vatRes m).toNat / 2 ^ 16 + 1) % 2 ^ 16 * 2 ^ 16 + s.dscCheck d (hostOf m)) ∧
      t.vat.run = s.vat.run ∧ t.vat.done = s.vat.done ∧ OnlyRegs [R.vatRefuseCnt] s t) ∧
    (5 ≤ fieldOf (dsc d 4) 0 3 → s.dscCheck d (hostOf m) = 1) ∧
    (s.dscInvalid d = false → ∀ h : Fin 4, m = .host h →
      (s.get (F.vatPartCfgHosts (fieldOf (dsc d 2) 12 2))).testBit h = false → s.dscCheck d (hostOf m) = 2) ∧
    (s.dscInvalid d = false → hostOf m = none → s.flag (F.vatPartCfgEn (fieldOf (dsc d 2) 12 2)) = false →
      s.dscCheck d (hostOf m) = 3) ∧
    (s.dscInvalid d = false → hostOf m = none → s.flag (F.vatPartCfgEn (fieldOf (dsc d 2) 12 2)) = true →
      fieldOf (dsc d 2) 0 6 = 0 → 1024 ≤ s.vat.pend.length → s.dscCheck d (hostOf m) = 7)

/-- VAT_DISPATCH, AFFINITY_WAIT_EXPIRY, ITEM_COMPLETION (R213, R214, R226, R235, R255 to R260): an eligible core that no
lower-numbered core forestalls takes its item and stands at the item start; a core that is not eligible takes nothing; an
expired wait opens the item to any core; completion frees the core and records OK, LATE or ABORTED, and counts the cycles of
a wait for the Vat; a core whose item finds the completion buffer full stalls with it.
Model's choices: log entry 35. -/
def VatDispatchRule : Prop :=
  ∀ (c : Fin 16) (cyc : Nat) (s : State),
    (∀ it, s.eligible c = true → s.pick c = some it → (∀ x, x < c.val → s.eligible x = true → s.pick x ≠ some it) →
      ∃ t, exec (.vatDispatch c) s = .next t ∧ t.igState c = 2 ∧ (t.core c).pc = it.entry ∧ (t.core c).r 0 = it.arg ∧
        (t.core c).r 1 = BitVec.ofNat 32 it.frame ∧ (t.core c).r 2 = BitVec.ofNat 32 (it.prio * 2 ^ 8 + it.flow) ∧
        (∀ r, 3 ≤ r → (t.core c).r r = 0#32) ∧ (t.core c).acc = Vector.replicate 8 0#72 ∧ (t.core c).rep = [] ∧
        (t.core c).exp = 0 ∧ (t.core c).bexp = 0 ∧ (t.core c).wdt = 0 ∧ (t.core c).cyc = 0 ∧ (t.core c).ic = (s.core c).ic ∧
        t.vat.pend = s.vat.pend.filter (fun j => j.id != it.id) ∧ OnlyRegs [R.igStatus c] s t) ∧
    (s.eligible c = false → exec (.vatDispatch c) s = .next s) ∧
    (∀ id : Nat, ∃ t, exec (.affinityWaitExpiry id) s = .next t ∧ t.regs = s.regs ∧ t.mem = s.mem ∧
      t.vat.pend = s.vat.pend.map (fun it => if it.id = id ∧ s.dispatchable it = true then { it with expired := true } else it)) ∧
    (∀ it, s.vat.run.find? (fun p => p.1 == c.val) = some (c.val, it) → s.igRuns c = true → (s.core c).fin ≠ 0 →
      (s.core c).fst_ = [] →
      (s.mustHold it = false → ∃ t, exec (.itemCompletion ⟨c, cyc⟩) s = .next t ∧ t.igState c = 1 ∧ (t.core c).fin = 0 ∧
        t.vat.done = s.vat.done ++ [(it, if (s.core c).fin = 2 then 2 else if s.lateItem it = true then 1 else 0)] ∧
        t.vat.pend = s.vat.pend ∧ (t.core c).w = (s.core c).w ∧ (t.core c).ic = (s.core c).ic ∧
        (t.core c).cyc = (s.core c).cyc + (if (s.core c).stall = 4 then cyc else 0) ∧
        ((s.core c).fin = 2 → t.flag (F.igStatusWdtAbort c) = true) ∧ OnlyRegs [R.igStatus c] s t) ∧
      (s.mustHold it = true → ∃ t, exec (.itemCompletion ⟨c, cyc⟩) s = .next t ∧ t.vat = s.vat ∧ t.regs = s.regs ∧
        t.mem = s.mem ∧ (t.core c).stall = 4 ∧ (t.core c).fin = (s.core c).fin ∧ (t.core c).w = (s.core c).w)) ∧
    ((s.core c).fst_ ≠ [] → exec (.itemCompletion ⟨c, cyc⟩) s = .next s)

/-- ITEM_RELEASE and COMPLETION_RECORD_READ (R260 to R263): an unordered item with a host IRQ action leaves a record at the
end of its host's queue, and at a full queue sets OVF; the host's own read answers and removes the oldest record, another
master's reads 0 and removes nothing; a flow whose head has not completed releases nothing. -/
def VatReleaseRule : Prop :=
  (∀ (it : Item) (st : Nat) (h : Fin 4) (s : State),
    s.vat.done.find? (fun p => p.1.flow == 0) = some (it, st) → it.flow = 0 → it.act = 2 → it.tgt = h →
    ((ng s.vat.cpl h []).length < 32 → ∃ t, exec (.itemRelease 0) s = .next t ∧
      ng t.vat.cpl h [] = ng s.vat.cpl h [] ++ [(it.tag, st)] ∧ t.get (F.vatCplStatCount h) = (ng s.vat.cpl h []).length + 1 ∧
      t.vat.done = s.vat.done.filter (fun q => q.1.id != it.id)) ∧
    (32 ≤ (ng s.vat.cpl h []).length → ∃ t, exec (.itemRelease 0) s = .next t ∧ t.flag (F.vatCplStatOvf h) = true ∧
      t.vat.cpl = s.vat.cpl ∧ t.vat.done = s.vat.done.filter (fun q => q.1.id != it.id))) ∧
  (∀ (f : Nat) (s : State), f ≠ 0 → (∀ p ∈ s.vat.done, p.1.flow = f → s.isHead p.1 = false) →
    exec (.itemRelease f) s = .next s) ∧
  ∀ (m : Master) (h : Fin 4) (s : State),
    (∀ r q, m = .host h → ng s.vat.cpl h [] = r :: q → ∃ t, exec (.completionRecordRead m h) s = .next t ∧
      t.rdata = r.1 ∧ ng t.vat.cpl h [] = q ∧ t.get (F.vatCplStatCount h) = q.length % 2 ^ 6 ∧
      OnlyRegs [R.vatCplStat h] s t) ∧
    (m ≠ .host h → exec (.completionRecordRead m h) s = .next { s.ok with rdata := 0#32 })

/-- Work items leave the queues and return (R251 to R262). -/
def Obligations.VatDispatchRelease : Prop := VatDispatchRule ∧ VatReleaseRule

/-- PARTITION_CONFIG and the frame clocks (R254, R265, R266, R268, R269): a partition that overlaps sets CFG_ERR and changes
nothing else; an enabled clock starts at its fence with number FNUM + 1; at a later fence FNUM advances by 1, and
the clock stops there when EN is 0; the window of the frame that has ended opens, also after the clock's last frame; at a
fence cutoff, 1,024 cycles before the fence, a flow with an incomplete item of frame FNUM - 1 gets its FRAME_OVERRUN bit.
Model's choices: log entry 32. -/
def Obligations.VatFrames : Prop :=
  ∀ (m : Master) (s : State), m = .host 0 ∨ m = .boot →
    (∀ (p : Fin 4) (v : Word),
      (s.partBad p v = false ∨ v.getLsbD 31 = false → exec (.partitionConfig m p v) s = .next (s.ok.wr (R.vatPartCfg p) (v &&& 0xFFF3FFFF#32))) ∧
      (v.getLsbD 31 = true → s.partBad p v = true → exec (.partitionConfig m p v) s = .next (s.ok.put F.vatEvtCfgErr 1))) ∧
    ∀ c : Fin 8,
      (∀ v : Word, s.flag (F.vatFclkEn c) = false → s.flag (F.vatFclkRun c) = false → v.getLsbD 31 = true →
        v.extractLsb' 4 2 ≠ 3#2 → v.extractLsb' 0 3 ≤ 5#3 →
        ∃ t, exec (.frameClockEnable m c v) s = .next t ∧ t.flag (F.vatFclkEn c) = true ∧ t.flag (F.vatFclkRun c) = false ∧
          t.get (F.vatFclkDom c) = (v.extractLsb' 4 2).toNat ∧ t.get (F.vatFclkLen c) = (v.extractLsb' 0 3).toNat ∧
          t.fnum c = s.fnum c ∧ OnlyRegs [R.vatFclk c] s t) ∧
      (∀ v : Word, s.flag (F.vatFclkEn c) = true → s.flag (F.vatFclkRun c) = true → v.getLsbD 31 = false →
        ∃ t, exec (.frameClockEnable m c v) s = .next t ∧ t.flag (F.vatFclkEn c) = false ∧ t.flag (F.vatFclkRun c) = true ∧
          OnlyRegs [R.vatFclk c, R.vatEvt] s t) ∧
      (∀ v : Word, s.flag (F.vatFclkEn c) = false → s.flag (F.vatFclkRun c) = false → v.getLsbD 31 = true →
        v.extractLsb' 4 2 = 3#2 ∨ 5#3 < v.extractLsb' 0 3 →
        ∃ t, exec (.frameClockEnable m c v) s = .next t ∧ t.flag (F.vatFclkEn c) = false ∧ t.flag F.vatEvtCfgErr = true ∧
          OnlyRegs [R.vatFclk c, R.vatEvt] s t) ∧
      (∀ d, domOf (s.get (F.vatFclkDom c)) = some d → s.inUse d = true → s.flag (F.vatFclkEn c) = true →
        s.flag (F.vatFclkRun c) = false → s.atFence c = true → s.atCommon = true → (s.fclk c).startNb ≤ s.tickNo →
        ∃ t, exec (.frameClockStart c) s = .next t ∧ t.flag (F.vatFclkRun c) = true ∧ t.fnum c = (s.fnum c + 1) % 2 ^ 32 ∧
          (t.fclk c).first = (s.fclk c).first ∧ OnlyRegs [R.vatFclk c, R.vatFnum c] s t) ∧
      (s.flag (F.vatFclkRun c) = true → s.atFence c = true → (s.fclk c).at_ ≠ some s.sys.qt →
        (s.flag (F.vatFclkEn c) = true → ∃ t, exec (.frameFence c) s = .next t ∧ t.fnum c = (s.fnum c + 1) % 2 ^ 32 ∧
          t.flag (F.vatFclkRun c) = true ∧ OnlyRegs [R.vatFnum c] s t) ∧
        (s.flag (F.vatFclkEn c) = false → ∃ t, exec (.frameFence c) s = .next t ∧ t.flag (F.vatFclkRun c) = false ∧
          t.fnum c = s.fnum c ∧ OnlyRegs [R.vatFclk c, R.domStatus] s t)) ∧
      (∀ n, n = (if s.flag (F.vatFclkRun c) = true then (s.fnum c + 2 ^ 32 - 1) % 2 ^ 32 else s.fnum c) → s.st = stRun →
        (0 ≤ frameDiff n (s.fclk c).first → ∃ t, exec (.captureWindowOpen c) s = .next t ∧ (t.fclk c).opened = some n ∧
          t.regs = s.regs ∧ t.mem = s.mem) ∧
        (frameDiff n (s.fclk c).first < 0 → exec (.captureWindowOpen c) s = .next s)) ∧
      (∀ (d : RDom) (f : Nat), domOf (s.get (F.vatFclkDom c)) = some d → s.st = stRun → s.flag (F.vatFclkRun c) = true →
        (s.dtick d + (1024 + s.cD d - 1) / s.cD d) % s.frameLen c = 0 → (s.fclk c).cut ≠ some ((s.fnum c + 2 ^ 32 - 1) % 2 ^ 32) → 1 ≤ f → f < 32 →
        ∃ t, exec (.fenceCutoff c) s = .next t ∧ (t.fclk c).cut = some ((s.fnum c + 2 ^ 32 - 1) % 2 ^ 32) ∧
          ((t.rd R.vatOvrLo).getLsbD f = true ↔ (s.rd R.vatOvrLo).getLsbD f = true ∨
            s.overrun c f ((s.fnum c + 2 ^ 32 - 1) % 2 ^ 32) = true) ∧ t.mem = s.mem)

/-! ## Indigo cores (R213 to R245) -/

/-- Core `c` is about to issue the bundle `x`, which is legal where it stands. -/
def IssuesAt (s : State) (c : Fin 16) (x : DWord) : Prop :=
  s.igReady c = true ∧ (s.core c).ferr = false ∧ (s.core c).fetch = some x ∧ bundleLegal (s.core c) x = true

/-- What no bundle changes: the other cores, memory outside the core's local memory, memory at all when it stores nothing,
and registers but the core's STATUS, DBELL and counts. -/
def IgFrame (c : Fin 16) (x : DWord) (s t : State) : Prop :=
  (∀ d, d ≠ c.val → t.core d = s.core d) ∧ (∀ a, (a < lmBase c ∨ lmBase c + 0x40000 ≤ a) → t.rb a = s.rb a) ∧
  ((mMop (memOp x false) < 2 ∧ mMop (memOp x true) < 2) → t.mem = s.mem) ∧
  (∀ a, a ∉ [R.igStatus c, R.igSatCnt c, R.igBankStall c, R.igDbell c] → t.rd a = s.rd a) ∧ t.vat = s.vat ∧ t.te = s.te

/-- Register `r` after a bundle that does not write it: the value that a load of the bundle before has waiting for it, the
last of them, else what it held (R224). -/
def landed (k : Core) (r : Nat) : Word := ((k.ld.reverse.find? (fun p => p.1 == r)).map Prod.snd).getD (k.r r)

/-- Issuing a bundle with compute operation `op` writes `val` to D; every other W register keeps its value or takes a load
of the bundle before; accumulators keep theirs; in sequence the next address is 8 further. -/
def IgWrites (i : Instr) (c : Fin 16) (op : Nat) (val : Core → DWord → Word) : Prop :=
  ∀ (s : State) (x : DWord), IssuesAt s c x → cOp x = op →
    ∃ t, exec i s = .next t ∧ (t.core c).r (opD x) = val (s.core c) x ∧
      (∀ r, r < 32 → r ≠ opD x → (t.core c).r r = landed (s.core c) r) ∧ (t.core c).acc = (s.core c).acc ∧
      ((s.core c).dly = 0 → (t.core c).pc = (s.core c).pc + 8 ∧ (t.core c).z = (s.core c).z ∧ (t.core c).n = (s.core c).n ∧
        (t.core c).c = (s.core c).c) ∧ IgFrame c x s t

/-- The compute operations with a W result (R215, R223, Tables 08-3 and 08-5), in every bundle that holds them.
Model's choice: log entry 143. -/
def Obligations.IgAluWritesDestination : Prop :=
  ∀ c : Fin 16,
    IgWrites (.igAdd c) c 0x10 (fun k x => k.r (opA x) + k.r (opB x)) ∧
    IgWrites (.igSub c) c 0x11 (fun k x => k.r (opA x) - k.r (opB x)) ∧
    IgWrites (.igAdds c) c 0x12 (fun k x => BitVec.ofInt 32 (max (-2 ^ 31) (min (2 ^ 31 - 1) ((k.r (opA x)).toInt + (k.r (opB x)).toInt)))) ∧
    IgWrites (.igSubs c) c 0x13 (fun k x => BitVec.ofInt 32 (max (-2 ^ 31) (min (2 ^ 31 - 1) ((k.r (opA x)).toInt - (k.r (opB x)).toInt)))) ∧
    IgWrites (.igAnd c) c 0x14 (fun k x => k.r (opA x) &&& k.r (opB x)) ∧
    IgWrites (.igOr c) c 0x15 (fun k x => k.r (opA x) ||| k.r (opB x)) ∧
    IgWrites (.igXor c) c 0x16 (fun k x => k.r (opA x) ^^^ k.r (opB x)) ∧
    IgWrites (.igMin c) c 0x17 (fun k x => if (k.r (opA x)).slt (k.r (opB x)) then k.r (opA x) else k.r (opB x)) ∧
    IgWrites (.igMax c) c 0x18 (fun k x => if (k.r (opA x)).slt (k.r (opB x)) then k.r (opB x) else k.r (opA x)) ∧
    IgWrites (.igMov c) c 0x19 (fun k x => k.r (opA x)) ∧
    IgWrites (.igAddi c) c 0x1B (fun k x => k.r (opA x) + (x.extractLsb' 40 8).signExtend 32) ∧
    IgWrites (.igAsr c) c 0x1C (fun k x => (k.r (opA x)).sshiftRight (x.extractLsb' 40 8).toNat) ∧
    IgWrites (.igLsr c) c 0x1D (fun k x => k.r (opA x) >>> (x.extractLsb' 40 8).toNat) ∧
    IgWrites (.igLsl c) c 0x1E (fun k x => k.r (opA x) <<< (x.extractLsb' 40 8).toNat) ∧
    IgWrites (.igLdiw c) c 0x30 (fun _ x => x.extractLsb' 0 32) ∧
    (∀ (s : State) (x : DWord), IssuesAt s c x → cOp x = 0x1F → ∃ t, exec (.igNsb c) s = .next t ∧
      (t.core c).r (opD x) = BitVec.ofNat 32 (nsb ((s.core c).r (opA x))) ∧ IgFrame c x s t ∧
      (∀ i, 31 - nsb ((s.core c).r (opA x)) ≤ i → i < 31 →
        ((s.core c).r (opA x)).getLsbD i = ((s.core c).r (opA x)).getLsbD 31) ∧
      (nsb ((s.core c).r (opA x)) < 31 → ((s.core c).r (opA x)).getLsbD (30 - nsb ((s.core c).r (opA x))) ≠
        ((s.core c).r (opA x)).getLsbD 31)) ∧
    ∀ (s : State) (x : DWord), IssuesAt s c x → cOp x = 0x23 → ∃ t, exec (.igMfs c) s = .next t ∧ IgFrame c x s t ∧
      (t.core c).r (opD x) = (match cImm8 x with
        | 0 => (s.core c).scale
        | 1 => BitVec.ofInt 32 (s.core c).exp
        | 2 => BitVec.ofInt 32 (s.core c).bexp
        | 3 => BitVec.ofNat 32 (4 * b2n (s.core c).c + 2 * b2n (s.core c).n + b2n (s.core c).z)
        | 4 => BitVec.ofNat 32 (s.get (F.igDbellPend c))
        | _ => BitVec.ofNat 32 ((s.core c).cyc + 1))

/-- Issuing a bundle with compute operation `op` gives accumulator `j` the value `val j` and no W register a result. -/
def IgAccTakes (i : Instr) (c : Fin 16) (op : Nat) (val : Core → DWord → Nat → BitVec 72) : Prop :=
  ∀ (s : State) (x : DWord), IssuesAt s c x → cOp x = op →
    ∃ t, exec i s = .next t ∧ (∀ j, j < 8 → (t.core c).a j = val (s.core c) x j) ∧
      (∀ r, r < 32 → (t.core c).r r = landed (s.core c) r) ∧ IgFrame c x s t

/-- An exact sum bounded to the 72 bits of an accumulator (R217). -/
def acc72 (v : Int) : BitVec 72 := BitVec.ofInt 72 (max (-2 ^ 71) (min (2 ^ 71 - 1) v))

/-- The product of W registers `i` and `j`, negated when NEG is 1 (R217). -/
def signedProduct (k : Core) (x : DWord) (i j : Nat) : Int :=
  (if x.getLsbD 44 then -1 else 1) * ((k.r i).toInt * (k.r j).toInt)

/-- NOP and the operations that set accumulators (R215, R217, R220). -/
def IgAccumulateRule : Prop :=
  ∀ c : Fin 16,
    IgAccTakes (.igNop c) c 0x00 (fun k _ j => k.a j) ∧
    IgAccTakes (.igMac c) c 0x01 (fun k x j => if j = cAcc x then acc72 ((k.a j).toInt + signedProduct k x (cX x) (cY x)) else k.a j) ∧
    IgAccTakes (.igMacp c) c 0x02 (fun k x j => if j = cAcc x then
      acc72 ((k.a j).toInt + (signedProduct k x (cX x) (cY x) + signedProduct k x (cX x + 1) (cY x + 1))) else k.a j) ∧
    IgAccTakes (.igMac2 c) c 0x03 (fun k x j => if j = cAcc x then acc72 ((k.a j).toInt + signedProduct k x (cX x) (cY x))
      else if j = cAcc x + 1 then acc72 ((k.a j).toInt + signedProduct k x (cX x + 1) (cY x + 1)) else k.a j) ∧
    IgAccTakes (.igMpy c) c 0x05 (fun k x j => if j = cAcc x then acc72 (signedProduct k x (cX x) (cY x)) else k.a j) ∧
    IgAccTakes (.igClr c) c 0x06 (fun k x j => if j = cF x 10 3 then 0#72 else k.a j) ∧
    IgAccTakes (.igMacq c) c 0x04 (fun k x j =>
      let sg : Int := if x.getLsbD 44 then -1 else 1
      let h := fun (i : Nat) => ((k.r i).extractLsb' 16 16).toInt
      let l := fun (i : Nat) => ((k.r i).extractLsb' 0 16).toInt
      let p := fun (g : Nat → Int) => sg * (g (cX x) * g (cY x) + g (cX x + 1) * g (cY x + 1))
      let b := fun (v : Int) => BitVec.ofInt 36 (max (-2 ^ 35) (min (2 ^ 35 - 1) v))
      if j = cAcc x then
        b (((k.a j).extractLsb' 36 36).toInt + p h) ++ b (((k.a j).extractLsb' 0 36).toInt + p l)
      else k.a j)

/-- The scaled value r of R218 of accumulator `i`, before its saturation. -/
def scaledAcc (k : Core) (i : Nat) : Int :=
  let t := max (-16) (min 15 ((k.scale.extractLsb' 0 5).toInt + if k.scale.getLsbD 31 then k.exp else 0))
  ((k.a i).toInt + 2 ^ (31 - t).toNat / 2) / 2 ^ (31 - t).toNat

/-- MOVA and MOVAC (R218 to R220): with PK 0 D takes the accumulator's value at the start of the bundle shifted right by
31 - t, ties toward +infinity, saturated; a clip sets SAT and counts; MOVAC then clears the accumulator. -/
def IgMoveRule : Prop :=
  ∀ (c : Fin 16) (s : State) (x : DWord), IssuesAt s c x → cF x 9 1 = 0 →
    let k := s.core c
    let r := scaledAcc k (cF x 10 3)
    let clips := r < -2 ^ 31 ∨ 2 ^ 31 - 1 < r
    let v : Word := BitVec.ofInt 32 (max (-2 ^ 31) (min (2 ^ 31 - 1) r))
    (cOp x = 0x07 → ∃ t, exec (.igMova c) s = .next t ∧ (t.core c).r (opD x) = v ∧ (t.core c).acc = k.acc ∧
      (clips → t.flag (F.igStatusSat c) = true ∧ s.get (F.igSatCntCount c) ≤ t.get (F.igSatCntCount c)) ∧ IgFrame c x s t) ∧
    (cOp x = 0x08 → ∃ t, exec (.igMovac c) s = .next t ∧ (t.core c).r (opD x) = v ∧
      (∀ j, j < 8 → (t.core c).a j = if j = cF x 10 3 then 0#72 else k.a j) ∧
      (clips → t.flag (F.igStatusSat c) = true) ∧ IgFrame c x s t)

/-- Indigo accumulators and moves. -/
def Obligations.IgAccumulatorsAndMoves : Prop := IgAccumulateRule ∧ IgMoveRule

/-- CMP, AGSET, AGADD, MTS (R215, R221, R222): outside a delay slot CMP sets Z, N and C from the two comparisons; AGSET
sets the selected field; AGADD advances IDX by A in the generator's mode; MTS sets its special register. -/
def IgStateRule : Prop :=
  ∀ (c : Fin 16) (s : State) (x : DWord), IssuesAt s c x →
    let k := s.core c
    let a := k.r (opA x)
    let v := k.r (cF x 7 5)
    let g := cF x 15 3
    (cOp x = 0x1A → k.dly = 0 → ∃ t, exec (.igCmp c) s = .next t ∧ (t.core c).z = (a == k.r (opB x)) ∧
      (t.core c).n = a.slt (k.r (opB x)) ∧ (t.core c).c = a.ult (k.r (opB x)) ∧ (t.core c).acc = k.acc ∧
      (∀ r, r < 32 → (t.core c).r r = landed k r) ∧ IgFrame c x s t) ∧
    (cOp x = 0x20 → ∃ t, exec (.igAgset c) s = .next t ∧ IgFrame c x s t ∧ (t.core c).acc = k.acc ∧
      (cF x 12 3 = 0 → ((t.core c).gen g).base = v.toNat % 2 ^ 18) ∧ (cF x 12 3 = 1 → ((t.core c).gen g).idx = v.toNat % 2 ^ 18) ∧
      (cF x 12 3 = 2 → ((t.core c).gen g).step = v.toNat % 2 ^ 18) ∧ (cF x 12 3 = 3 → ((t.core c).gen g).len = v.toNat % 2 ^ 19) ∧
      (cF x 12 3 = 4 → ((t.core c).gen g).mode = v.toNat % 2 ^ 2)) ∧
    (cOp x = 0x21 → ∃ t, exec (.igAgadd c) s = .next t ∧ IgFrame c x s t ∧ (t.core c).acc = k.acc ∧
      ((t.core c).gen g).idx = (match (k.gen g).mode with
        | 1 => (((k.gen g).idx + (v.extractLsb' 0 18).toInt) % (if (k.gen g).len = 0 then 262144 else (k.gen g).len)).toNat % 262144
        | 2 => (((k.gen g).idx + (v.extractLsb' 0 18).toInt) % 2 ^ Nat.log2 (if (k.gen g).len = 0 then 262144 else (k.gen g).len)).toNat
        | _ => (((k.gen g).idx + (v.extractLsb' 0 18).toInt) % 262144).toNat)) ∧
    (cOp x = 0x22 → k.dly = 0 → ∃ t, exec (.igMts c) s = .next t ∧ IgFrame c x s t ∧ (t.core c).acc = k.acc ∧
      (t.core c).scale = (if cImm8 x = 0 then a &&& 0xB300001F#32 else k.scale) ∧
      (t.core c).exp = (if cImm8 x = 1 then (a.extractLsb' 0 4).toInt else k.exp) ∧
      (t.core c).bexp = (if cImm8 x = 2 then (a.extractLsb' 0 16).toInt else k.bexp) ∧
      (t.core c).z = (if cImm8 x = 3 then a.getLsbD 0 else k.z) ∧ (t.core c).n = (if cImm8 x = 3 then a.getLsbD 1 else k.n) ∧
      (t.core c).c = (if cImm8 x = 3 then a.getLsbD 2 else k.c) ∧
      ∀ i, i < 16 → ((t.get (F.igDbellPend c)).testBit i =
        ((s.get (F.igDbellPend c)).testBit i && !(decide (cImm8 x = 4) && a.getLsbD i))))

/-- Local memory (R218, R219, R221, R224, R225): MA loads W(REG) from EA for the bundle after the next, stores it there, or
stores the scaled accumulator; with MB idle and a 32-bit size, no other word of the memory changes. -/
def IgLocalRule : Prop :=
  ∀ (c : Fin 16) (s : State) (x : DWord), IssuesAt s c x → isLong x = false →
    let k := s.core c
    let m := memOp x false
    let gen := k.gen (mAg m)
    let ea := lmBase c + (gen.base + gen.index 2) % 2 ^ 18 / 4 * 4
    memOp x true = 0 → mPair m = false →
    (mMop m = 1 → ∃ t, exec (.igLoad c) s = .next t ∧ (t.core c).ld = [(mReg m, s.rw ea)] ∧ IgFrame c x s t) ∧
    (mMop m = 2 → ∃ t, exec (.igStore c) s = .next t ∧ t.rw ea = k.r (mReg m) ∧
      (∀ a, (a < ea ∨ ea + 4 ≤ a) → t.rb a = s.rb a) ∧ IgFrame c x s t) ∧
    (mMop m = 3 → ∃ t, exec (.igScaledStore c) s = .next t ∧
      t.rw ea = BitVec.ofInt 32 (max (-2 ^ 31) (min (2 ^ 31 - 1) (scaledAcc k (mReg m)))) ∧
      (∀ a, (a < ea ∨ ea + 4 ≤ a) → t.rb a = s.rb a) ∧ IgFrame c x s t) ∧
    (mMop m ≠ 0 → mPm m = true → gen.mode = 0 ∨ gen.mode = 3 → (cOp x ≠ 0x20 ∧ cOp x ≠ 0x21) → mMop m = 1 →
      ∃ t, exec (.igLoad c) s = .next t ∧
        ((t.core c).gen (mAg m)).idx = ((gen.idx + (BitVec.ofNat 18 gen.step).toInt) % 262144).toNat)

/-- Indigo state registers and local memory. -/
def Obligations.IgStateAndLocal : Prop := IgStateRule ∧ IgLocalRule

/-- Control flow (R227, R230, R234): BR, CALL, RET, RTE and DONE open two delay slots and note what follows them; CALL's
link is the address after the slots; the last slot's end branches, goes on, ends the item or returns to EPC with the flags
of ESTAT, or aborts the item where the watchdog count has reached its limit; REP opens a block of N iterations of its body, or
skips it in two more cycles when N is 0. That the flags come back at the end of the last slot is the model's reading: R234 does not
fix the moment.
Model's choices: log entry 36. -/
def Obligations.IgControlFlow : Prop :=
  ∀ (c : Fin 16) (s : State) (x : DWord), IssuesAt s c x →
    let k := s.core c
    let off : Nat := ((k.pc + 8 * (x.extractLsb' 0 24).toInt) % 2 ^ 32).toNat
    let taken := match cF x 14 4 with
      | 0 => true | 1 => k.z | 2 => !k.z | 3 => k.n | 4 => !k.n | 5 => k.c | _ => !k.c
    let slots := fun (i : Instr) (after_ : Nat) (tgt : Option Nat) => ∃ t, exec i s = .next t ∧ (t.core c).dly = 2 ∧
      (t.core c).after_ = after_ ∧ (∀ g, tgt = some g → (t.core c).tgt = g) ∧ (t.core c).pc = k.pc + 8 ∧
      (t.core c).acc = k.acc ∧ (∀ r, r < 31 → (t.core c).r r = landed k r) ∧ t.mem = s.mem ∧ t.vat = s.vat
    (cOp x = 0x31 → slots (.igBr c) (if taken then 1 else 0) (some off)) ∧
    (cOp x = 0x32 → slots (.igCall c) 1 (some off) ∧ ∃ t, exec (.igCall c) s = .next t ∧
      (t.core c).r 31 = BitVec.ofNat 32 (k.pc + 24)) ∧
    (cOp x = 0x33 → slots (.igRet c) 1 (some ((k.r 31).toNat / 8 * 8))) ∧
    (cOp x = 0x34 → slots (.igRte c) 3 none) ∧
    (cOp x = 0x36 → slots (.igDone c) 2 none) ∧
    (cOp x = 0x35 →
      let n := if cF x 17 1 = 1 then (k.r (cF x 12 5)).toNat % 2 ^ 16 else (x.extractLsb' 24 16).toNat
      let len := (x.extractLsb' 0 12).toNat + 1
      ∃ t, exec (.igRep c) s = .next t ∧ (t.core c).acc = k.acc ∧ t.mem = s.mem ∧
        (n ≠ 0 → (t.core c).pc = k.pc + 8 ∧ (t.core c).rep = ⟨k.pc + 8, k.pc + 8 * len, n⟩ :: k.rep ∧ (t.core c).cyc = k.cyc + 1) ∧
        (n = 0 → (t.core c).pc = k.pc + 8 + 8 * len ∧ (t.core c).rep = k.rep ∧ (t.core c).cyc = k.cyc + 3)) ∧
    (cOp x = 0x00 → k.dly = 1 → ∃ t, exec (.igNop c) s = .next t ∧ (t.core c).dly = 0 ∧
      (k.after_ = 0 → (t.core c).pc = k.pc + 8) ∧ (k.after_ = 1 → (t.core c).pc = k.tgt) ∧ (k.after_ = 2 → (t.core c).fin = 1) ∧
      (k.after_ = 3 → k.limit = 0 ∨ (t.core c).wdt < k.limit ∨ (k.inH = false ∧ k.pWdt = true) →
        (t.core c).pc = s.get (F.igEpcPc c) ∧ t.igState c = 2 ∧ (t.core c).inH = false ∧
        (t.core c).z = (s.get (F.igEstatFlags c)).testBit 0 ∧ (t.core c).n = (s.get (F.igEstatFlags c)).testBit 1 ∧
        (t.core c).c = (s.get (F.igEstatFlags c)).testBit 2) ∧
      (k.after_ = 3 → k.limit ≠ 0 → k.limit ≤ (t.core c).wdt → k.inH = true → (t.core c).fin = 2))

/-- Far accesses, FENCE, SUBMIT and BKPT (R226, R236, R243, R244): FLD stalls; FST is posted, and a fifth stalls; FENCE waits
for the last, and goes on once it is done; SUBMIT sets C exactly on refusal and counts the cycles it stalled, at most 16.
Model's choices: log entry 35. -/
def IgFarRule : Prop :=
  ∀ (c : Fin 16) (s : State) (x : DWord), IssuesAt s c x →
    let k := s.core c
    (cOp x = 0x37 → ∃ t, exec (.igFld c) s = .next t ∧ (t.core c).stall = 1 ∧ (t.core c).fldReg = opD x ∧
      (t.core c).fldAddr = (k.r (opA x)).toNat ∧ (t.core c).pc = k.pc ∧ (t.core c).w = k.w ∧ t.mem = s.mem ∧ t.regs = s.regs) ∧
    (cOp x = 0x38 → k.fst_.length < 4 → ∃ t, exec (.igFst c) s = .next t ∧
      (t.core c).fst_ = k.fst_ ++ [⟨(k.r (opA x)).toNat, k.r (opB x), !s.refuses (k.r (opA x)).toNat, false⟩] ∧ (∀ r, r < 32 → (t.core c).r r = landed k r) ∧ t.mem = s.mem) ∧
    (cOp x = 0x38 → 4 ≤ k.fst_.length → ∃ t, exec (.igFst c) s = .next t ∧ (t.core c).stall = 3 ∧ (t.core c).pc = k.pc ∧
      (t.core c).fst_ = k.fst_ ∧ (t.core c).w = k.w ∧ t.mem = s.mem) ∧
    (cOp x = 0x39 → (k.fst_ = [] → ∃ t, exec (.igFence c) s = .next t ∧ (t.core c).stall = 0 ∧ t.mem = s.mem ∧
        ∀ r, r < 32 → (t.core c).r r = landed k r) ∧
      (k.fst_ ≠ [] → ∃ t, exec (.igFence c) s = .next t ∧ (t.core c).stall = 2 ∧ (t.core c).pc = k.pc ∧ t.mem = s.mem)) ∧
    (∀ n : Nat, cOp x = 0x3A → k.dly = 0 →
      let a := lmBase c + (k.r (opA x)).toNat % 0x40000 / 32 * 32
      let d := (List.range 8).map (fun i => s.rw (a + 4 * i))
      ∃ t, exec (.igSubmit ⟨c, n⟩) s = .next t ∧ ((t.core c).c = true ↔ s.dscCheck d none ≠ 0) ∧ (t.core c).z = k.z ∧
        (t.core c).n = k.n ∧ (t.core c).cyc = k.cyc + 1 + min n 16 ∧ t.vat.pend = s.vat.pend ++ (if s.dscCheck d none = 0 then [s.itemOf d] else []) ∧ t.mem = s.mem) ∧
    (cOp x = 0x3B → ∃ t, exec (.igBkpt c) s = .next t ∧ (t.core c).pDbg = true ∧ t.mem = s.mem ∧
      ∀ r, r < 32 → (t.core c).r r = landed k r)

/-- FLD_COMPLETE and FST_COMPLETE on a powered local memory (R226, R240, R243): FLD's register takes the word, the cycles of
its stall count, and the oldest FST lands. That the read finds the word as it stands is said where the target's core has
stored nothing in its last bundle, or where that bundle's cycle is past. A core that stands in FENCE goes on when its last FST has landed.
Model's choices: log entry 35. -/
def IgFarDoneRule : Prop :=
  ∀ (c n : Fin 16) (o : Fin 65536) (v : Word) (cyc w : Nat) (ok : Bool) (s : State) (l : List FarWrite),
    let a := lmBase n + 4 * o.val
    s.igPowered n = true → s.sys.trig = 0 →
    (s.igRuns c = true → (s.core c).stall = 1 → (s.core c).fst_ = [] → (s.core c).fldAddr = a → (s.core c).fldReg < 32 →
      (s.core n).st = [] ∨ (s.core n).stAt + 2 ≤ (s.atCyc cyc).engCyc →
      ∃ t, exec (.fldComplete ⟨c, cyc⟩ w) s = .next t ∧ (t.core c).cyc = (s.core c).cyc + w ∧ (t.core c).r (s.core c).fldReg = s.rw a ∧ (t.core c).stall = 0 ∧
        (∀ r, r < 32 → r ≠ (s.core c).fldReg → (t.core c).r r = landed (s.core c) r) ∧ t.mem = s.mem) ∧
    ((s.core c).fst_ ≠ [] → exec (.fldComplete ⟨c, cyc⟩ w) s = .next (s.atCyc cyc).settle) ∧
    (s.igPowered c = true → (s.core c).fst_ = ⟨a, v, ok, false⟩ :: l →
      ∃ t, exec (.fstComplete ⟨c, cyc⟩ w) s = .next t ∧ t.rw a = v ∧ (∀ b, (b < a ∨ a + 4 ≤ b) → t.rb b = s.rb b) ∧
        ((s.core c).stall ≠ 3 → (t.core c).fst_ = l) ∧
        ((s.core c).stall = 2 → l = [] → s.igRuns c = true → (∃ x, (s.core c).fetch = some x ∧ cOp x = 0x39) →
          (t.core c).stall = 0))

/-- Far accesses of an Indigo core, from the issue to the end. -/
def Obligations.IgFarAccess : Prop := IgFarRule ∧ IgFarDoneRule

/-- IG_ILLEGAL_BUNDLE, ICACHE_FILL_DONE, REPEAT_ITERATION_END (R216, R227, R235, R245): an illegal bundle outside HANDLER
sets ILL, makes the exception pend, and otherwise is a NOP; in HANDLER it aborts the item, in a delay slot as well; a fill of a
readable line makes the bundle available, and meets no error of the following line where that line has none; an iteration's end goes back to the body's first bundle, or closes the block after the last.
Model's choices: log entries 37, 122. -/
def IgIllegalFillRepeatRule : Prop :=
  ∀ (c : Fin 16) (s : State),
    (∀ x, s.igReady c = true → (s.core c).ferr = false → (s.core c).fetch = some x → bundleLegal (s.core c) x = false →
      ∃ t, exec (.igIllegalBundle c) s = .next t ∧ t.flag (F.igStatusIll c) = true ∧ t.mem = s.mem ∧
        (∀ r, r < 32 → (t.core c).r r = landed (s.core c) r) ∧ (t.core c).acc = (s.core c).acc ∧
        ((s.core c).inH = false → (t.core c).pIll = true) ∧
        ((s.core c).inH = true → (t.core c).fin = 2)) ∧
    (∀ cyc : Nat, s.igReady c = true → (s.core c).ferr = false → (s.core c).fetch = none → isShared (s.core c).pc = true →
      s.grpState (64 * ((s.core c).pc / 64)) = 0 → s.lineClean ((s.core c).pc / 64) = true → (s.core c).fst_ = [] →
      ∃ t, exec (.icacheFillDone c cyc) s = .next t ∧
        (t.core c).fetch = some (s.rw64 ((s.core c).pc / 8 * 8)) ∧ (t.core c).pc = (s.core c).pc ∧
        (t.core c).w = (s.core c).w ∧ (t.core c).cyc = (s.core c).cyc + cyc ∧
        (s.lineClean ((s.core c).pc / 64 + 1) = true → t.mem = s.mem ∧ OnlyRegs [R.igIcmiss c, R.smemConf (8 + c)] s t)) ∧
    (∀ l rest, s.igRuns c = true → (s.core c).fin = 0 → (s.core c).stall = 0 → (s.core c).iterEnd = true →
      (s.core c).rep = l :: rest → (s.core c).scale.getLsbD 31 = false →
      (1 < l.left → ∃ t, exec (.repeatIterationEnd c) s = .next t ∧ (t.core c).pc = l.first ∧
        (t.core c).rep = { l with left := l.left - 1 } :: rest ∧ (t.core c).w = (s.core c).w ∧ t.regs = s.regs ∧ t.mem = s.mem) ∧
      (l.left ≤ 1 → ∃ t, exec (.repeatIterationEnd c) s = .next t ∧ (t.core c).pc = (s.core c).pc ∧ (t.core c).rep = rest ∧
        (t.core c).w = (s.core c).w ∧ t.regs = s.regs ∧ t.mem = s.mem)) ∧
    (∀ l rest, s.igRuns c = true → (s.core c).fin = 0 → (s.core c).stall = 0 → (s.core c).iterEnd = true →
      (s.core c).rep = l :: rest → (s.core c).scale.getLsbD 31 = true → (s.core c).inH = false →
      (s.core c).rep.length = (s.core c).lvl → (s.core c).mtsExp = false →
      ∃ t, exec (.repeatIterationEnd c) s = .next t ∧ (t.core c).det = 31 ∧
        (t.core c).exp = max (-8) (min 7 (((s.core c).det : Int) - ((s.core c).scale.extractLsb' 24 2).toNat)))

/-- EXCEPTION_TAKE and WATCHDOG_EXPIRY (R231, R232, R234 to R236, Table 08-8): the highest cause pending at a take point
saves the pc in EPC and cause and flags in ESTAT, clears its own pending mark, enters HANDLER at its vector; DBG halts
instead; the watchdog makes WDT pend, and aborts the item in HANDLER.
Model's choices: log entries 36, 123, 144. -/
def IgExceptionsRule : Prop :=
  ∀ (c : Fin 16) (s : State),
    let k := s.core c
    let enters := fun (cause off : Nat) => ∃ t, exec (.exceptionTake c) s = .next t ∧ t.igState c = 3 ∧ (t.core c).inH = true ∧
      (t.core c).pc = (s.get (F.igVecbaseBase c) * 256 + off) % 2 ^ 24 ∧ t.get (F.igEpcPc c) = k.pc % 2 ^ 24 ∧
      t.get (F.igEstatCause c) = cause ∧ t.get (F.igEstatFlags c) = 4 * b2n k.c + 2 * b2n k.n + b2n k.z ∧
      (t.core c).w = k.w ∧ (t.core c).acc = k.acc ∧ (t.core c).cyc = k.cyc + 2 ∧
      OnlyRegs [R.igEpc c, R.igEstat c, R.igStatus c] s t
    (s.igRuns c = true → k.fin = 0 → k.stall = 0 → k.take = true → k.inH = false →
      (k.pDbg = true → ∃ t, exec (.exceptionTake c) s = .next t ∧ t.igState c = 4 ∧ t.flag (F.igDbgHalted c) = true ∧
        (t.core c).pDbg = false ∧ (t.core c).pc = k.pc ∧ t.get (F.igEstatCause c) = 0 ∧
        OnlyRegs [R.igStatus c, R.igDbg c, R.igEstat c] s t) ∧
      (k.pDbg = false → k.pWdt = true → enters 1 0x40 ∧ ∃ t, exec (.exceptionTake c) s = .next t ∧ (t.core c).pWdt = false ∧
        (t.core c).wdt = 2) ∧
      (k.pDbg = false → k.pWdt = false → k.pIll = true → enters 2 0x00 ∧
        ∃ t, exec (.exceptionTake c) s = .next t ∧ (t.core c).pIll = false ∧ t.get (F.igEstatFetch c) = b2n k.pFetch) ∧
      (k.pDbg = false → k.pWdt = false → k.pIll = false → k.pOvf = true → enters 3 0x80 ∧
        ∃ t, exec (.exceptionTake c) s = .next t ∧ (t.core c).pOvf = false) ∧
      (k.pDbg = false → k.pWdt = false → k.pIll = false → k.pOvf = false → k.pDbell = true → enters 4 0xC0 ∧
        ∃ t, exec (.exceptionTake c) s = .next t ∧ (t.core c).pDbell = false)) ∧
    (s.igRuns c = true → k.fin = 0 → k.stall = 0 → k.take = true → k.inH = true → k.pDbg = true →
      ∃ t, exec (.exceptionTake c) s = .next t ∧ t.igState c = 4 ∧ t.flag (F.igDbgHalted c) = true ∧ (t.core c).inH = true) ∧
    (k.take = false ∨ (k.inH = true ∧ k.pDbg = false) → exec (.exceptionTake c) s = .next s) ∧
    (s.igRuns c = true → k.fin = 0 → k.limit ≠ 0 → k.limit ≤ k.wdt →
      (k.inH = false → k.pWdt = false → exec (.watchdogExpiry c) s = .next (s.setCore c (fun j => { j.event with pWdt := true }))) ∧
      (k.inH = true → exec (.watchdogExpiry c) s = .next (s.setCore c (fun j => { j with fin := 2, stall := 0 })))) ∧
    (s.igRuns c = true → k.fin = 0 → k.wdt < k.limit → k.stall ≠ 0 → k.inH = false → k.pWdt = false →
      exec (.watchdogExpiry c) s = .next (s.setCore c (fun j => { j.event with pWdt := true, wdt := j.limit, cyc := j.cyc + (j.limit - j.wdt) }))) ∧
    (k.limit = 0 → exec (.watchdogExpiry c) s = .next s)

/-- Illegal bundles, fills, repeats, exceptions and the return from one. -/
def Obligations.IgIllegalAndExceptions : Prop := IgIllegalFillRepeatRule ∧ IgExceptionsRule

/-- Debug, doorbell, ICINV and port F (R15, R231, R236, R240 to R242, R245, R246, R316): the commands of a host on a powered
core, where a resume or a step waits while the SPLL is not locked; cores and DMA write nothing but the doorbell; a fabric access
reaches the local memory of a powered core.
Model's choices: log entries 8, 53, 119, 144. -/
def Obligations.IgControlRegisters : Prop :=
  ∀ (h : Fin 4) (c : Fin 16) (s : State),
    (s.igPowered c = true →
      exec (.debugHalt (.host h) c) s = .next (s.ok.setCore c (fun k => { k.event with pDbg := true })) ∧
      (s.igState c = 4 → s.flag (F.pllStatusLocked 0) = true →
        (∃ t, exec (.debugResume (.host h) c) s = .next t ∧ t.igState c = (if (s.core c).inH then 3 else 2) ∧
          t.flag (F.igDbgHalted c) = false ∧ t.core c = { s.core c with dbgReq := 0 } ∧ OnlyRegs [R.igStatus c, R.igDbg c] s t) ∧
        ∃ t, exec (.debugStep (.host h) c) s = .next t ∧ t.igState c = (if (s.core c).inH then 3 else 2) ∧
          (t.core c).pDbg = true ∧ (t.core c).take = false ∧ OnlyRegs [R.igStatus c, R.igDbg c] s t) ∧
      (s.igState c = 4 → s.flag (F.pllStatusLocked 0) = false →
        exec (.debugResume (.host h) c) s = .next (s.ok.setCore c (fun k => { k with dbgReq := 1 })) ∧
        exec (.debugStep (.host h) c) s = .next (s.ok.setCore c (fun k => { k with dbgReq := 2 }))) ∧
      (s.igState c ≠ 4 → exec (.debugResume (.host h) c) s = .next s.ok ∧ exec (.debugStep (.host h) c) s = .next s.ok) ∧
      (s.igState c = 1 → exec (.icinv (.host h) c) s = .next (s.ok.setCore c (fun k => { k with ic := [] }))) ∧
      (s.igState c ≠ 1 → exec (.icinv (.host h) c) s = .next (s.ok.put (F.igStatusCfgIgn c) 1)) ∧
      ∀ (m : Master) (v : Word), ∃ t, exec (.doorbellWrite m c v) s = .next t ∧
        t.get (F.igDbellPend c) = s.get (F.igDbellPend c) ||| v.toNat % 2 ^ 16 ∧ OnlyRegs [R.igDbell c] s t ∧
        ((t.core c).pDbell = true ↔ (s.core c).pDbell = true ∨ (s.flag (F.igCtrlDbellIe c) = true ∧
          s.get (F.igDbellPend c) ||| v.toNat % 2 ^ 16 ≠ s.get (F.igDbellPend c)))) ∧
    (s.igPowered c = false → (∀ (m : Master) (v : Word), exec (.doorbellWrite m c v) s = .next s.ok) ∧
      exec (.icinv (.host h) c) s = .next s.ok) ∧
    (∀ n : Fin 16, exec (.debugHalt (.core n) c) s = .next s.ok ∧ exec (.icinv (.core n) c) s = .next s.ok) ∧
    ∀ (m : Master) (off n lost : Nat) (b : List Byte) (same : Bool),
      let a := lmBase c + off
      let u := s.waited (masterNo m) a lost
      off < 0x40000 → b.length = n →
      (accessOk a n = true → s.igPowered c = true →
        (∃ t, exec (.localMemoryFabricAccess m c off true ⟨b, lost⟩ same) s = .next t ∧ t.resp = .ok ∧
          (∀ i (h : i < b.length), t.rb (a + i) = b[i]) ∧ (∀ x, (x < a ∨ a + n ≤ x) → t.rb x = s.rb x) ∧
          (∀ r, r ≠ R.igCollideCnt c ∨ same = false → t.rd r = u.rd r)) ∧
        ∃ t, exec (.localMemoryFabricAccess m c off false ⟨b, lost⟩ same) s = .next t ∧ t.resp = .ok ∧
          (same = false ∨ (s.core c).st = [] → t.rbytes = s.rbs a n) ∧ t.mem = s.mem ∧ t.regs = u.regs) ∧
      (accessOk a n = true → s.igPowered c = false →
        exec (.localMemoryFabricAccess m c off true ⟨b, lost⟩ same) s = .next u.ok ∧
        exec (.localMemoryFabricAccess m c off false ⟨b, lost⟩ same) s =
          .next { u.ok with rbytes := List.replicate n 0#8, rdata := 0#32 }) ∧
      (accessOk a n = false → ∀ wr, ∃ t, exec (.localMemoryFabricAccess m c off wr ⟨b, lost⟩ same) s = .next t ∧
        t.resp = .error errAlign ∧ t.mem = s.mem)

/-! ## Ports (R274 to R301) -/

/-- The command answers `t` after the snapshot sources it fired have acted on it (R450), and `P t` holds. -/
def Settles (i : Instr) (s : State) (P : State → Prop) : Prop := ∃ t, exec i s = .next t.settle ∧ P t

/-- The status registers of the ASRC groups. -/
def asrcRegs : List Nat := (List.range 8).map R.asrcStatus

/-- The registers that show the clamp of an APLL: a clock that starts or stops moves its ceiling (R307). -/
def clampRegs : List Nat := [R.pllStatus 0, R.pllStatus 1]

/-- PORT_ENABLE, PORT_DISABLE, PORT_RESYNC_REQUEST, SLOTMASK_WRITE (R277, R279, R290, Table 10-4): an enable of a STOPPED
port whose configuration passes enters RESYNC, an APLL master that no group names waits for its boundary, and one that
fails a check sets CFG_ERR and stays; a disable ends at the end of the frame, in LOST at once; a RESYNC request restarts
qualification or, in STOPPED and LOST, sets CFG_IGN; a mask write is pending; cores and DMA write nothing. -/
def Obligations.PortControl : Prop :=
  ∀ (m : Master) (n : Fin 6) (s : State), m = .boot ∨ (∃ h, m = .host h) →
    (s.tpState n = tpStopped → s.flag (F.tpCtrlEn n) = false → (s.port n).stopPend = false →
      (s.tpBad n = false → (s.tpApll n = true → s.tpBound n = true) → Settles (.portEnable m n) s (fun t =>
        t.tpState n = tpResync ∧ t.flag (F.tpCtrlEn n) = true ∧ t.flag (F.tpStatusResyncEvt n) = true ∧
        (t.port n).step = 2 ∧ (t.port n).good = 0 ∧ OnlyRegs (clampRegs ++ asrcRegs ++ [R.tpCtrl n, R.tpStatus n]) s t)) ∧
      (s.tpBad n = false → s.tpApll n = true → s.tpBound n = false →
        exec (.portEnable m n) s =
          .next ((s.ok.put (F.tpCtrlEn n) 1).setPort n (fun p => { p with startPend := true })).settle) ∧
      (s.tpBad n = true → exec (.portEnable m n) s = .next (s.ok.put (F.tpStatusCfgErr n) 1).settle)) ∧
    (s.flag (F.tpCtrlEn n) = true →
      (s.tpState n = tpRun ∨ s.tpState n = tpResync → exec (.portDisable m n) s =
        .next ((s.ok.put (F.tpCtrlEn n) 0).setPort n (fun p => { p with stopPend := true })).settle) ∧
      (s.tpState n = tpLost → Settles (.portDisable m n) s (fun t => t.tpState n = tpStopped ∧
        t.flag (F.tpCtrlEn n) = false ∧ (t.port n).inF = [] ∧ (t.port n).outF = [] ∧ (t.port n).wire = [] ∧ t.mem = s.mem ∧
        ∀ k, k < 6 → k ≠ n.val → t.tpState k = s.tpState k ∧ t.port k = s.port k))) ∧
    (s.tpState n = tpRun → Settles (.portResyncRequest m n) s (fun t => t.tpState n = tpResync ∧
      t.flag (F.tpStatusResyncEvt n) = true ∧ (t.port n).step = 2 ∧ (t.port n).inF = (s.port n).inF ∧
      OnlyRegs (clampRegs ++ asrcRegs ++ [R.tpStatus n]) s t)) ∧
    (s.tpState n = tpResync → Settles (.portResyncRequest m n) s (fun t => t.tpState n = tpResync ∧
      (t.port n).step = 2 ∧ (t.port n).good = 0 ∧ OnlyRegs asrcRegs s t)) ∧
    (s.tpState n = tpStopped ∨ s.tpState n = tpLost →
      exec (.portResyncRequest m n) s = .next (s.ok.put (F.tpStatusCfgIgn n) 1).settle) ∧
    (∀ v : Word,
      exec (.slotmaskWrite m n true v) s =
        .next ((s.ok.put (F.tpSlotmaskOutShadow n) (v.extractLsb' 0 16).toNat).put (F.tpStatusMaskPendOut n) 1) ∧
      exec (.slotmaskWrite m n false v) s =
        .next ((s.ok.put (F.tpSlotmaskInShadow n) (v.extractLsb' 0 16).toNat).put (F.tpStatusMaskPendIn n) 1)) ∧
    ∀ c : Fin 16, exec (.portEnable (.core c) n) s = .next s.ok ∧ exec (.portDisable (.core c) n) s = .next s.ok ∧
      exec (.portResyncRequest (.core c) n) s = .next s.ok

/-- PORT_ENTER_RUN, FSYNC_LOSS, FSYNC_RETURN (R282, R290, R292, Table 10-4): a pending start at a domain-A boundary, or
RESYNC's step 4, enters RUN with the IN FIFO empty and the OUT FIFO preloaded with L frames of zeros; a loss in RUN or
RESYNC enters LOST, sets CLK_LOSS and counts it, and a stop that waits takes place; the first edge after it enters RESYNC; elsewhere none of them acts.
Model's choices: log entries 38, 117. -/
def PortStatesRule : Prop :=
  ∀ (n : Fin 6) (s : State),
    let starts := (s.port n).startPend = true ∧ s.st = stRun ∧ s.atEdge = true
    let resumes := s.tpState n = tpResync ∧ (s.port n).step = 4
    (starts ∨ resumes → Settles (.portEnterRun n) s (fun t => t.tpState n = tpRun ∧ (t.port n).inF = [] ∧
      (t.port n).outF = List.replicate (s.get (F.tpCfgStartLvl n) + 1) (List.replicate (s.get (F.tpCfgSlots n) + 1) 0#32) ∧
      (t.port n).taking = false ∧ (t.port n).startPend = false ∧ OnlyRegs (clampRegs ++ [R.tpStatus n]) s t)) ∧
    (¬starts → ¬resumes → exec (.portEnterRun n) s = .next s.settle) ∧
    (s.tpApll n = false → s.tpState n = tpRun ∨ s.tpState n = tpResync → (s.port n).stopPend = false →
      Settles (.fsyncLoss n) s (fun t => t.tpState n = tpLost ∧ t.flag (F.tpStatusClkLoss n) = true ∧
        t.get (F.tpErrCntClkLoss n) = min (s.get (F.tpErrCntClkLoss n) + 1) 0xFFFF ∧ t.get (F.tpPeriodPeriod n) = 0 ∧
        OnlyRegs (clampRegs ++ asrcRegs ++ [R.tpStatus n, R.tpErrCnt n, R.tpPeriod n]) s t)) ∧
    (s.tpApll n = false → s.tpState n = tpRun ∨ s.tpState n = tpResync → (s.port n).stopPend = true →
      Settles (.fsyncLoss n) s (fun t => t.tpState n = tpStopped ∧ t.flag (F.tpStatusClkLoss n) = true ∧
        t.get (F.tpErrCntClkLoss n) = min (s.get (F.tpErrCntClkLoss n) + 1) 0xFFFF ∧ t.mem = s.mem)) ∧
    (s.tpState n = tpStopped ∨ s.tpState n = tpLost → s.tpApll n = false → exec (.fsyncLoss n) s = .next s.settle) ∧
    (s.tpState n = tpLost → Settles (.fsyncReturn n) s (fun t => t.tpState n = tpResync ∧ (t.port n).step = 2 ∧
      t.flag (F.tpStatusResyncEvt n) = true ∧ OnlyRegs (clampRegs ++ asrcRegs ++ [R.tpStatus n]) s t)) ∧
    (s.tpState n ≠ tpLost → exec (.fsyncReturn n) s = .next s.settle)

/-- Frames of a port that no ASRC group names and whose bit clock runs (R276, R278, R279, R281, R282, R289 to R291, R311, Table
10-2); an APLL master's frame starts in the cycle of a domain-A boundary plus its output's fine delay: a whole frame joins the
IN FIFO with its words in the slots that the mask opens, at 8 frames it is an IN_OVER slip; a slave's frame with a wrong edge
count is discarded with FRAME_ERR; an output frame start latches the masks and shifts out the oldest frame, an empty FIFO is
an OUT_UNDER slip, and a waiting stop stops; a take gives the oldest frame's samples to the fabric and queues the sinks'
frame.
Model's choices: log entries 38, 117. -/
def PortFramesRule : Prop :=
  ∀ (n : Fin 6) (s : State), s.tpBound n = false → s.tpState n = tpRun → s.st = stRun →
    let starts := s.tpApll n = true → (s.frameCyc n).isSome = true
    let w := 16 + 8 * s.get (F.tpCfgWidth n)
    let sl := s.get (F.tpCfgSlots n) + 1
    (∀ (edges per : Nat) (words : List Word),
      (s.tpMaster n = true → (s.port n).inF.length < 8 → Settles (.inputFrameComplete n edges per words) s (fun t =>
        (∃ f : List Word, (t.port n).inF = (s.port n).inF ++ [f] ∧ f.length = sl ∧
          ∀ i, i < sl → (s.get (F.tpSlotmaskInActive n)).testBit i = true →
            f[i]? = some (((words[i]?).getD 0#32) <<< (32 - w))) ∧
        (t.port n).outF = (s.port n).outF ∧ t.tpState n = tpRun ∧ OnlyRegs [R.tpPeriod n] s t)) ∧
      (s.tpMaster n = true → 8 ≤ (s.port n).inF.length → Settles (.inputFrameComplete n edges per words) s (fun t =>
        (t.port n).inF = (s.port n).inF ∧ t.flag (F.tpStatusInOver n) = true ∧
        t.get (F.tpSlipCntInOver n) = min (s.get (F.tpSlipCntInOver n) + 1) 0xFF ∧ t.tpState n = tpRun ∧
        OnlyRegs [R.tpPeriod n, R.tpStatus n, R.tpSlipCnt n] s t)) ∧
      (s.tpMaster n = false → edges ≠ sl * w → (s.port n).pcnt + 1 < 256 →
        Settles (.inputFrameComplete n edges per words) s (fun t => (t.port n).inF = (s.port n).inF ∧
          t.flag (F.tpStatusFrameErr n) = true ∧
          t.get (F.tpErrCntFrameErr n) = min (s.get (F.tpErrCntFrameErr n) + 1) 0xFFFF ∧ t.tpState n = tpRun ∧
          OnlyRegs [R.tpPeriod n, R.tpStatus n, R.tpErrCnt n] s t))) ∧
    (s.tpApll n = true → s.frameCyc n = none → exec (.outputFrameStart n) s = .next s.settle) ∧
    (∀ d : Nat, s.dlySpan 1 (n + 5) = (d, d) → s.sys.qt % 4 = 0 → s.stepQ = 4 → d / 256 < s.cA →
      s.frameCyc n = if s.sys.cyc ≤ d / 256 then some (d / 256) else none) ∧
    (starts → (s.port n).stopPend = false →
      (∀ f l, (s.port n).outF = f :: l → (s.port n).oph = 2 → Settles (.outputFrameStart n) s (fun t =>
        (t.port n).outF = l ∧ (s.tpApll n = true → s.frameCyc n = some t.sys.cyc) ∧
        t.get (F.tpSlotmaskOutActive n) = (if s.flag (F.tpStatusMaskPendOut n) = true then s.get (F.tpSlotmaskOutShadow n)
          else s.get (F.tpSlotmaskOutActive n)) ∧ t.flag (F.tpStatusMaskPendOut n) = false ∧
        t.get (F.tpSlotmaskInActive n) = (if s.flag (F.tpStatusMaskPendIn n) = true then s.get (F.tpSlotmaskInShadow n)
          else s.get (F.tpSlotmaskInActive n)) ∧ t.flag (F.tpStatusMaskPendIn n) = false ∧
        (t.port n).wire = (List.range sl).map (fun i =>
          if (t.get (F.tpSlotmaskOutActive n)).testBit i then some (wordOut w 32 ((f[i]?).getD 0#32))
          else if s.flag (F.tpCfgMaskHiz n) = true then none else some 0) ∧
        OnlyRegs [R.tpStatus n, R.tpSlotmaskIn n, R.tpSlotmaskOut n] s t)) ∧
      ((s.port n).outF = [] → Settles (.outputFrameStart n) s (fun t => (t.port n).outF = [] ∧
        t.flag (F.tpStatusOutUnder n) = true ∧
        t.get (F.tpSlipCntOutUnder n) = min (s.get (F.tpSlipCntOutUnder n) + 1) 0xFF ∧
        OnlyRegs [R.tpStatus n, R.tpSlotmaskIn n, R.tpSlotmaskOut n, R.tpSlipCnt n] s t))) ∧
    (starts → (s.port n).stopPend = true → Settles (.outputFrameStart n) s (fun t => t.tpState n = tpStopped ∧
      (t.port n).outF = [] ∧ (t.port n).wire = [] ∧ t.mem = s.mem)) ∧
    (∀ f l, (s.port n).inF = f :: l → (s.port n).taking = true ∨ s.get (F.tpCfgStartLvl n) + 1 ≤ l.length + 1 →
      (s.port n).outF.length < 8 → Settles (.takePoint n) s (fun t => (t.port n).inF = l ∧ (t.port n).taking = true ∧
        (∀ i, i < sl → i < 16 →
          (ng (s.port n).slots i Ramp.zero).ph = 2 →
          spGet (fun _ => 0#32) t.rt.inj (16 * n.val + i) = (f[i]?).getD 0#32) ∧
        (t.port n).outF = (s.port n).outF ++
          [(List.range sl).map (fun i => spGet (fun _ => 0#32) s.rt.sinks (16 * n.val + i))] ∧ OnlyRegs [] s t))

/-- Audio ports: states and frames (R276 to R292). -/
def Obligations.PortStatesAndFrames : Prop := PortStatesRule ∧ PortFramesRule

/-- ASRC_CONFIG and ASRC_LOOP_TIMER (R284 to R288, R301): a write of a group's registers while its port, or the port that it
names, is not STOPPED sets CFG_IGN and changes nothing else; else the value stands, an enable that names no port, no domain,
an APLL master or a slot twice sets CFG_ERR and leaves EN 0, EN 0 turns the group off, and a map that names a slot twice in an
enabled group sets CFG_ERR and is not taken; the loop timer locks the groups of the port, and elsewhere does nothing.
Model's choices: log entry 39. -/
def AsrcGroupsRule : Prop :=
  ∀ (m : Master) (g : Fin 8) (v : Word) (s : State), m = .boot ∨ (∃ h, m = .host h) →
    let old := s.get (F.asrcCfgPort g)
    let new := (v.extractLsb' 24 3).toNat
    let keep := v &&& 0x87373000#32
    let u := s.ok.wr (R.asrcCfg g) keep
    ((old < 6 ∧ s.tpState old ≠ tpStopped) ∨ (new < 6 ∧ s.tpState new ≠ tpStopped) →
      exec (.asrcConfig m g 0 v) s = .next (s.ok.put (F.asrcStatusCfgIgn g) 1)) ∧
    (¬(old < 6 ∧ s.tpState old ≠ tpStopped) → ¬(new < 6 ∧ s.tpState new ≠ tpStopped) →
      (v.getLsbD 31 = true → 6 ≤ new ∨ v.extractLsb' 20 2 = 3#2 ∨ u.tpApll new = true ∨ u.asrcDup new = true →
        ∃ t, exec (.asrcConfig m g 0 v) s = .next t ∧ t.flag (F.asrcCfgEn g) = false ∧ t.flag (F.asrcStatusCfgErr g) = true ∧
          t.get (F.asrcCfgPort g) = new ∧ OnlyRegs [R.asrcCfg g, R.asrcStatus g, R.domStatus] s t) ∧
      (v.getLsbD 31 = true → new < 6 → v.extractLsb' 20 2 ≠ 3#2 → u.tpApll new = false → u.asrcDup new = false →
        ∃ t, exec (.asrcConfig m g 0 v) s = .next t ∧ t.rd (R.asrcCfg g) = keep ∧ OnlyRegs [R.asrcCfg g, R.domStatus] s t) ∧
      (v.getLsbD 31 = false → ∃ t, exec (.asrcConfig m g 0 v) s = .next t ∧ t.rd (R.asrcCfg g) = keep ∧
        t.get (F.asrcStatusState g) = 0 ∧ t.get (F.asrcRatioRatio g) = 0 ∧
        OnlyRegs [R.asrcCfg g, R.asrcStatus g, R.asrcRatio g, R.domStatus] s t)) ∧
    (∀ w : Fin 3, w ≠ 0 →
      let u := s.ok.wr (R.asrcCfg g + 4 * w) (v &&& 0xCFCFCFCF#32)
      (old < 6 → s.tpState old ≠ tpStopped → exec (.asrcConfig m g w v) s = .next (s.ok.put (F.asrcStatusCfgIgn g) 1)) ∧
      (¬(old < 6 ∧ s.tpState old ≠ tpStopped) →
        (s.flag (F.asrcCfgEn g) = true → u.asrcDup old = true →
          exec (.asrcConfig m g w v) s = .next (s.ok.put (F.asrcStatusCfgErr g) 1)) ∧
        (s.flag (F.asrcCfgEn g) = false ∨ u.asrcDup old = false → ∃ t, exec (.asrcConfig m g w v) s = .next t ∧
          t.rd (R.asrcCfg g + 4 * w) = v &&& 0xCFCFCFCF#32 ∧ OnlyRegs [R.asrcCfg g + 4 * w] s t))) ∧
    (s.flag (F.asrcCfgEn g) = true → s.get (F.asrcStatusState g) = 1 → (s.grp g).step = 2 →
      Settles (.asrcLoopTimer g) s (fun t =>
        (∀ k, k < 8 → s.asrcOn k old = true → t.get (F.asrcStatusState k) = 2) ∧
        (s.tpState old = tpResync → (s.port old).step = 3 → (t.port old).step = 4) ∧ OnlyRegs asrcRegs s t)) ∧
    (s.flag (F.asrcCfgEn g) = false ∨ s.get (F.asrcStatusState g) ≠ 1 ∨ (s.grp g).step ≠ 2 →
      exec (.asrcLoopTimer g) s = .next s.settle) ∧
    ∀ (c : Fin 16) (w : Fin 3), exec (.asrcConfig (.core c) g w v) s = .next s.ok

/-- PDM_GROUP_ENABLE, PDM_CLOCK_START, PDM_WAKE_EXPIRY, PDM_CHANNEL_ENABLE, MIC_STUCK, MIC_STUCK_CLEAR (R295, R297, R299,
Table 01-2a): a write of a group that is off stores its fields, an enable that fails a check sets CFG_ERR and leaves EN 0; the
enables come into force at a domain-A boundary, where a group that is disabled stops its clock and clears MIC_STUCK, a channel
enabled in a running group waits 20 samples and a disabled one ramps out; the clock starts at a domain-A edge with its
channels silent; after the hold those ramp in; a stuck channel ramps out and ramps in when the condition clears.
Model's choices: log entry 41. -/
def PdmInputsRule : Prop :=
  (∀ (m : Master) (k : Fin 3) (v : Word) (s : State), m = .boot ∨ (∃ h, m = .host h) →
    let w := v &&& 0x300003FF#32
    let u := s.ok.wr (R.pdmClkcfg k) w
    (s.flag (F.pdmClkcfgEn k) = false →
      (v.getLsbD 31 = false → exec (.pdmGroupEnable m k v) s = .next u) ∧
      (v.getLsbD 31 = true → u.pdmBad w = true → exec (.pdmGroupEnable m k v) s = .next (u.put F.pdmStatusCfgErr 1)) ∧
      (v.getLsbD 31 = true → u.pdmBad w = false → ∃ t, exec (.pdmGroupEnable m k v) s = .next t ∧
        t.regs = (u.put (F.pdmClkcfgEn k) 1).regs ∧ t.mem = s.mem ∧ t.pdm.cfg = s.pdm.cfg)) ∧
    (s.flag (F.pdmClkcfgEn k) = true →
      (v.getLsbD 31 = true → exec (.pdmGroupEnable m k v) s =
        .next (if w = s.rd (R.pdmClkcfg k) &&& 0x300003FF#32 then s.ok else s.ok.put F.pdmStatusCfgIgn 1)) ∧
      (v.getLsbD 31 = false → ∃ t, exec (.pdmGroupEnable m k v) s = .next t ∧ t.flag (F.pdmClkcfgEn k) = false ∧
        t.pdm = s.pdm ∧ OnlyRegs [R.pdmClkcfg k, R.pdmStatus, R.domStatus] s t)) ∧
    (s.pdmOn k = true → s.rd (R.pdmClkcfg k) ≠ s.pdmCfg k → (s.pdmTakeGroup k).pdmOn k = false ∧
      (s.pdmTakeGroup k).pdmCfg k = s.rd (R.pdmClkcfg k) ∧
      (∀ c, c < 24 → c / 8 = k.val → (s.pdmTakeGroup k).stuck c = false ∧
        ((s.pdmTakeGroup k).mic c).ramp = (s.mic c).ramp.mute) ∧
      OnlyRegs (clampRegs ++ [R.pdmStatus, R.pdmStuck]) s (s.pdmTakeGroup k))) ∧
  (∀ (k : Fin 3) (s : State),
    let starts := s.runs = true ∧ s.atEdge = true ∧ (s.pdmCfg k).getLsbD 31 = true ∧ s.pdmOn k = false ∧
      s.pdmBad (s.pdmCfg k) = false
    (starts → ∃ t, exec (.pdmClockStart k) s = .next t ∧ t.pdmOn k = true ∧ ng t.pdm.ready k true = false ∧
      ng t.pdm.d k 0 = s.pdmD (s.pdmCfg k) ∧ (∀ c, c < 24 → c / 8 = k.val → (t.mic c).ramp = Ramp.zero ∧ (t.mic c).wait = 0) ∧
      OnlyRegs (clampRegs ++ [R.pdmStatus]) s t) ∧
    (¬starts → exec (.pdmClockStart k) s = .next s) ∧
    (s.pdmOn k = true → ng s.pdm.ready k false = false → ∃ t, exec (.pdmWakeExpiry k) s = .next t ∧
      ng t.pdm.ready k false = true ∧ t.regs = s.regs ∧ t.mem = s.mem ∧
      ∀ c, c < 24 → c / 8 = k.val →
        (s.micOn c = true → s.stuck c = false → (s.mic c).wait = 0 → (t.mic c).ramp.ph = 1 ∧ (t.mic c).ramp.j = 0) ∧
        (s.micOn c = false ∨ s.stuck c = true ∨ (s.mic c).wait ≠ 0 → t.mic c = s.mic c)) ∧
    (s.pdmOn k = false ∨ ng s.pdm.ready k false = true → exec (.pdmWakeExpiry k) s = .next s)) ∧
  ∀ (c : Fin 24) (s : State),
    (∀ (m : Master) (v : Word), m = .boot ∨ (∃ h, m = .host h) → ∃ t, exec (.pdmChannelEnable m c v) s = .next t ∧
      t.rd (R.pdmChcfg c) = v &&& 0x830000FF#32 ∧ OnlyRegs [R.pdmChcfg c, R.domStatus] s t ∧
      ∀ d, (t.mic d).ramp = (s.mic d).ramp ∧ (t.mic d).wait = (s.mic d).wait ∧ (t.mic d).on = (s.mic d).on) ∧
    (s.flag (F.pdmChcfgEn c) = true → s.micOn c = false →
      s.pdmTakeCh c = s.setMic c (fun x => { x with on := true, wait := if s.pdmOn (c / 8) = true then 20 else 0 })) ∧
    (s.flag (F.pdmChcfgEn c) = false → s.micOn c = true →
      s.pdmTakeCh c = s.setMic c (fun x => { x with on := false, wait := 0, ramp := x.ramp.mute })) ∧
    (s.micOn c = true → s.pdmOn (c / 8) = true → s.stuck c = false →
      ∃ t, exec (.micStuck c) s = .next t ∧ t.stuck c = true ∧
        t.get (F.pdmStuckEvtBit c) = 1 ∧ (t.mic c).ramp = (s.mic c).ramp.mute ∧
        (∀ d, d ≠ c.val → t.stuck d = s.stuck d) ∧ OnlyRegs [R.pdmStuck, R.pdmStuckEvt] s t) ∧
    (s.micOn c = false ∨ s.pdmOn (c / 8) = false ∨ s.stuck c = true → exec (.micStuck c) s = .next s) ∧
    (s.stuck c = true → ∃ t, exec (.micStuckClear c) s = .next t ∧ t.stuck c = false ∧
      (ng s.pdm.ready (c / 8) false = true → s.micOn c = true → (s.mic c).wait = 0 →
        (t.mic c).ramp = (s.mic c).ramp.unmute) ∧
      (ng s.pdm.ready (c / 8) false = false ∨ s.micOn c = false ∨ (s.mic c).wait ≠ 0 → t.mic c = s.mic c) ∧
      (∀ d, d ≠ c.val → t.stuck d = s.stuck d) ∧ OnlyRegs [R.pdmStuck] s t) ∧
    (s.stuck c = false → exec (.micStuckClear c) s = .next s)

/-- ASRC groups and PDM microphones (R284 to R301). -/
def Obligations.AsrcAndPdm : Prop := AsrcGroupsRule ∧ PdmInputsRule

/-! ## Clocking (R302 to R317) -/

/-- No register outside the PLL block may differ from `s` to `t`. -/
def OnlyPlls (l : List Nat) (s t : State) : Prop :=
  ∀ a, (a < 0x08002000 ∨ 0x08002200 ≤ a) → a ∉ l → t.rd a = s.rd a

/-- PLL_LOCK and PLL_LOSS_OF_LOCK (R305, R313, R316, R317): SPLL lock ends the RC oscillator's turn and lets boot step 5
go on to step 6, and a core lets a waiting resume act; APLL lock runs ENG_CLK at the target, and HALT gives way to a drain's clear; a loss sets LOL, gates
ENG_CLK, and an epoch's RUN halts; APLL and SPLL events that cannot happen change nothing.
Model's choices: log entry 49. -/
def PllLockRule : Prop :=
  ∀ s : State,
    (s.pllLocked 0 = false → s.flag F.clkXtalXtalOk = true → s.powered 1 = true →
      ∃ t, exec (.pllLock 0) s = .next t ∧ t.pllLocked 0 = true ∧ t.get (F.pllStatusState 0) = plLocked ∧
        t.get F.clkXtalSysclk = 0 ∧ t.te = s.te ∧ t.vat = s.vat ∧
        (s.boot.step = 5 → t.boot.step = 6 ∧ t.get F.bootStatusStep = 6 ∧
          (s.boot.filled = false → s.boot.fromRet.testBit 1 = false → ∀ a, a < 0xC00000 → t.rb a = 0#8) ∧
          (s.boot.filled = true → t.mem = s.mem)) ∧
        (∀ c, c < 16 → s.igState c = 4 → (s.core c).dbgReq = 1 → t.igState c = (if (s.core c).inH then 3 else 2)) ∧
        (s.boot.step ≠ 5 → t.boot = s.boot ∧ t.mem = s.mem ∧
          OnlyPlls (R.clkXtal :: (List.range 16).map R.igStatus ++ (List.range 16).map R.igDbg) s t)) ∧
    (s.pllLocked 0 = true ∨ s.flag F.clkXtalXtalOk = false ∨ s.powered 1 = false → exec (.pllLock 0) s = .next s) ∧
    (s.apllMay = true → ∃ t, exec (.pllLock 1) s = .next t ∧ t.pllLocked 1 = true ∧ t.get (F.pllStatusState 1) = plLocked ∧
      t.sys.engClk = true ∧ t.clk.cur = s.pllGoal.fix ∧ t.mem = s.mem ∧ t.te = s.te ∧
      (s.st = stHalt → t.st = stDrain ∧ t.sys.clearing = true) ∧ (s.st ≠ stHalt → t.st = s.st) ∧
      (∀ k : Fin 4, t.flag (F.pllOutCfgAct 1 (k.val + 1)) = (s.flag (F.pllOutCfgEn 1 (k.val + 1)) && !s.mclkGated))) ∧
    (s.apllMay = false → exec (.pllLock 1) s = .next s) ∧
    (s.pllLocked 1 = true → ∃ t, exec (.pllLossOfLock 1) s = .next t ∧ t.pllLocked 1 = false ∧
      t.flag (F.pllStatusLol 1) = true ∧ t.sys.engClk = false ∧
      (s.st = stDrain ∨ (s.st = stRun ∧ s.sys.dueReload = false) → t.st = stHalt ∧ t.sys.cause = 3)) ∧
    (s.pllLocked 0 = true → s.get (F.pllStatusState 1) ≠ plOff → ∃ t, exec (.pllLossOfLock 0) s = .next t ∧
      t.pllLocked 0 = false ∧ t.flag (F.pllStatusLol 0) = true ∧ t.get F.clkXtalSysclk = 1 ∧ t.pllLocked 1 = false ∧
      t.get (F.pllStatusState 1) = plGated ∧ t.sys.engClk = false) ∧
    (∀ p : Fin 2, s.pllLocked p = false → exec (.pllLossOfLock p) s = .next s)

/-- CRYSTAL_LOSS, CRYSTAL_GOOD, CRYSTAL_START_TIMEOUT (R314, R315, R423, Table 11-3): a loss sets XTAL_LOSS, moves the
domains to the RC oscillator, gates ENG_CLK, halts Ochre, asks for the chime and takes boot step 6 back to step 5; a good crystal lets the SPLL seek once PD1
is on at step 5 or later; at the timeout a crystal that is not good is lost.
Model's choices: log entry 51. -/
def CrystalEventsRule : Prop :=
  ∀ s : State,
    (s.flag F.clkXtalXtalOk = true → ∃ t, exec .crystalLoss s = .next t ∧ t.flag F.clkXtalXtalLoss = true ∧
      t.flag F.clkXtalXtalOk = false ∧ t.get F.clkXtalSysclk = 1 ∧ t.sys.engClk = false ∧ t.ocSt = ocHalt ∧
      t.ocSel = 15 ∧ t.chime.xtal = true ∧
      (s.boot.step = 6 → t.boot.step = 5 ∧ t.get F.bootStatusStep = 5 ∧ t.boot.tries = s.boot.tries)) ∧
    (s.flag F.clkXtalXtalOk = false → exec .crystalLoss s = .next s) ∧
    (s.flag F.clkXtalXtalOk = false →
      (s.powered 1 = true → 5 ≤ s.boot.step → ∃ t, exec .crystalGood s = .next t ∧ t.flag F.clkXtalXtalOk = true ∧
        (t.get (F.pllStatusState 0) = plHop ∨ t.get (F.pllStatusState 0) = plSearch) ∧ t.pllLocked 0 = false ∧
        t.mem = s.mem ∧ OnlyPlls [R.clkXtal] s t) ∧
      (s.powered 1 = false ∨ s.boot.step < 5 → exec .crystalGood s = .next (s.put F.clkXtalXtalOk 1))) ∧
    (s.flag F.clkXtalXtalOk = true → exec .crystalGood s = .next s) ∧
    (s.flag F.clkXtalXtalOk = false → s.flag F.clkXtalXtalLoss = false → s.st = stBoot → s.boot.step ≠ 0 →
      ∃ t, exec .crystalStartTimeout s = .next t ∧ t.flag F.clkXtalXtalLoss = true ∧ t.chime.xtal = true ∧
        t.flag F.clkXtalXtalOk = false ∧ t.st = stBoot) ∧
    (s.flag F.clkXtalXtalOk = true → exec .crystalStartTimeout s = .next s)

/-- Locks of the PLLs and the crystal. -/
def Obligations.PllAndCrystal : Prop := PllLockRule ∧ CrystalEventsRule

/-- PLL1_MULT, RETUNE_STEP, an MCLK's CFG and output delays (R307 to R311): a multiplier outside FREERUN sets CFG_IGN, one
whose numerator is not below DEN, or more than 2 % from the family's nominal, sets FMAX_ERR, a legal one starts a retune that
each step moves by at most 1/256 toward the target until it locks; a divider that puts no enabled output above its FMAX at the
nominal multiplier is in force at once, or with COMPAT pends; one that does changes nothing but FMAX_ERR; a delay is MOVING until it arrives.
Model's choices: log entry 50. -/
def PllWritesRule : Prop :=
  ∀ (m : Master) (s : State), m = .host 0 ∨ m = .boot →
    (∀ v : Word,
      let num := (v.extractLsb' 0 24).toNat
      let goal := multOf (v.extractLsb' 24 8).toNat num (s.get (F.pllMdenDen 1))
      let nom := nomMult (famOf (cfgFsa s.domAct))
      let near := 98 * nom.num * goal.den ≤ 100 * goal.num * nom.den ∧ 100 * goal.num * nom.den ≤ 102 * nom.num * goal.den
      (s.ocSt ≠ ocFreerun → exec (.pllMultiplierWrite m v) s = .next (s.ok.put (F.pllStatusCfgIgn 1) 1)) ∧
      (s.ocSt = ocFreerun → s.get (F.pllMdenDen 1) ≤ num ∨ ¬near ∨ s.ok.putsAbove s.ok 1 s.pllGoal goal = true →
        exec (.pllMultiplierWrite m v) s = .next (s.ok.put (F.pllStatusFmaxErr 1) 1)) ∧
      (s.ocSt = ocFreerun → num < s.get (F.pllMdenDen 1) → near → s.ok.putsAbove s.ok 1 s.pllGoal goal = false → s.pllLocked 1 = true →
        s.pllSeeks 1 = false → goal.fix ≠ s.clk.cur →
        ∃ t, exec (.pllMultiplierWrite m v) s = .next t ∧ t.rd (R.pllMult 1) = v ∧
          t.get (F.pllStatusState 1) = plRetune ∧ t.pllGoal = goal ∧ t.clk.cur = s.clk.cur ∧
          OnlyRegs [R.pllMult 1, R.pllStatus 1] s t)) ∧
    (s.get (F.pllStatusState 1) = plRetune → ∃ t, exec .retuneStep s = .next t ∧
      (s.clk.cur < s.pllGoal.fix → t.clk.cur = min s.pllGoal.fix (s.clk.cur + s.clk.cur / 256)) ∧
      (s.pllGoal.fix ≤ s.clk.cur → t.clk.cur = max s.pllGoal.fix (s.clk.cur - s.clk.cur / 256)) ∧
      (t.get (F.pllStatusState 1) = if t.clk.cur = s.pllGoal.fix then plLocked else plRetune) ∧
      OnlyRegs [R.pllStatus 0, R.pllStatus 1] s t) ∧
    (s.get (F.pllStatusState 1) ≠ plRetune → exec .retuneStep s = .next s) ∧
    (∀ (k : Fin 4) (v : Word),
      let n : Fin 14 := ⟨k.val + 1, by omega⟩
      let d := (v.extractLsb' 0 16).toNat
      let u := (s.ok.put (F.pllOutCfgFmax 1 n) (s.get (F.pllOutCfgFmax 1 n))).put (F.pllOutCfgDiv 1 n) d
      v.getLsbD 31 = s.flag (F.pllOutCfgEn 1 n) → (v.extractLsb' 16 10).toNat = s.get (F.pllOutCfgFmax 1 n) →
      (d = 0 → exec (.pllDividerWrite m 1 n v) s = .next (s.ok.put (F.pllStatusFmaxErr 1) 1)) ∧
      (d ≠ 0 → s.flag (F.pllCtrlCompat 1) = false →
        (s.ok.putsAbove u 1 s.pllGoal s.pllGoal = false → exec (.pllDividerWrite m 1 n v) s = .next u.clampSync) ∧
        (s.ok.putsAbove u 1 s.pllGoal s.pllGoal = true →
          exec (.pllDividerWrite m 1 n v) s = .next (s.ok.put (F.pllStatusFmaxErr 1) 1))) ∧
      (d ≠ 0 → s.flag (F.pllCtrlCompat 1) = true → s.mclkJoins = true → s.shadowOk n d = false →
        exec (.pllDividerWrite m 1 n v) s = .next (s.ok.put (F.pllStatusFmaxErr 1) 1)) ∧
      (d ≠ 0 → s.flag (F.pllCtrlCompat 1) = true → s.mclkJoins = false ∨ s.shadowOk n d = true →
        ∃ t, exec (.pllDividerWrite m 1 n v) s = .next t ∧ t.flag (F.pllOutCfgDivPend 1 n) = true ∧
          t.get (F.pllOutCfgDiv 1 n) = s.get (F.pllOutCfgDiv 1 n) ∧ ng t.clk.sh k none = some d ∧
          OnlyRegs [R.pllOutCfg 1 n, R.pllStatus 0, R.pllStatus 1] s t)) ∧
    ∀ (p : Fin 2) (k : Fin 14) (v : Word),
      let d := (v.extractLsb' 0 20).toNat
      (k.val < outCount p → exec (.outputDelayWrite m p k v) s =
        .next (((s.ok.put (F.pllOutDlyDly p k) d).put (F.pllOutDlyMoving p k)
          (if s.flag (F.pllOutDlyMoving p k) = true ∨ ng s.clk.dly (outNo p k) 0 ≠ d then 1 else 0)).setClk
          (fun c => { c with swing := ns c.swing (outNo p k) (min (s.dlySpan p k).1 d, max (s.dlySpan p k).2 d) }))) ∧
      (k.val < outCount p → s.flag (F.pllOutDlyMoving p k) = true → ∃ t, exec (.outputDelayArrival p k) s = .next t ∧
        t.flag (F.pllOutDlyMoving p k) = false ∧ ng t.clk.dly (outNo p k) 0 = s.get (F.pllOutDlyDly p k) ∧
        OnlyRegs [R.pllOutDly p k] s t) ∧
      (s.flag (F.pllOutDlyMoving p k) = false → exec (.outputDelayArrival p k) s = .next s)

/-- MCLK_ENABLE, MCLK_OUTPUT_START, PLL_APPLY, MCLK_DIVIDER_BOUNDARY, MCLK_RESTART (R308, R310, R312): an enabled output
starts at a domain-A tick boundary, a disabled one stops at once; an APPLY with COMPAT and legal shadows pends, for a boundary of its
own where another holds the outputs low, gates every output as its shadow divider becomes active at the boundary, and restarts the
enabled ones together.
Model's choices: log entry 126. -/
def MclkOutputsRule : Prop :=
  ∀ (m : Master) (k : Fin 4) (s : State), m = .host 0 ∨ m = .boot →
    let n := k.val + 1
    (s.flag (F.pllOutCfgEn 1 n) = false →
      (s.ok.putsAbove (s.ok.put (F.pllOutCfgEn 1 n) 1) 1 s.pllGoal s.pllGoal = false →
        exec (.mclkEnable m k true) s = .next (s.ok.put (F.pllOutCfgEn 1 n) 1).clampSync) ∧
      (s.ok.putsAbove (s.ok.put (F.pllOutCfgEn 1 n) 1) 1 s.pllGoal s.pllGoal = true →
        exec (.mclkEnable m k true) s = .next (s.ok.put (F.pllStatusFmaxErr 1) 1)) ∧
      exec (.mclkEnable m k false) s = .next s.ok) ∧
    (s.flag (F.pllOutCfgEn 1 n) = true → ∃ t, exec (.mclkEnable m k false) s = .next t ∧
      t.flag (F.pllOutCfgEn 1 n) = false ∧ t.flag (F.pllOutCfgAct 1 n) = false ∧
      OnlyRegs [R.pllOutCfg 1 n, R.pllStatus 0, R.pllStatus 1] s t) ∧
    (s.pllLocked 1 = true → s.st ≠ stRun ∨ s.atEdge = true →
      (s.mclkGated = false → s.flag (F.pllOutCfgEn 1 n) = true →
        exec (.mclkOutputStart k) s = .next (s.put (F.pllOutCfgAct 1 n) 1)) ∧
      (s.mclkJoins = true → ∃ t, exec .mclkDividerBoundary s = .next t ∧ t.clk.apply = 2 ∧
        (∀ j : Fin 4, t.flag (F.pllOutCfgAct 1 (j.val + 1)) = false ∧ t.flag (F.pllOutCfgDivPend 1 (j.val + 1)) = false ∧
          ng t.clk.sh j none = none ∧ t.get (F.pllOutCfgDiv 1 (j.val + 1)) =
            (match ng s.clk.sh j none with | some d => d % 2 ^ 16 | none => s.get (F.pllOutCfgDiv 1 (j.val + 1)))) ∧
        t.mem = s.mem) ∧
      (s.clk.apply = 2 → ∃ t, exec .mclkRestart s = .next t ∧ t.clk.apply = 0 ∧ t.flag (F.pllStatusApplyPend 1) = false ∧
        (∀ j : Fin 4, t.flag (F.pllOutCfgAct 1 (j.val + 1)) = s.flag (F.pllOutCfgEn 1 (j.val + 1))) ∧ t.mem = s.mem)) ∧
    (s.pllLocked 1 = false ∨ (s.st = stRun ∧ s.atEdge = false) → exec (.mclkOutputStart k) s = .next s ∧ exec .mclkDividerBoundary s = .next s ∧
      exec .mclkRestart s = .next s) ∧
    (s.flag (F.pllCtrlCompat 1) = false → exec (.pllApply m) s = .next s.ok) ∧
    (s.flag (F.pllCtrlCompat 1) = true →
      (s.shadowsOk = true → ∃ t, exec (.pllApply m) s = .next t ∧ t.flag (F.pllStatusApplyPend 1) = true ∧
        t.clk.apply = (if s.mclkGated = true then 3 else 1) ∧
        OnlyRegs [R.pllStatus 1] s t) ∧
      (s.shadowsOk = false → exec (.pllApply m) s = .next (s.ok.put (F.pllStatusFmaxErr 1) 1)))

/-- Writes of the PLLs and the clock outputs. -/
def Obligations.PllOutputs : Prop := PllWritesRule ∧ MclkOutputsRule

/-! ## Ochre (R318 to R329) -/

/-- OCHRE_WINDOW_END, REFERENCE_LOS, REFERENCE_EDGE_RETURN (R319 to R324, Table 11-5): at a window's end an enabled
reference without LOS shows its offset, fails beyond TOL, else qualifies, and becomes AVAILABLE after its good windows; LOS
fails an enabled reference at once, and the loss of the last reference of a locked Ochre with a valid average enters
HOLDOVER at that average; the first edge after LOS clears it.
Model's choices: log entries 44 to 47. -/
def OchreReferencesRule : Prop :=
  ∀ s : State,
    (∀ offs : List Int, s.ocSt ≠ ocHalt → Settles (.ochreWindowEnd offs) s (fun t => t.mem = s.mem ∧
      ∀ (r : Nat) (v : Int), r < 8 → s.flag (F.ocRefCfgEn r) = true → s.flag (F.ocRefStatLos r) = false →
        (s.ref r).losWin = false → offs[r]? = some v →
        t.getS (F.ocRefStatOffset r) = max (-32767) (min 32767 v) ∧
        (t.flag (F.ocRefStatDrift r) = true ↔ s.refTol r < 2 * v.natAbs) ∧
        (s.refTol r < v.natAbs → t.get (F.ocRefStatState r) = rfFailed) ∧
        (v.natAbs ≤ s.refTol r →
          (s.get (F.ocRefStatState r) = rfFailed → t.get (F.ocRefStatState r) = rfQual) ∧
          (s.get (F.ocRefStatState r) = rfAvail → t.get (F.ocRefStatState r) = rfAvail) ∧
          (s.get (F.ocRefStatState r) = rfQual → max 1 (s.get (F.ocRefCfgQualTime r)) ≤ (s.ref r).cnt + 1 →
            t.get (F.ocRefStatState r) = (if (s.ref r).quald = true ∧ s.get (F.ocRefWtrWtr r) ≠ 0 then rfWtr else rfAvail)) ∧
          (s.get (F.ocRefStatState r) = rfQual → (s.ref r).cnt + 1 < max 1 (s.get (F.ocRefCfgQualTime r)) →
            t.get (F.ocRefStatState r) = rfQual ∧ (t.ref r).cnt = (s.ref r).cnt + 1)))) ∧
    (∀ offs : List Int, s.ocSt = ocHalt → exec (.ochreWindowEnd offs) s = .next s.clampSync.settle) ∧
    (∀ r : Fin 9, r.val < 8 → s.flag (F.ocRefStatLos r) = false →
      (s.flag (F.ocRefCfgEn r) = true → s.ocSt ≠ ocLocked ∨ s.ocSel ≠ r → Settles (.referenceLos r) s (fun t =>
        t.get (F.ocRefStatState r) = rfFailed ∧ t.flag (F.ocRefStatLos r) = true ∧
        (t.rd R.ocRefEvt).getLsbD r = true ∧ t.ocSt = s.ocSt ∧ t.ocSel = s.ocSel ∧
        OnlyRegs [R.ocRefStat r, R.ocRefEvt, R.pllStatus 0, R.pllStatus 1] s t)) ∧
      (s.flag (F.ocRefCfgEn r) = true → s.ocSt = ocLocked → s.ocSel = r → s.flag F.ocSelForce = false →
        s.flag F.ocSelDisAct = false → (∀ q, q < 8 → q ≠ r → s.get (F.ocRefStatState q) ≠ rfAvail) → s.hoSecs ≠ [] →
        Settles (.referenceLos r) s (fun t => t.ocSt = ocHoldover ∧ t.ocSel = 15 ∧ t.flag F.ocStateHoEntry = true ∧
          t.flag F.ocStateSwitch = true ∧ t.oc.hold = s.hoValue ∧ t.get (F.ocRefStatState r) = rfFailed ∧ t.mem = s.mem))) ∧
    (∀ r : Fin 9, s.flag (F.ocRefStatLos r) = true → exec (.referenceLos r) s = .next s.clampSync.settle) ∧
    ∀ r : Fin 9, (r.val < 8 → s.refOk r = true → exec (.referenceEdgeReturn r) s = .next (s.put (F.ocRefStatLos r) 0)) ∧
      (s.refOk r = false → exec (.referenceEdgeReturn r) s = .next s)

/-- OCHRE_SECOND, SLEW_END, PHASE_STEP (R324 to R327, R329): a second keeps the mean of s when a reference was selected all
through it, and makes the kept means a second older; a phase step adds to the remaining phase and, exactly once, to the offset; at the end of the slew nothing
remains, but a slew that is held until the next epoch has no end. (That a second rounds the mean down, and that one in which
a reference was selected for a part of the time is not kept, is log entry 40's choice.) -/
def OchrePhaseRule : Prop :=
  ∀ s : State,
    let aged := s.oc.means.map (fun p => (p.1, min 15 (p.2 + 1)))
    (s.ocSt ≠ ocHalt → ∃ t, exec .ochreSecond s = .next t ∧ t.oc.sum = 0 ∧ t.oc.n = 0 ∧ t.oc.s0 = s.oc.s0 ∧
      t.oc.whole = (s.ocSt == ocLocked) ∧
      t.oc.means = (if s.oc.whole = true ∧ s.oc.n ≠ 0 then ((s.oc.sum / (s.oc.n : Int), 0) :: aged).take 80 else aged) ∧
      OnlyRegs [R.ocFreq, R.ocHofreq, R.ocPhaseRem, R.ocState] s t) ∧
    (s.ocSt = ocHalt → exec .ochreSecond s = .next s) ∧
    (s.oc.held = true → exec .slewEnd s = .next s.clampSync) ∧
    (s.oc.held = false → ∃ t, exec .slewEnd s = .next t ∧ t.ocRem = 0 ∧ t.oc.s0 = s.oc.s0 ∧ t.oc.ofs = s.oc.ofs ∧
      t.flag F.ocStateSlewing = false ∧ t.rd R.ocPhaseRem = 0#32 ∧
      OnlyRegs [R.ocFreq, R.ocHofreq, R.ocPhaseRem, R.ocState, R.pllStatus 0, R.pllStatus 1] s t) ∧
    ∀ (m : Master) (v : Word), m = .host 0 ∨ m = .boot →
      (s.ocSt = ocHalt → exec (.phaseStep m v) s = .next s.ok.clampSync) ∧
      (s.ocSt ≠ ocHalt → s.ocRem = 0 → v.extractLsb' 0 22 ≠ 0#22 → ∃ t, exec (.phaseStep m v) s = .next t ∧
        t.ocRem = (v.extractLsb' 0 22).toInt ∧ t.oc.ofs = s.oc.ofs + (v.extractLsb' 0 22).toInt ∧
        t.flag F.ocStateSlewing = true ∧ t.oc.s0 = s.oc.s0 ∧
        OnlyRegs [R.ocFreq, R.ocHofreq, R.ocPhaseRem, R.ocState, R.pllStatus 0, R.pllStatus 1] s t)

/-- Ochre: its references and its phase. -/
def Obligations.OchreReferencesAndPhase : Prop := OchreReferencesRule ∧ OchrePhaseRule

/-! ## Memory, Vermilion and the MRAM store (R331 to R357) -/

/-- An access of `n` bytes at byte `a` of shared memory, of a size of R332 and aligned to it. -/
def SharedFit (a n : Nat) : Prop := (n = 1 ∨ n = 2 ∨ n = 4 ∨ n = 8 ∨ n = 16) ∧ a % n = 0 ∧ a + n ≤ 0xC00000

/-- Such an access that the state of its group lets through. -/
def SharedAt (s : State) (a n : Nat) : Prop := SharedFit a n ∧ s.grpState a = 0

/-- SHARED_MEMORY_ACCESS, BIT_SET_WRITE, BIT_CLEAR_WRITE (R332, R335 to R337, R339 to R341): a write gives the addressed bytes
its data, or sets or clears their bits at the aliases; a read answers them; a one-bit error counts and a two-bit error answers
ECC and names its word; a group that enters or stays in retention answers RET, one that wakes makes the access wait, a
misaligned access answers ALIGN, and an address of no range DECODE: those change no memory. The cycles that a master has
waited while others were served count for it.
Model's choices: log entries 8, 52, 53. -/
def SharedMemoryRule : Prop :=
  ∀ (m : Master) (a : Word) (n lost : Nat) (l : List Byte) (s : State),
    let adr := a.toNat
    let u := s.waited (masterNo m) adr lost
    let lands := fun (i : Instr) (f : Byte → Byte → Byte) => ∃ t, exec i s = .next t ∧ t.resp = .ok ∧
      (∀ i (h : i < l.length), t.rb (adr + i) = f (s.rb (adr + i)) l[i]) ∧
      (∀ b, (b < adr ∨ adr + n ≤ b) → t.rb b = s.rb b) ∧ ∀ r, t.rd r = u.rd r
    let answers := fun (i : Instr) (r : Resp) (regs : List Nat) (P : State → Prop) => ∃ t, exec i s = .next t ∧ t.resp = r ∧
      t.mem = s.mem ∧ P t ∧ ∀ r, r ∉ regs → t.rd r = u.rd r
    l.length = n →
    (SharedAt s adr n →
      lands (.sharedMemoryAccess m a true l 0 lost) (fun _ d => d) ∧
      lands (.bitSetWrite m a l lost) (fun o d => o ||| d) ∧
      lands (.bitSetWrite m (a + 0x01000000#32) l lost) (fun o d => o ||| d) ∧
      lands (.bitClearWrite m a l lost) (fun o d => o &&& ~~~d) ∧
      lands (.bitClearWrite m (a + 0x02000000#32) l lost) (fun o d => o &&& ~~~d) ∧
      (s.sm.ue = [] →
        answers (.sharedMemoryAccess m a false l 0 lost) .ok [] (fun t => t.rbytes = s.rbs adr n) ∧
        answers (.sharedMemoryAccess m a false l 1 lost) .ok [R.smemCeCnt] (fun t => t.rbytes = s.rbs adr n ∧
          t.get F.smemCeCntCount = min (s.get F.smemCeCntCount + 1) 0xFFFFFFFF) ∧
        ∃ t, exec (.sharedMemoryAccess m a false l 2 lost) s = .next t ∧ t.resp = .error errEcc ∧
          t.flag F.smemErrUe = true ∧ t.rd R.smemUeAddr = BitVec.ofNat 32 (adr / 4 * 4) ∧ t.mem = s.mem)) ∧
    (SharedFit adr n → s.grpState adr = 1 ∨ s.grpState adr = 2 → ∀ wr : Bool,
      answers (.sharedMemoryAccess m a wr l 0 lost) (.error errRet) [R.smemErr] (fun t => t.flag F.smemErrRet = true)) ∧
    (SharedFit adr n → s.grpState adr = 3 → ∀ wr : Bool,
      answers (.sharedMemoryAccess m a wr l 0 lost) .held [] (fun t => t.sm.waits.length = s.sm.waits.length + 1)) ∧
    (adr < 0xC00000 → accessOk adr n = false → ∀ wr : Bool,
      answers (.sharedMemoryAccess m a wr l 0 lost) (.error errAlign) [R.smemErr] (fun t => t.flag F.smemErrAlign = true)) ∧
    (0xC00000 ≤ adr → adr < 0x01000000 → ∀ wr : Bool,
      answers (.sharedMemoryAccess m a wr l 0 lost) (.error errDecode) [R.smemErr] (fun t => t.flag F.smemErrDecode = true))

/-- RETENTION_REQUEST, RETENTION_ENTERED, WAKE_REQUEST, GROUP_WAKE_DONE (R339, R340): RET written 1 in ON enters, the entry
ends, once no access issued earlier is outstanding, in RET or, with RET cleared meanwhile, wakes; RET written 0 in RET wakes, and at the end the group is ON and an access
that waited takes effect, or, with RET written 1 again, it enters.
Model's choices: log entry 120. -/
def RetentionRule : Prop :=
  ∀ (m : Master) (g : Fin 12) (s : State), m = .host 0 ∨ m = .boot →
    let st := s.get (F.smemRetStatState g)
    let ret := (s.get F.smemRetRet).testBit g
    (ret = false → st = 0 → ∃ t, exec (.retentionRequest m g) s = .next t ∧ (t.get F.smemRetRet).testBit g = true ∧
      t.get (F.smemRetStatState g) = 1 ∧ OnlyRegs [R.smemRet, R.smemRetStat] s t) ∧
    (ret = true → exec (.retentionRequest m g) s = .next s.ok) ∧
    (st = 1 → s.grpBusy g = false → exec (.retentionEntered g) s = .next (s.put (F.smemRetStatState g) (if ret = true then 2 else 3))) ∧
    (st ≠ 1 ∨ s.grpBusy g = true → exec (.retentionEntered g) s = .next s) ∧
    (ret = true → st = 2 → ∃ t, exec (.wakeRequest m g) s = .next t ∧ (t.get F.smemRetRet).testBit g = false ∧
      t.get (F.smemRetStatState g) = 3 ∧ OnlyRegs [R.smemRet, R.smemRetStat] s t) ∧
    (ret = false → exec (.wakeRequest m g) s = .next s.ok) ∧
    (st = 3 → ret = false → s.sm.waits = [] → exec (.groupWakeDone g) s =
      .next { s.put (F.smemRetStatState g) 0 with boot := { s.boot with memOld := putField s.boot.memOld g 1 0 } }) ∧
    (st = 3 → ret = true → s.sm.waits = [] → ∃ t, exec (.groupWakeDone g) s = .next t ∧
      t.get (F.smemRetStatState g) = 1 ∧ OnlyRegs [R.smemRetStat] s t) ∧
    (∀ (x : Option Master) (a : Nat) (v : Word), st = 3 → ret = false → s.sm.waits = [⟨x, a, 1, 4, wordBytes v⟩] →
      a < 0xC00000 → a % 4 = 0 → a / 2 ^ 20 = g → ∃ t, exec (.groupWakeDone g) s = .next t ∧ t.rw a = v ∧
        t.sm.waits = [] ∧ t.get (F.smemRetStatState g) = 0 ∧ ∀ b, (b < a ∨ a + 4 ≤ b) → t.rb b = s.rb b) ∧
    (st ≠ 3 → exec (.groupWakeDone g) s = .next s) ∧
    ∀ h : Fin 4, h ≠ 0 → exec (.retentionRequest (.host h) g) s = .next s.denied ∧
      exec (.wakeRequest (.host h) g) s = .next s.denied

/-- Shared memory and what it keeps. -/
def Obligations.SharedMemoryAll : Prop := SharedMemoryRule ∧ RetentionRule

/-- UNLOCK, LOCK, SEAL and SEAL_DONE (R342, R345 to R347, Table 12-4): a right token unlocks and zeroes the token registers,
a wrong one counts, also in persistent counter 6 where that can be read, and from the eighth locks out; LOCK locks; SEAL by the boot sequencer or host 0 with access runs, and
its end leaves the page's copy, CRC and state word in the partition, and lands the writes that it held; a refused SEAL sets SEAL_ERR.
Model's choices: log entries 54, 121. -/
def VermilionAccessRule : Prop :=
  ∀ s : State,
    (s.flag F.vermStatusLockout = false → s.verm = accLocked →
      (s.tokenOk = true → ∃ t, exec (.unlock (.host 0)) s = .next t ∧ t.verm = accUnlocked ∧
        (∀ w, w < 8 → t.rd (R.vermToken w) = 0#32) ∧ OnlyRegs (R.vermStatus :: (List.range 8).map R.vermToken) s t) ∧
      (s.tokenOk = false → ∃ t, exec (.unlock (.host 0)) s = .next t ∧ t.verm = accLocked ∧
        t.get F.vermStatusFail = min (s.get F.vermStatusFail + 1) 15 ∧
        (7 ≤ s.get F.vermStatusFail → t.flag F.vermStatusLockout = true) ∧
        (s.get F.vermStatusFail < 7 → t.flag F.vermStatusLockout = false) ∧ (∀ w, w < 8 → t.rd (R.vermToken w) = 0#32) ∧
        (s.cntUe 6 = false → t.cntVal 6 = min (s.cntVal 6 + 1) (2 ^ 64 - 1)) ∧ t.mem = s.mem)) ∧
    (s.flag F.vermStatusLockout = true ∨ s.verm ≠ accLocked → exec (.unlock (.host 0)) s = .next s.ok) ∧
    (s.verm = accUnlocked → exec (.lock (.host 0)) s = .next (s.ok.put F.vermStatusAccess accLocked)) ∧
    (s.verm ≠ accUnlocked → exec (.lock (.host 0)) s = .next s.ok) ∧
    (∀ h : Fin 4, h ≠ 0 → exec (.unlock (.host h)) s = .next s.denied ∧ exec (.lock (.host h)) s = .next s.denied ∧
      exec (.vermSeal (.host h)) s = .next s.denied) ∧
    (∀ m : Master, m = .host 0 ∨ m = .boot → s.flag F.vermStatusSealing = false →
      (s.vermMay m = true → s.lc ≠ 3 → ∃ t, exec (.vermSeal m) s = .next t ∧ t.flag F.vermStatusSealing = true ∧
        t.sm.pageSt = 2#32 ∧ t.verm = s.verm ∧ OnlyRegs [R.vermStatus] s t) ∧
      (s.vermMay m = false ∨ s.lc = 3 → exec (.vermSeal m) s = .next (s.ok.put F.vermStatusSealErr 1))) ∧
    (s.flag F.vermStatusSealing = true → s.sm.heldSeal = [] → ∃ t, exec .sealDone s = .next t ∧
      t.flag F.vermStatusSealing = false ∧ t.sm.pageSt = 1#32 ∧ t.sm.pageCrc = pageCrcOf t.sm.page ∧
      (∀ i, i < 0x2000 → spGet memDefault t.sm.page i = s.rb (0x03000000 + i)) ∧ OnlyRegs [R.vermStatus] s t) ∧
    (∀ a l, s.flag F.vermStatusSealing = true → s.sm.heldSeal = [(a, l)] → ∃ t, exec .sealDone s = .next t ∧
      t.mem = (s.wbs a l).mem ∧ t.sm.heldSeal = []) ∧
    (s.flag F.vermStatusSealing = false → exec .sealDone s = .next s)

/-- WIPE, TAMPER, VOLTAGE_GLITCH, CLOCK_GLITCH and WIPE_DONE (R348 to R351, Table 12-5): a cause blocks access and starts a
wipe unless one runs or the supply is below the brown-out threshold; a wipe verified leaves every byte of Vermilion and the
partition zero, persistent counter 5 counts it where it can be read, and WCAUSE names its cause; one not verified sets WIPE_FAIL.
Model's choices: log entry 55. -/
def VermilionWipeRule : Prop :=
  ∀ s : State,
    let starts := fun (i : Instr) (c : Nat) => ∃ t, exec i s = .next t ∧ t.verm = accBlocked ∧
      t.flag F.vermStatusWiping = true ∧ t.flag F.vermStatusSealing = false ∧ t.sm.wcause = c ∧ t.sm.pageSt = 2#32 ∧
      t.sm.heldSeal = [] ∧ OnlyRegs [R.vermStatus] s t
    (s.flag F.vermStatusWiping = false → s.sm.brown = false →
      starts .tamper 1 ∧ starts .voltageGlitch 2 ∧ starts .clockGlitch 3 ∧ starts (.wipe (.host 0)) 5) ∧
    (s.flag F.vermStatusWiping = true ∨ s.sm.brown = true → exec .tamper s = .next s ∧ exec .voltageGlitch s = .next s ∧
      exec .clockGlitch s = .next s ∧ exec (.wipe (.host 0)) s = .next s.ok) ∧
    (∀ h : Fin 4, h ≠ 0 → exec (.wipe (.host h)) s = .next s.denied) ∧
    (s.flag F.vermStatusWiping = true → ∃ t, exec (.wipeDone true) s = .next t ∧
      (∀ a, 0x03000000 ≤ a → a < 0x03040000 → t.rb a = 0#8) ∧ t.sm.page = [] ∧ t.sm.pageSt = 0#32 ∧
      t.flag F.vermStatusWiping = false ∧ t.flag F.vermStatusWiped = true ∧
      t.get F.vermStatusWcause = s.sm.wcause % 2 ^ 4 ∧
      (s.sm.lcPhase = 0 → s.flag F.vermStatusWipeFail = false → t.verm = if s.lc = 0 ∨ s.lc = 3 then accOpen else accLocked) ∧
      (s.cntUe 5 = false → t.cntVal 5 = min (s.cntVal 5 + 1) (2 ^ 64 - 1)) ∧ ∀ a, (a < 0x03000000 ∨ 0x03040000 ≤ a) → t.rb a = s.rb a) ∧
    (s.flag F.vermStatusWiping = true → ∃ t, exec (.wipeDone false) s = .next t ∧ t.flag F.vermStatusWiping = false ∧
      t.flag F.vermStatusWipeFail = true ∧ t.verm = s.verm ∧ OnlyRegs [R.vermStatus, R.otpStatus] s t) ∧
    ∀ ok : Bool, s.flag F.vermStatusWiping = false → exec (.wipeDone ok) s = .next s

/-- Vermilion: accesses, locks and the wipe. -/
def Obligations.VermilionLocksAndWipes : Prop := VermilionAccessRule ∧ VermilionWipeRule

/-- MRAM_WRITE, MRAM_WORD_WRITE_DONE, COUNTER_INCREMENT (R353 to R357, Table 12-6): a write that the region allows the
master joins the queue and holds its answer, one of 16 bytes as two words, and a word stands in the array when its word write
is done, oldest first; a narrow one whose word holds a two-bit error answers ECC and sets UE; any other sets PROT, names its word and
answers PERM; a counter from 16 up advances by 1 through the queue and stops at its largest value, or sets UE where it cannot be read,
those below set PROT. (The end of a word write is stated where no warm-start record is being written.)
Model's choices: log entries 15, 56. -/
def Obligations.MramStore : Prop :=
  ∀ (m : Master) (s : State), m = .host 0 ∨ m = .boot →
    (∀ (a : Word) (l : List Byte), 0x07000000 ≤ a.toNat → a.toNat < 0x07080000 → accessOk a.toNat l.length = true →
      (s.mramMay m a.toNat = true → 8 ≤ l.length ∨ s.ueIn a.toNat l.length 8 = none → ∃ t, exec (.mramWrite m a l.length l) s = .next t ∧ t.resp = .held ∧
        t.sm.wq = s.sm.wq ++ (if l.length = 16 then [⟨a.toNat, l.take 8, some m⟩, ⟨a.toNat + 8, l.drop 8, some m⟩]
          else [⟨a.toNat, l, some m⟩]) ∧
        t.get F.mramcStatusQueue = min 8 t.sm.wq.length ∧ t.flag F.mramcStatusBusy = true ∧ OnlyRegs [R.mramcStatus] s t) ∧
      (∀ u, s.mramMay m a.toNat = true → l.length < 8 → s.ueIn a.toNat l.length 8 = some u → isShared u = false →
        ∃ t, exec (.mramWrite m a l.length l) s = .next t ∧ t.resp = .error errEcc ∧ t.flag F.mramcStatusUe = true ∧
          t.rd R.mramcErraddr = BitVec.ofNat 32 u ∧ t.mem = s.mem) ∧
      (s.mramMay m a.toNat = false → ∃ t, exec (.mramWrite m a l.length l) s = .next t ∧ t.resp = .error errPerm ∧
        t.flag F.mramcStatusProt = true ∧ t.rd R.mramcErraddr = BitVec.ofNat 32 (a.toNat / 8 * 8) ∧ t.sm.wq = s.sm.wq ∧
        OnlyRegs [R.mramcStatus, R.mramcErraddr] s t) ∧
      (0x07077000 ≤ a.toNat → s.mramMay m a.toNat = false) ∧
      (a.toNat < 0x07041000 → m = .host 0 → s.flag F.mramcCtrlWsWen = false → s.mramMay m a.toNat = false)) ∧
    (∀ e q, s.sm.wq = e :: q → s.boot.wsGo = 0 → ∃ t, exec .mramWordWriteDone s = .next t ∧ t.sm.wq = q ∧
      (∀ i (h : i < e.data.length), t.rb (e.addr + i) = e.data[i]) ∧
      (∀ b, (b < e.addr ∨ e.addr + e.data.length ≤ b) → t.rb b = s.rb b) ∧
      t.get F.mramcStatusQueue = min 8 q.length ∧ (t.flag F.mramcStatusBusy = true ↔ q ≠ []) ∧
      ∀ r, r ≠ R.mramcStatus → t.rd r = s.rd r) ∧
    (s.sm.wq = [] → exec .mramWordWriteDone s = .next s) ∧
    ∀ v : Word,
      let c := (v.extractLsb' 0 6).toNat
      (c < 16 → exec (.counterIncrement m v) s = .next (s.ok.put F.mramcStatusProt 1)) ∧
      (16 ≤ c → s.cntUe c = true → ∃ t, exec (.counterIncrement m v) s = .next t ∧ t.flag F.mramcStatusUe = true ∧
        t.cntVal c = s.cntVal c) ∧
      (16 ≤ c → s.cntUe c = false → ∃ t, exec (.counterIncrement m v) s = .next t ∧ t.cntVal c = min (s.cntVal c + 1) (2 ^ 64 - 1) ∧
        (∀ k, k < 64 → k ≠ c → t.cntVal k = s.cntVal k) ∧ OnlyRegs [R.mramcStatus] s t)

/-! ## DMA (R358 to R370) -/

/-- No register outside the DMA block may differ from `s` to `t`, and no memory: what the issue of accesses changes. -/
def OnlyDma (s t : State) : Prop := (∀ a, (a < 0x080A0000 ∨ 0x080A2008 ≤ a) → t.rd a = s.rd a) ∧ t.mem = s.mem

/-- Word `i` of the descriptor at byte `d` of shared memory. -/
def descWord (s : State) (d i : Nat) : Word := s.rw (d + 4 * i)

/-- DMA_START, DMA_ABORT, DMA_RESUME (R358, R359, R364, R366, R369) by host 0: a start of an idle channel writes its fields and
runs the set or loads the descriptor; one that fails a check sets CFG_ERR; a set of 0 bytes is DONE at once; an ACTIVE
channel sets CFG_IGN; an abort ends a channel with nothing outstanding at once, and waits for what is; a resume of a
CHAIN_END channel reads its link again, once more where that read is under way; a set that has failed ends in ERROR whatever
is asked. Another host than the owner is DENIED.
Model's choices: log entries 60, 61. -/
def DmaCommandsRule : Prop :=
  ∀ (n : Fin 32) (v : Word) (s : State),
    let ctl := v &&& 0xBFF00#32
    let u := s.ok.wr (R.dmaCtrl n) ctl
    let bad := dmaBad (s.get (F.dmaSrcAddr n)) (s.get (F.dmaDstAddr n)) (s.get (F.dmaCountCount n)) (u.get (F.dmaCtrlEsize n))
      (u.flag (F.dmaCtrlSrcFix n)) (u.flag (F.dmaCtrlDstFix n))
    let chain := u.flag (F.dmaCtrlChain n)
    (v.getLsbD 30 = false → v.getLsbD 29 = false → s.dmaSt n ≠ dmActive →
      (bad = false → chain = false → 0 < s.get (F.dmaCountCount n) → ∃ t, exec (.dmaStart (.host 0) n v) s = .next t ∧
        t.dmaSt n = dmActive ∧ t.rd (R.dmaCtrl n) = ctl ∧ t.get (F.dmaStatusEtype n) = 0 ∧ OnlyDma s t) ∧
      (bad = false → chain = false → s.get (F.dmaCountCount n) = 0 → u.flag (F.dmaCtrlVatEn n) = false →
        ∃ t, exec (.dmaStart (.host 0) n v) s = .next t ∧ t.dmaSt n = dmDone ∧ (t.rd R.dmaEvt).getLsbD n = true ∧
          OnlyRegs [R.dmaCtrl n, R.dmaStatus n, R.dmaEvt] s t) ∧
      (bad = false → chain = true → s.get (F.dmaLinkAddr n) % 32 = 0 → ∃ t, exec (.dmaStart (.host 0) n v) s = .next t ∧
        t.dmaSt n = dmActive ∧ (t.dch n).ph = 5 ∧ OnlyDma s t) ∧
      (bad = true ∨ (chain = true ∧ s.get (F.dmaLinkAddr n) % 32 ≠ 0) →
        exec (.dmaStart (.host 0) n v) s = .next (u.put (F.dmaStatusCfgErr n) 1))) ∧
    (v.getLsbD 30 = false → v.getLsbD 29 = false → s.dmaSt n = dmActive → ∃ t, exec (.dmaStart (.host 0) n v) s = .next t ∧
      t.flag (F.dmaStatusCfgIgn n) = true ∧ t.dma = s.dma ∧ OnlyRegs [R.dmaStatus n] s t) ∧
    (s.dmaSt n = dmActive → (s.dch n).ph = 1 →
      ((s.dch n).out = [] → ∃ t, exec (.dmaAbort (.host 0) n v) s = .next t ∧ t.dmaSt n = dmAborted ∧
        (t.rd R.dmaEvt).getLsbD n = true ∧ OnlyRegs [R.dmaStatus n, R.dmaEvt] s t) ∧
      ((s.dch n).out ≠ [] → ∃ t, exec (.dmaAbort (.host 0) n v) s = .next t ∧ t.dmaSt n = dmActive ∧ (t.dch n).ph = 2 ∧
        (t.dch n).out = (s.dch n).out ∧ OnlyRegs [R.dmaStatus n] s t)) ∧
    (s.dmaSt n = dmActive → (s.dch n).ph = 3 → ∃ t, exec (.dmaAbort (.host 0) n v) s = .next t ∧ t.dma = s.dma ∧
      OnlyRegs [R.dmaStatus n] s t) ∧
    (s.dmaSt n = dmChainEnd → ∃ t, exec (.dmaAbort (.host 0) n v) s = .next t ∧ t.dmaSt n = dmAborted ∧
      (t.rd R.dmaEvt).getLsbD n = true ∧ OnlyRegs [R.dmaCtrl n, R.dmaStatus n, R.dmaEvt] s t) ∧
    (s.dmaSt n ≠ dmActive → s.dmaSt n ≠ dmChainEnd → exec (.dmaAbort (.host 0) n v) s = .next u) ∧
    (v.getLsbD 31 = false → v.getLsbD 30 = false →
      (s.dmaSt n = dmChainEnd → (s.dch n).ph ≠ 6 → ∃ t, exec (.dmaResume (.host 0) n v) s = .next t ∧ (t.dch n).ph = 6 ∧
        t.dmaSt n = dmChainEnd ∧ OnlyDma s t) ∧
      (s.dmaSt n = dmChainEnd → (s.dch n).ph = 6 → exec (.dmaResume (.host 0) n v) s =
        .next (u.setDch n (fun k => { k with again := !k.out.isEmpty }))) ∧
      (s.dmaSt n = dmActive → ∃ t, exec (.dmaResume (.host 0) n v) s = .next t ∧ t.flag (F.dmaStatusResumePend n) = true ∧
        t.dma = s.dma ∧ OnlyRegs [R.dmaStatus n] s t) ∧
      (s.dmaSt n ≠ dmActive → s.dmaSt n ≠ dmChainEnd → exec (.dmaResume (.host 0) n v) s = .next u)) ∧
    ∀ h : Fin 4, h ≠ 0 → s.dmaOwner n ≠ h → exec (.dmaStart (.host h) n v) s = .next s.denied ∧
      exec (.dmaAbort (.host h) n v) s = .next s.denied ∧ exec (.dmaResume (.host h) n v) s = .next s.denied

/-- DMA_ACCESS_COMPLETE, DMA_LINK_READ_DONE, DMA_DESCRIPTOR_LOADED over shared memory (R333, R361 to R369, Table 12-8): the
oldest access of a channel takes effect once no access issued before it to its 16-byte block is outstanding: a write lands and
a read's bytes wait for their writes; the last write of a set makes the channel DONE; an access that the host's windows refuse
ends the channel in ERROR with PERM and its address; a link word with E 0 loads the next descriptor, with E 1 ends the chain,
otherwise is a DESC error; a legal descriptor runs.
Model's choices: log entry 59. -/
def DmaCompletesRule : Prop :=
  ∀ (n : Fin 32) (cyc : Nat) (s : State), s.sm.ue = [] →
    (∀ (x : DmaAcc) (l : List DmaAcc), (s.dch n).out = x :: l →
      ((s.dch n).ph = 1 → SharedAt s x.addr x.size → x.queued = false → s.dmaBehind x = false →
        x.data.length = (if x.wr = true then x.size else 0) →
        (s.permits (s.dmaHost n) (if x.wr = true then 1 else 0) x.addr = true → l ≠ [] ∨ s.get (F.dmaCountCount n) ≠ 0 →
          Settles (.dmaAccessComplete ⟨n, cyc⟩) s (fun t => t.dmaSt n = s.dmaSt n ∧
            (x.wr = true → (∀ i (h : i < x.data.length), t.rb (x.addr + i) = x.data[i]) ∧
              ∀ b, (b < x.addr ∨ x.addr + x.size ≤ b) → t.rb b = s.rb b) ∧
            (x.wr = false → t.mem = s.mem ∧ ∃ z, (t.dch n).buf = ((s.dch n).buf ++ s.rbs x.addr x.size).drop z))) ∧
        (s.permits (s.dmaHost n) (if x.wr = true then 1 else 0) x.addr = true → l = [] → s.get (F.dmaCountCount n) = 0 →
          x.wr = true → s.flag (F.dmaCtrlChain n) = false → s.flag (F.dmaCtrlVatEn n) = false →
          Settles (.dmaAccessComplete ⟨n, cyc⟩) s (fun t => t.dmaSt n = dmDone ∧ (t.rd R.dmaEvt).getLsbD n = true ∧
            ∀ i (h : i < x.data.length), t.rb (x.addr + i) = x.data[i])) ∧
        (s.permits (s.dmaHost n) (if x.wr = true then 1 else 0) x.addr = false →
          (l = [] → Settles (.dmaAccessComplete ⟨n, cyc⟩) s (fun t => t.dmaSt n = dmError ∧
            t.get (F.dmaStatusEtype n) = errPerm ∧ t.get (F.dmaErraddrAddr n) = x.addr ∧
            (t.rd R.dmaEvt).getLsbD n = true ∧ t.mem = s.mem)) ∧
          (l ≠ [] → Settles (.dmaAccessComplete ⟨n, cyc⟩) s (fun t => t.dmaSt n = s.dmaSt n ∧ (t.dch n).ph = 3 ∧
            (t.dch n).out = l ∧ t.get (F.dmaStatusEtype n) = errPerm ∧ t.mem = s.mem)))) ∧
      (s.dmaBehind x = true → exec (.dmaAccessComplete ⟨n, cyc⟩) s = .next (s.atCyc cyc))) ∧
    ((s.dch n).out = [] → exec (.dmaAccessComplete ⟨n, cyc⟩) s = .next (s.atCyc cyc)) ∧
    (let d := s.get (F.dmaLinkAddr n)
     let next := (s.rw (d + 16)).toNat
     let e := (s.rw (d + 20)).toNat
     ∀ x : DmaAcc, (s.dch n).stop = false → d % 32 = 0 → d + 32 ≤ 0xC00000 → s.grpState d = 0 → (s.dch n).out = [x] →
      s.dmaBehind x = false →
      ((s.dch n).ph = 4 → x.addr = d + 16 → x.size = 8 →
        (next % 32 = 0 → e = 0 → ∃ t, exec (.dmaLinkReadDone n) s = .next t ∧ t.dmaSt n = dmActive ∧
          t.get (F.dmaLinkAddr n) = next ∧ (t.dch n).ph = 5 ∧ t.mem = s.mem) ∧
        (next % 32 = 0 → e = 1 → s.flag (F.dmaStatusResumePend n) = false → (s.dch n).again = false →
          ∃ t, exec (.dmaLinkReadDone n) s = .next t ∧ t.dmaSt n = dmChainEnd ∧ t.get (F.dmaTailAddr n) = d ∧
            (t.rd R.dmaEvt).getLsbD n = true ∧ t.mem = s.mem) ∧
        (next % 32 = 0 → e = 1 → s.flag (F.dmaStatusResumePend n) = true → ∃ t, exec (.dmaLinkReadDone n) s = .next t ∧
          t.dmaSt n = dmChainEnd ∧ (t.dch n).ph = 6 ∧ t.flag (F.dmaStatusResumePend n) = false ∧ t.mem = s.mem) ∧
        (next % 32 ≠ 0 ∨ 2 ≤ e → ∃ t, exec (.dmaLinkReadDone n) s = .next t ∧ t.dmaSt n = dmError ∧
          t.get (F.dmaStatusEtype n) = errDesc ∧ t.get (F.dmaErraddrAddr n) = d ∧ t.mem = s.mem)) ∧
      ((s.dch n).ph = 5 → x.addr = d → x.size = 32 →
        (descBad ((List.range 8).map (descWord s d)) = true →
          ∃ t, exec (.dmaDescriptorLoaded n) s = .next t ∧ t.dmaSt n = dmError ∧ t.get (F.dmaStatusEtype n) = errDesc ∧
            t.get (F.dmaErraddrAddr n) = d ∧ t.mem = s.mem) ∧
        (descBad ((List.range 8).map (descWord s d)) = false → descWord s d 2 ≠ 0#32 →
          ∃ t, exec (.dmaDescriptorLoaded n) s = .next t ∧ t.dmaSt n = dmActive ∧
            t.rd (R.dmaCtrl n) = descWord s d 3 &&& 0xBFF00#32 ∧ t.rd (R.dmaVdesc n) = descWord s d 6 &&& 0xFFFFFFE0#32 ∧
            t.get (F.dmaLinkAddr n) = d ∧ t.mem = s.mem))) ∧
    ((s.dch n).ph ≠ 4 → (s.dch n).ph ≠ 6 → exec (.dmaLinkReadDone n) s = .next s) ∧
    ((s.dch n).ph ≠ 5 → exec (.dmaDescriptorLoaded n) s = .next s)

/-- DMA channels: commands and completions. -/
def Obligations.DmaChannels : Prop := DmaCommandsRule ∧ DmaCompletesRule

/-! ## Host ports (R374 to R403) -/

/-- A frame with these fields waits to be executed on port `h`, with none of its words served. -/
def FrameWaits (s : State) (h : Fin 4) (op tag words addr : Nat) (pay : List Word) : Prop :=
  s.powered 1 = true ∧ (s.hport h).req = some (op, tag, words, addr, pay) ∧ (s.hport h).served = 0 ∧
    (s.hport h).data = [] ∧ (s.hport h).held = false

/-- The reply that port `h` has built: STATUS, TAG and data. -/
def Built (t : State) (h : Fin 4) (status tag : Nat) (data : List Word) : Prop :=
  (t.hport h).req = none ∧ ∃ r, (t.hport h).built = some r ∧ r.status = status ∧ r.tag = tag ∧ r.data = data

/-- LINK_READ, LINK_WRITE, LINK_RMW over shared memory (R377, R380 to R382, Table 13-1): a READ replies with its words in
order, from one address when FIX is 1; a WRITE leaves its payload at rising addresses and nothing else; an RMW replies with
the old word and changes the bits of its mask; each with STATUS OK. A command that serves fewer words leaves the frame in
execution, with those served.
Model's choices: log entries 8, 62. -/
def Obligations.LinkMemory : Prop :=
  ∀ (h : Fin 4) (op tag words addr n cyc : Nat) (pay : List Word) (s : State), FrameWaits s h op tag words addr pay →
    1 ≤ words → addr % 4 = 0 → addr + 4 * words ≤ 0xC00000 → (∀ i, i < words → s.grpState (addr + 4 * i) = 0) → s.sm.ue = [] →
    (op % 64 = 1 → words ≤ n → Settles (.linkRead ⟨h, n, cyc⟩) s (fun t => Built t h stOk tag
        ((List.range words).map (fun i => s.rw (if op.testBit 6 then addr else addr + 4 * i))) ∧ OnlyRegs [R.smemConf h] s t)) ∧
    (op % 64 = 2 → op.testBit 6 = false → words ≤ n → Settles (.linkWrite ⟨h, n, cyc⟩) s (fun t => Built t h stOk tag [] ∧
        (∀ i, i < words → t.rw (addr + 4 * i) = (pay[i]?).getD 0#32) ∧
        (∀ b, (b < addr ∨ addr + 4 * words ≤ b) → t.rb b = s.rb b) ∧ ∀ r, r ≠ R.smemConf h → t.rd r = s.rd r)) ∧
    (op % 64 = 2 → op.testBit 6 = false → n < words → Settles (.linkWrite ⟨h, n, cyc⟩) s (fun t =>
        (t.hport h).req = (s.hport h).req ∧ (t.hport h).served = n ∧
        (∀ i, i < n → t.rw (addr + 4 * i) = (pay[i]?).getD 0#32) ∧
        (∀ b, (b < addr ∨ addr + 4 * n ≤ b) → t.rb b = s.rb b) ∧ ∀ r, r ≠ R.smemConf h → t.rd r = s.rd r)) ∧
    (∀ mask val, op % 64 = 3 → pay = [mask, val] → Settles (.linkRmw ⟨h, cyc⟩) s (fun t => Built t h stOk tag [s.rw addr] ∧
        t.rw addr = (s.rw addr &&& ~~~mask) ||| (val &&& mask) ∧
        (∀ b, (b < addr ∨ addr + 4 ≤ b) → t.rb b = s.rb b) ∧ ∀ r, r ≠ R.smemConf h → t.rd r = s.rd r))

/-- LINK_NOP, LINK_COMMIT, LINK_SUBMIT, LINK_SNAP_ARM, LINK_SNAP_TRIGGER, LINK_RESEND (R380, R383 to R385, R390): a NOP replies;
COMMIT and SUBMIT reply OK exactly when Mordant and the Vat accept, SUBMIT with the Vat's code; SNAP arms, or triggers; a
RESEND builds the reply shifted in the frame before, or the RESET reply, and counts one that is DENIED; with no frame waiting
none of them acts.
Model's choices: log entries 64, 101. -/
def Obligations.LinkCommands : Prop :=
  (∀ (h : Fin 4) (op tag words addr cyc : Nat) (pay : List Word) (s : State), FrameWaits s h op tag words addr pay →
    (op % 64 = 0 → Settles (.linkNop h) s (fun t => Built t h stOk tag [] ∧ OnlyRegs [] s t)) ∧
    (op % 64 = 4 → s.unpoweredIn (addr % 2 ^ 12) = false → s.permCommit h (addr % 2 ^ 12) = true →
      Settles (.linkCommit ⟨h, cyc⟩) s (fun t => Built t h stOk tag [] ∧
        (∃ c, t.md.acc = some c ∧ c.src = h ∧ c.seq = addr / 2 ^ 16 % 2 ^ 16) ∧ t.mem = s.mem)) ∧
    (op % 64 = 4 → s.unpoweredIn (addr % 2 ^ 12) = true → s.permCommit h (addr % 2 ^ 12) = true →
      Settles (.linkCommit ⟨h, cyc⟩) s (fun t => Built t h stRefused tag [] ∧ t.md = s.md ∧ t.mem = s.mem)) ∧
    (op % 64 = 5 → Settles (.linkSubmit h) s (fun t =>
      Built t h (if s.dscCheck pay (some h.val) = 0 then stOk else stRefused) tag [] ∧
      (∃ r, (t.hport h).built = some r ∧ r.info % 2 ^ 16 = s.dscCheck pay (some h.val) % 2 ^ 16) ∧
      t.vat.pend = s.vat.pend ++ (if s.dscCheck pay (some h.val) = 0 then [s.itemOf pay] else []) ∧
      OnlyRegs [R.vatRefuseCnt] s t)) ∧
    (op % 64 = 6 → addr = 0 → Settles (.linkSnapArm h) s (fun t => Built t h stOk tag [] ∧
      t.flag F.snapSeqArmed = true ∧ t.get F.snapSeqMissed = 0 ∧ OnlyRegs [R.snapSeq] s t)) ∧
    (op % 64 = 6 → addr = 1 → Settles (.linkSnapTrigger h) s (fun t => Built t h stOk tag [] ∧
      t.regs = (s.fire 0).settle.regs ∧ t.mem = s.mem)) ∧
    (op % 64 = 7 → Settles (.linkResend h) s (fun t => (t.hport h).req = none ∧
      (t.hport h).built = some (((s.hport h).prior).getD (s.resetNow h)) ∧
      ((((s.hport h).prior).getD (s.resetNow h)).status ≠ stDenied → OnlyRegs [] s t) ∧
      ((((s.hport h).prior).getD (s.resetNow h)).status = stDenied →
        t.get (F.hpErrCntDenied h) = min (s.get (F.hpErrCntDenied h) + 1) 0xFF ∧ t.flag (F.hpStatusDenyEvt h) = true ∧
        OnlyRegs [R.hpErrCnt h, R.hpStatus h] s t)))) ∧
  ∀ (h : Fin 4) (n cyc : Nat) (s : State), (s.hport h).req = none →
    exec (.linkNop h) s = .next s ∧ exec (.linkRead ⟨h, n, cyc⟩) s = .next (s.atCyc cyc) ∧
    exec (.linkWrite ⟨h, n, cyc⟩) s = .next (s.atCyc cyc) ∧ exec (.linkRmw ⟨h, cyc⟩) s = .next (s.atCyc cyc) ∧
    exec (.linkCommit ⟨h, cyc⟩) s = .next (s.atCyc cyc) ∧ exec (.linkSubmit h) s = .next s ∧
    exec (.linkSnapArm h) s = .next s ∧ exec (.linkSnapTrigger h) s = .next s ∧ exec (.linkResend h) s = .next s

/-- FRAME_START, FRAME_END, REPLY_READY (R375 to R379, R386 to R388, Tables 13-2 and 13-5): SEL_N falling on a slave chooses
reply, busy pattern or zeros; a frame that passes every check waits to be executed, one that fails builds the error reply of
its first failure and counts it; a frame while one executes is discarded and counts as busy; an empty frame, and one during
which the port was disabled, has no effect but that a reply which it carried is gone; a built reply becomes ready.
Model's choices: log entries 62, 127. -/
def LinkFramesRule : Prop :=
  ∀ (h : Fin 4) (s : State),
    let p := s.hport h
    (p.low = false →
      (s.slave h = true → exec (.frameStart h) s = .next (s.setHp h (fun q => { q with
        low := true, sel := true, mode := if p.ready.isSome then 1 else if p.req.isSome || p.built.isSome then 2 else 0 }))) ∧
      (s.slave h = false → exec (.frameStart h) s = .next (s.setHp h (fun q => { q with
        low := true, sel := false, mode := if p.req.isSome || p.built.isSome then 2 else 0 })))) ∧
    (p.low = true → exec (.frameStart h) s = .next s) ∧
    (∀ (bits : List Byte) (extra cyc : Nat),
      let n := 8 * bits.length + extra
      let x := headOf bits
      (p.low = false → exec (.frameEnd h bits extra cyc) s = .next (s.atCyc cyc)) ∧
      (p.low = true → n = 0 → p.mchg = none → ∃ t, exec (.frameEnd h bits extra cyc) s = .next t ∧
        (t.hport h).low = false ∧ (t.hport h).req = p.req ∧ (t.hport h).built = p.built ∧ (t.hport h).ready = p.ready ∧
        OnlyRegs [] s t) ∧
      (p.low = true → p.sel = true → n ≠ 0 → s.slave h = false → p.mchg = none →
        ∃ t, exec (.frameEnd h bits extra cyc) s = .next t ∧ (t.hport h).low = false ∧ (t.hport h).req = p.req ∧
          (t.hport h).built = p.built ∧ (t.hport h).ready = (if p.mode = 1 then none else p.ready) ∧
          OnlyRegs [R.hpStatus h] s t) ∧
      (p.low = true → s.slave h = true → n ≠ 0 → p.mode = 2 → p.mchg = none →
        ∃ t, exec (.frameEnd h bits extra cyc) s = .next t ∧
        (t.hport h).low = false ∧ (t.hport h).req = p.req ∧ (t.hport h).built = p.built ∧
        t.get (F.hpErrCntBusy h) = min (s.get (F.hpErrCntBusy h) + 1) 0xFF ∧ t.flag (F.hpStatusBusyEvt h) = true ∧
        OnlyRegs [R.hpErrCnt h, R.hpStatus h] s t) ∧
      (p.low = true → s.slave h = true → n ≠ 0 → p.mode ≠ 2 → s.frameCheck h bits n = none →
        ∃ t, exec (.frameEnd h bits extra cyc) s = .next t ∧ (t.hport h).low = false ∧
          (t.hport h).req = some (x.op, x.tag, x.words, x.addr,
            (List.range x.payload).map (fun i => BitVec.ofNat 32 (beNat ((bits.drop (8 + 4 * i)).take 4)))) ∧
          (t.hport h).ready = (if p.mode = 1 then none else p.ready) ∧ OnlyRegs [R.hpStatus h] s t) ∧
      (∀ e, p.low = true → s.slave h = true → n ≠ 0 → p.mode ≠ 2 → s.frameCheck h bits n = some e →
        ∃ t, exec (.frameEnd h bits extra cyc) s = .next t ∧ Built t h e.1 (if n < 16 then 0 else x.tag) [] ∧
          (e.1 = stAborted → t.get (F.hpErrCntAborted h) = min (s.get (F.hpErrCntAborted h) + 1) 0xFF) ∧
          (e.1 = stCrcErr → t.get (F.hpErrCntCrc h) = min (s.get (F.hpErrCntCrc h) + 1) 0xFF) ∧
          (e.1 = stDenied → t.get (F.hpErrCntDenied h) = min (s.get (F.hpErrCntDenied h) + 1) 0xFF) ∧
          OnlyRegs [R.hpStatus h, R.hpErrCnt h] s t) ∧
      (n < 64 → s.frameCheck h bits n = some (stAborted, n)) ∧
      (64 ≤ n → 8 ≤ x.op % 64 → s.frameCheck h bits n = some (stBadOp, 0)) ∧
      (64 ≤ n → x.op = 0 → x.words ≤ 126 → x.addr = 0 → n ≠ 64 + 32 * x.words →
        s.frameCheck h bits n = some (stAborted, min n 4097))) ∧
    (∀ r, p.built = some r → p.mchg = none → ∃ t, exec (.replyReady h) s = .next t ∧
      (t.hport h).ready = some r ∧ (t.hport h).built = none ∧ OnlyRegs [] s t) ∧
    (p.built = none → exec (.replyReady h) s = .next s)

/-- HOST_DOORBELL_WRITE, MASTER_MODE_CHANGE, GO, MASTER_FRAME_START, MASTER_FRAME_DONE, MM_FAULT (R397 to R401, Table 13-8): a
host clears its own doorbell bits and any other master sets them; MASTER changes at once on a port with SEL_N high and no frame in progress and else waits; GO
starts a frame of a legal LEN on a master port that is not busy; the frame starts only with SEL_N high, and done its words
stand in HPn_MRXw; another master seen ends it with MM_FAULT and with the bits received by then.
Model's choices: log entries 63, 65, 66, 128. -/
def MasterModeRule : Prop :=
  ∀ (m : Master) (h : Fin 4) (s : State),
    let p := s.hport h
    let old := BitVec.ofNat 16 (s.get (F.hpHdbellPend h))
    (∀ v : Word,
      (hostOf m = some h.val → ∃ t, exec (.hostDoorbellWrite m h v) s = .next t ∧
        BitVec.ofNat 16 (t.get (F.hpHdbellPend h)) = old &&& ~~~(v.extractLsb' 0 16) ∧ OnlyRegs [R.hpHdbell h] s t) ∧
      (hostOf m ≠ some h.val → ∃ t, exec (.hostDoorbellWrite m h v) s = .next t ∧
        BitVec.ofNat 16 (t.get (F.hpHdbellPend h)) = old ||| v.extractLsb' 0 16 ∧ OnlyRegs [R.hpHdbell h] s t)) ∧
    (∀ on : Bool, m = .host 0 ∨ m = .boot → s.flag (F.hpCfgMaster h) ≠ on →
      (s.flag (F.hpStatusMbusy h) = true → exec (.masterModeChange m h on) s = .next (s.ok.put (F.hpStatusCfgIgn h) 1)) ∧
      (s.flag (F.hpStatusMbusy h) = false → p.low = false → p.req = none → p.built = none →
        ∃ t, exec (.masterModeChange m h on) s = .next t ∧ t.flag (F.hpCfgMaster h) = on ∧
          (t.hport h).ready = (if on then none else some (s.resetNow h)) ∧ OnlyRegs [R.hpCfg h] s t) ∧
      (s.flag (F.hpStatusMbusy h) = false → p.low = true ∨ p.req ≠ none ∨ p.built ≠ none →
        exec (.masterModeChange m h on) s = .next (s.ok.setHp h (fun q => { q with mchg := some on })))) ∧
    (m = .host 0 ∨ m = .boot ∨ (∃ c, m = .core c) ∨ (∃ n, m = .dma n) →
      (s.get (F.hpLenLen h) < 8 ∨ 4096 < s.get (F.hpLenLen h) → exec (.go m h) s = .next (s.ok.put (F.hpStatusCfgErr h) 1)) ∧
      (8 ≤ s.get (F.hpLenLen h) → s.get (F.hpLenLen h) ≤ 4096 →
        (s.flag (F.hpCfgMaster h) = true → s.flag (F.hpStatusMbusy h) = false → ∃ t, exec (.go m h) s = .next t ∧
          t.flag (F.hpStatusMbusy h) = true ∧ (t.hport h).mrun = false ∧ OnlyRegs [R.hpStatus h] s t) ∧
        (s.flag (F.hpCfgMaster h) = false ∨ s.flag (F.hpStatusMbusy h) = true →
          exec (.go m h) s = .next (s.ok.put (F.hpStatusCfgIgn h) 1)))) ∧
    (s.flag (F.hpCfgMaster h) = true → s.flag (F.hpStatusMbusy h) = true → p.mrun = false →
      exec (.masterFrameStart h false) s = .next (s.setHp h (fun q => { q with mrun := true })) ∧
      (s.bootMasters h = false → ∃ t, exec (.masterFrameStart h true) s = .next t ∧ t.flag (F.hpStatusMmFault h) = true ∧
        t.flag (F.hpStatusMbusy h) = false ∧ (t.hport h).off = true ∧ OnlyRegs [R.hpStatus h] s t)) ∧
    (∀ rx : List Word, p.mrun = true → s.flag (F.hpStatusMbusy h) = true → s.get (F.hpLenLen h) ≤ 4096 →
      ∃ t, exec (.masterFrameDone h rx) s = .next t ∧ t.flag (F.hpStatusMbusy h) = false ∧
        t.flag (F.hpStatusMdone h) = true ∧ (t.hport h).mrun = false ∧
        (∀ w, 32 * (w + 1) ≤ s.get (F.hpLenLen h) → t.rd (R.hpMrx h w) = (rx[w]?).getD 0#32) ∧
        (∀ w, s.get (F.hpLenLen h) ≤ 32 * w → w < 128 → t.rd (R.hpMrx h w) = s.rd (R.hpMrx h w)) ∧ t.mem = s.mem) ∧
    (∀ rx : List Word, p.mrun = false → exec (.masterFrameDone h rx) s = .next s) ∧
    (∀ (n : Nat) (rx : List Word), s.bootMasters h = false →
      (s.flag (F.hpCfgMaster h) = true → ∃ t, exec (.mmFault ⟨h, n, rx⟩) s = .next t ∧ t.flag (F.hpStatusMmFault h) = true ∧
        t.flag (F.hpStatusMbusy h) = false ∧ (t.hport h).mrun = false ∧ (t.hport h).off = true ∧ t.mem = s.mem ∧
        (p.mrun = false → OnlyRegs [R.hpStatus h] s t) ∧
        (p.mrun = true → s.get (F.hpLenLen h) ≤ 4096 →
          (∀ w, 32 * (w + 1) ≤ min n (s.get (F.hpLenLen h)) → t.rd (R.hpMrx h w) = (rx[w]?).getD 0#32) ∧
          ∀ w, min n (s.get (F.hpLenLen h)) ≤ 32 * w → w < 128 → t.rd (R.hpMrx h w) = s.rd (R.hpMrx h w))) ∧
      (s.flag (F.hpCfgMaster h) = false → exec (.mmFault ⟨h, n, rx⟩) s = .next s)) ∧
    ∀ (n : Nat) (rx : List Word), s.bootMasters h = true →
      let u := (s.put (F.hpStatusMmFault h) 1).setHp h (fun q => { q with off := true })
      exec (.mmFault ⟨h, n, rx⟩) s = .next (if s.bootReading then u.readFail else u)

/-- Frames of the host link, and master mode. -/
def Obligations.LinkPort : Prop := LinkFramesRule ∧ MasterModeRule

/-! ## Vehicle interface (R404 to R421) -/

/-- CAN_ENABLE, CAN_INTEGRATION_DONE, CAN_FRAME_RECEIVED, SIGNAL_TIMEOUT (R405 to R413): an enable with valid codes starts
INTEGRATE with every enabled signal STALE at its fallback, with invalid ones sets CFG_ERR; a frame with an error counts it,
one that no filter takes counts as rejected, and one that a filter takes updates its signals' values, stamps and flags; a
timeout falls back, unless a frame of its cycle has updated the signal; a listener that does not run takes nothing.
Model's choices: log entries 68, 136. -/
def CanListenerRule : Prop :=
  ∀ s : State,
    (∀ (m : Master) (v : Word), m = .host 0 ∨ m = .boot → s.flag F.canCtrlEn = false → v.getLsbD 31 = true →
      (canCodesOk v = false → exec (.canEnable m v) s =
        .next ((s.ok.wr R.canCtrl (v &&& 0x7C00FFFF#32)).put F.canStatusCfgErr 1)) ∧
      (canCodesOk v = true → ∃ t, exec (.canEnable m v) s = .next t ∧ t.flag F.canCtrlEn = true ∧
        t.get F.canStatusState = 1 ∧ ∀ i, i < 48 → t.flag (F.canSigstStale i) = s.sigEn i ∧
          t.rd (R.canSigval i) = if s.sigEn i then s.sigW i 4 else s.rd (R.canSigval i))) ∧
    (s.get F.canStatusState = 1 → exec .canIntegrationDone s = .next (s.put F.canStatusState 2)) ∧
    (s.get F.canStatusState ≠ 1 → exec .canIntegrationDone s = .next s) ∧
    (∀ (x : CanFrame) (cyc : Nat),
      (s.get F.canStatusState ≠ 2 → exec (.canFrameReceived x cyc) s = .next (s.atCyc cyc)) ∧
      (s.get F.canStatusState = 2 → x.crcErr = true → ∃ t, exec (.canFrameReceived x cyc) s = .next t ∧
        t.get F.canErrCntCrc = min (s.get F.canErrCntCrc + 1) 0xFF ∧ OnlyRegs [R.canErrCnt, R.canStatus] s t) ∧
      (s.get F.canStatusState = 2 → x.crcErr = false → x.stuffErr = false → s.canFormErr x = false → x.rateErr = false →
        (x.rtr = true → exec (.canFrameReceived x cyc) s = .next (s.atCyc cyc)) ∧
        (x.rtr = false → (∀ f, f < 64 → s.canMatch f x = false) → ∃ t, exec (.canFrameReceived x cyc) s = .next t ∧
          t.get F.canRxCntRejected = min (s.get F.canRxCntRejected + 1) 0xFFFF ∧ OnlyRegs [R.canRxCnt] s t) ∧
        (x.rtr = false → ∀ f, f < 64 → s.canMatch f x = true → (∀ k, k < f → s.canMatch k x = false) →
          ∃ t, exec (.canFrameReceived x cyc) s = .next t ∧
            t.get F.canRxCntAccepted = min (s.get F.canRxCntAccepted + 1) 0xFFFF ∧ ∀ i, i < 48 →
            (∀ v, s.sigEn i = true → s.sigF i 0 10 6 = f → s.sigRaw i x.data = some v → t.rd (R.canSigval i) = v ∧
              t.rd (R.canSigts i) = BitVec.ofNat 32 (s.tstamp % 2 ^ 32) ∧ t.flag (F.canSigstStale i) = false ∧
              t.flag (F.canSigstHalted i) = !s.runs) ∧
            (s.sigEn i = true → s.sigF i 0 10 6 = f → s.sigRaw i x.data = none → t.flag F.canStatusShort = true) ∧
            (s.sigEn i = false ∨ s.sigF i 0 10 6 ≠ f ∨ s.sigRaw i x.data = none →
              t.rd (R.canSigval i) = s.rd (R.canSigval i))))) ∧
    ∀ (g : Fin 48) (cyc : Nat),
      (s.flag F.canCtrlEn = true → s.sigEn g = true → s.sigF g 3 0 16 ≠ 0 → s.flag (F.canSigstStale g) = false →
        (s.atCyc cyc).lastWriter (sigRxKey g) 0 = true → ∃ t, exec (.signalTimeout g cyc) s = .next t ∧ t.flag (F.canSigstStale g) = true ∧
          t.rd (R.canSigval g) = s.sigW g 4 ∧
          (if g.val < 32 then (t.rd R.canToEvtLo).getLsbD g = true else (t.rd R.canToEvtHi).getLsbD (g.val - 32) = true)) ∧
      (s.flag (F.canSigstStale g) = true ∨ (s.atCyc cyc).lastWriter (sigRxKey g) 0 = false →
        exec (.signalTimeout g cyc) s = .next (s.atCyc cyc))

/-- EVENT_PIN_CHANGE, DEBOUNCE_EXPIRY, CHATTER_WINDOW, STUCK_TIMEOUT (R417, R418): without a debounce time the raw level passes
at once, with one when it expires; more than CHAT_K changes within any CHAT_W × 100 ms freeze the logical level at once, and a stuck
input is recorded and released; a change to active writes the override word and counts where the input says so.
Model's choices: log entries 69, 136. -/
def EventInputsRule : Prop :=
  ∀ (i : Fin 8) (cyc : Nat) (s : State),
    let e := s.evt i
    let en := s.flag (F.evtCfgEn i)
    let k := s.get (F.evtCfgChatK i)
    let recent := fun (l : List Nat) => l.filter (fun t => decide (s.sys.ms < t + 100 * max 1 (s.get (F.evtCfgChatW i))))
    (∀ level : Bool, e.pin = level → exec (.eventPinChange ⟨i, cyc⟩ level) s = .next (s.atCyc cyc)) ∧
    (∀ level : Bool, e.pin ≠ level →
      let raw := xor level (s.flag (F.evtCfgInv i))
      let new := (s.sys.ms :: e.chg).take (k + 1)
      let calm := k = 0 ∨ (recent new).length ≤ k
      (calm → s.get (F.evtCfgDeb i) = 0 → ∃ t, exec (.eventPinChange ⟨i, cyc⟩ level) s = .next t ∧
        t.evt i = { e with pin := level, chg := new, deb := raw, rel := e.rel && raw } ∧
        (t.get F.evtLevelRaw).testBit i = raw ∧
        (t.get F.evtLevelLogical).testBit i = (en && !(e.rel && raw) && if e.frz then s.flag (F.evtCfgFrzLvl i) else raw)) ∧
      (calm → s.get (F.evtCfgDeb i) = 0 → raw = true → en = true → e.rel = false → e.frz = false →
        (s.get F.evtLevelLogical).testBit i = false → s.powered 1 = true → s.flag (F.evtDestOvEn i) = true →
        s.flag (F.evtActLwEn i) = false → s.flag (F.evtActCntEn i) = true → s.flag (F.evtActSnap i) = false →
        s.flag (F.evtActWake i) = false →
        (s.atCyc cyc).lastWriter (R.ovrWord (s.get (F.evtDestOvr i))) (writerPlace .events + i) = true →
        ∃ t, exec (.eventPinChange ⟨i, cyc⟩ level) s = .next t ∧
          t.rd (R.ovrWord (s.get (F.evtDestOvr i))) =
            BitVec.ofNat 32 (s.get (F.evtDestOnMode i) * 2 ^ 30 + s.get (F.evtDestOnGain i)) ∧
          t.get (F.vehCntCount (s.get (F.evtActCnt i))) =
            min (s.get (F.vehCntCount (s.get (F.evtActCnt i))) + 1) 0xFFFFFFFF ∧ t.mem = s.mem) ∧
      (calm → s.get (F.evtCfgDeb i) ≠ 0 → ∃ t, exec (.eventPinChange ⟨i, cyc⟩ level) s = .next t ∧
        t.evt i = { e with pin := level, chg := new } ∧ (t.get F.evtLevelRaw).testBit i = raw) ∧
      (k ≠ 0 → k < (recent new).length → ∃ t, exec (.eventPinChange ⟨i, cyc⟩ level) s = .next t ∧
        t.evt i = { e with
          pin := level
          chg := new
          frz := true
          deb := if s.get (F.evtCfgDeb i) = 0 then raw else e.deb
          rel := if s.get (F.evtCfgDeb i) = 0 then e.rel && raw else e.rel } ∧
        (t.get F.evtStatusChatter).testBit i = true ∧ (t.get F.evtLevelLogical).testBit i =
          (en && !(t.evt i).rel && s.flag (F.evtCfgFrzLvl i)))) ∧
    (e.deb = s.evtRaw i → exec (.debounceExpiry i cyc) s = .next s) ∧
    (e.deb ≠ s.evtRaw i → ∃ t, exec (.debounceExpiry i cyc) s = .next t ∧ (t.evt i).deb = s.evtRaw i ∧
      (t.evt i).rel = (e.rel && s.evtRaw i) ∧ (t.get F.evtLevelLogical).testBit i =
        (en && !(e.rel && s.evtRaw i) && if e.frz then s.flag (F.evtCfgFrzLvl i) else s.evtRaw i)) ∧
    (∃ t, exec (.chatterWindow i cyc) s = .next t ∧
      ((t.evt i).frz = true ↔ k ≠ 0 ∧ k < (recent e.chg).length) ∧ (t.evt i).chg = e.chg ∧
      (k ≠ 0 → k < (recent e.chg).length → (t.get F.evtStatusChatter).testBit i = true ∧
        (t.get F.evtLevelLogical).testBit i = (en && !e.rel && s.flag (F.evtCfgFrzLvl i)))) ∧
    (s.get (F.evtCfgMaxact i) ≠ 0 → s.evtLogical i = true → ∃ t, exec (.stuckTimeout i cyc) s = .next t ∧
      (t.get F.evtStatusStuck).testBit i = true ∧
      (s.flag (F.evtCfgRel i) = true → (t.evt i).rel = true ∧ (t.get F.evtLevelLogical).testBit i = false)) ∧
    (s.evtLogical i = false → exec (.stuckTimeout i cyc) s = .next (s.atCyc cyc))

/-- The CAN listener and the event inputs. -/
def Obligations.VehicleInputs : Prop := CanListenerRule ∧ EventInputsRule

/-- TEST, TEST_STOP, RELOAD, CHIME_TONE_PERIOD, CHIME_STEP_END, CHIME_OVERCURRENT (R419 to R421, R477, Table 14-4): a test
sounds its pattern from step 1 when nothing else asks; RELOAD copies the valid patterns and the built-in one for the others,
while sounding at the end of the tone period; with no request left the chime falls silent there; steps follow in order and
wrap; an overcurrent mutes until the next period.
Model's choices: log entry 70. -/
def Obligations.ChimeCommands : Prop :=
  ∀ (m : Master) (q : Fin 4) (s : State), m = .host 0 ∨ m = .boot →
    (s.flag F.chimeCfgEn = true → s.flag F.chimeStatusSounding = false → s.st ≠ stSafe → s.chime.pd1 = false →
      s.chime.xtal = false → s.mig.chimeReq = 0 → ∃ t, exec (.test m q) s = .next t ∧ t.flag F.chimeStatusSounding = true ∧
        t.get F.chimeStatusSrc = 5 ∧ t.get F.chimeStatusPat = q ∧ t.chime.step = 1 ∧ t.flag F.chimeStatusPlayed = true ∧
        OnlyRegs [R.chimeStatus] s t) ∧
    (s.flag F.chimeCfgEn = false → s.sm.ue = [] → ∃ t, exec (.test m q) s = .next t ∧ t.flag F.chimeStatusSounding = false ∧
      t.chime.test = some q.val ∧ OnlyRegs [R.chimeStatus] s t) ∧
    exec (.testStop m) s = .next { s.ok with chime := { s.chime with test := none } } ∧
    (s.flag F.chimeStatusSounding = true → exec (.reload m) s = .next { s.ok with chime := { s.chime with reload := true } }) ∧
    (s.flag F.chimeStatusSounding = false → s.sm.ue = [] → ∃ t, exec (.reload m) s = .next t ∧
      (∀ k, k < 4 → ng t.chime.pat k builtIn = (s.chimePat k).1.getD builtIn ∧
        (t.get F.chimeStatusValid).testBit k = (s.chimePat k).1.isSome) ∧ OnlyRegs [R.chimeStatus] s t) ∧
    (s.flag F.chimeStatusSounding = true → exec .chimeOvercurrent s = .next { s with chime := { s.chime with oc := true } }) ∧
    (s.flag F.chimeStatusSounding = false → exec .chimeOvercurrent s = .next s ∧ exec .chimeTonePeriod s = .next s ∧
      exec .chimeStepEnd s = .next s) ∧
    (s.flag F.chimeStatusSounding = true → s.chime.reload = false →
      (s.chimeReqs = [] → ∃ t, exec .chimeTonePeriod s = .next t ∧ t.flag F.chimeStatusSounding = false ∧
        t.get F.chimeStatusSrc = 0 ∧ OnlyRegs [R.chimeStatus] s t) ∧
      (∀ l, s.chimeReqs = s.chimeNow :: l →
        s.chime.step ≤ s.chimeSteps.length →
        exec .chimeTonePeriod s = .next { s with chime := { s.chime with oc := false } } ∧
        exec .chimeStepEnd s = .next { s with chime := { s.chime with
          oc := false, step := if s.chime.step < s.chimeSteps.length then s.chime.step + 1 else 1 } }))

/-! ## Boot (R424 to R442, R456) -/

/-- HEADER_READ_DONE, BOOT_RETRY_BACKOFF, STAGE_READ_START (R426, R427, R429, R432, R437): a valid header is in use and its
stage 0 is read; a short one or one with a wrong CRC is a failed attempt, retried after its back-off; without the magic
number the backup image is read, and without that there is no image; a warm-start record that is marked valid is read first,
and taken or passed over; a stage with bytes whose staging area lies in shared
memory is read after stage 0 has ended.
Model's choices: log entries 76, 77. -/
def BootReadsRule : Prop :=
  ∀ s : State,
    (∀ h : List Byte, s.bootReads = true → s.boot.ph = 1 ∨ s.boot.ph = 2 →
      s.boot.noWarm = true ∨ (s.recordFirst = false ∧ s.sm.ue = []) → s.boot.verify = false →
      (h.length ≠ 64 ∨ (magicOk h = true ∧ hcrcOk h = false) → s.boot.tries < 7 → Settles (.headerReadDone h) s (fun t =>
        t.get F.bootStatusRetries = min (s.get F.bootStatusRetries + 1) 15 ∧ t.boot.ph = 0 ∧ t.boot.back = s.boot.ph ∧
        t.boot.tries = s.boot.tries + 1 ∧ OnlyRegs [R.bootStatus] s t)) ∧
      (h.length = 64 → magicOk h = false → s.boot.ph = 1 → Settles (.headerReadDone h) s (fun t =>
        t = { s.flashEnd with boot := { s.boot with ph := 2 } })) ∧
      (h.length = 64 → magicOk h = false → s.boot.ph = 2 → Settles (.headerReadDone h) s (fun t =>
        t.flag F.bootStatusNoimg = true ∧ t.boot.ph = 0 ∧ t.boot.ended = true)) ∧
      (hdrValid h = true → Settles (.headerReadDone h) s (fun t => t.boot.hdr = h ∧ t.boot.ph = 3 ∧ t.boot.stage = 0 ∧
        t.boot.warm = false ∧ t.get F.sysStateWarm = 0 ∧ t.get F.bootStatusSrc = 1 ∧
        t.rd R.pwrReq = s.rd R.pwrReq ||| BitVec.ofNat 32 (leAt h 0x1E 1 / 4 * 4) ∧ t.mem = s.mem))) ∧
    (s.bootReads = true → s.recordFirst = true → ∀ h,
      (∀ r, s.warmRecord.1 = some r → Settles (.headerReadDone h) s (fun t => t.boot.hdr = r.1.take 64 ∧ t.boot.warm = true ∧
        t.boot.ph = 3 ∧ t.get F.sysStateWarm = 1 ∧ t.get F.bootStatusSrc = 2)) ∧
      (s.warmRecord.1 = none → Settles (.headerReadDone h) s (fun t => t.boot.noWarm = true ∧ t.boot.ph = 1 ∧ t.boot.step = 6 ∧
        t.mem = s.mem ∧ t.hp = s.hp))) ∧
    (∀ h, s.bootReads = false → exec (.headerReadDone h) s = .next s.settle) ∧
    (s.boot.back = 0 → exec .bootRetryBackoff s = .next s) ∧
    (s.boot.back ≠ 0 → exec .bootRetryBackoff s = .next { s with boot := { s.boot with ph := s.boot.back, back := 0 } }) ∧
    ∀ k : Fin 4, k ≠ 0 →
      (s.boot.step = 11 → s.st ≠ stSafe → s.boot.ended = false → s.boot.wait = false → s.boot.verify = false →
        s.boot.wsTodo = false → s.boot.ph = 0 → s.boot.back = 0 → s.nextStage = k →
        s.hdrW 0x24 + (s.stageEnd k - s.stageEnd (k.val - 1)) ≤ 0xC00000 →
        exec (.stageReadStart k) s = .next { s with boot := { s.boot with stage := k, tries := 0, ph := 3 } }) ∧
      (s.nextStage ≠ k → exec (.stageReadStart k) s = .next s)

/-- BOOT_READ_DONE, WARM_START_WRITE, WARM_VERIFY_DONE (R427, R431 to R440): with the staging area in groups that are ON, a
stage of the wrong length is a failed attempt; a stage 0 without sections that passes its authentication stands in its staging
area and the boot goes on to step 8, 9 or 10, one that fails it is no image; a later stage requests its commit; the record is
written only when its policy enables it, its word writes in the order of R438 through the queue of R353; a verification answers what its reads found: equal bytes, a valid image that differs,
which asks for a reload, or no usable image. The comparison is made when its bytes have been read (log entry 81).
Model's choices: log entries 76 to 79, 134. -/
def BootStagesRule : Prop :=
  ∀ s : State,
    (∀ (b : List Byte) (cyc : Nat), s.bootReads = true → s.boot.ph = 3 → s.boot.warm = false → s.boot.verify = false →
      s.boot.stage = 0 → s.boot.hdr.length = 64 → hdrStart s.boot.hdr = 0x40 → s.stageEnd 0 ≤ 262144 →
      s.stagingIn 0 (s.stageEnd 0) [1, 2, 3] = false →
      (b.length ≠ s.stageEnd 0 - 64 → s.boot.tries < 7 → Settles (.bootReadDone ⟨b, cyc⟩) s (fun t =>
        t.get F.bootStatusRetries = min (s.get F.bootStatusRetries + 1) 15 ∧ t.boot.ph = 0 ∧ t.boot.back = 3 ∧
        t.boot.tries = s.boot.tries + 1 ∧ (∀ a, a ≠ R.bootStatus → a ≠ R.smemConf 6 → t.rd a = s.rd a) ∧
        ∀ x, (x < 0xBC0000 ∨ 0xC00000 ≤ x) → t.rb x = s.rb x)) ∧
      (64 ≤ s.stageEnd 0 → b.length = s.stageEnd 0 - 64 → stageSects s.boot.hdr 0 0 b = some [] →
        (∀ a, s.authOf s.boot.hdr (b.take 128) 0 b false = a → a ≠ 2 → Settles (.bootReadDone ⟨b, cyc⟩) s (fun t =>
            t.get F.bootStatusAuth = a % 4 ∧
            t.get F.bootStatusSrc = 1 ∧ t.boot.step = (if s.pdWaits = true then 8 else if s.pllLocked 1 = true then 10 else 9) ∧
            t.boot.wsTodo = true ∧
            (∀ i (h : i < (s.boot.hdr ++ b).length), t.rb (0xBC0000 + i) = (s.boot.hdr ++ b)[i]) ∧
            ∀ x, (x < 0xBC0000 ∨ 0xC00000 ≤ x) → t.rb x = s.rb x)) ∧
        (s.authOf s.boot.hdr (b.take 128) 0 b false = 2 → Settles (.bootReadDone ⟨b, cyc⟩) s (fun t =>
          t.flag F.bootStatusNoimg = true ∧ t.get F.bootStatusAuth = 2 ∧ t.boot.ended = true)))) ∧
    (∀ (b : List Byte) (k cyc : Nat), s.bootReads = true → s.boot.ph = 3 → s.boot.step = 11 →
      s.boot.verify = false → s.boot.stage = k → 1 ≤ k → k < 4 → b.length = s.stageEnd k - s.stageFrom k →
      s.stagingIn k b.length [1, 2, 3] = false →
      stageSects s.boot.hdr k s.boot.sects b = some [] → s.boot.pol = [] →
      s.authOf s.boot.hdr s.boot.tags k b false ≠ 2 → Settles (.bootReadDone ⟨b, cyc⟩) s (fun t => t.boot.wait = true ∧
        t.boot.ph = 0 ∧ ∃ c, t.md.acc = some c ∧ c.src = 4 ∧ c.seq = k)) ∧
    (∀ (b : List Byte) (k cyc : Nat), s.bootReads = true → s.boot.ph = 3 → s.boot.stage = k → s.boot.verify = false →
      (s.stagingIn k (s.staging k).2 [3] = true → exec (.bootReadDone ⟨b, cyc⟩) s = .next ((s.atCyc cyc).setBoot (fun x =>
        { x with memOld := x.memOld ||| s.stagingMask k (s.staging k).2 })).settle) ∧
      (s.stagingIn k (s.staging k).2 [3] = false → s.stagingRefused k (s.staging k).2 = true → s.boot.tries < 7 →
        Settles (.bootReadDone ⟨b, cyc⟩) s (fun t =>
          t.get F.bootStatusRetries = min (s.get F.bootStatusRetries + 1) 15 ∧ t.flag F.smemErrRet = true ∧ t.boot.back = 3 ∧
          t.boot.tries = s.boot.tries + 1 ∧ OnlyRegs [R.bootStatus, R.smemErr] s t))) ∧
    (s.boot.wsTodo = true → s.boot.step = 11 → s.boot.wsGo = 0 → s.boot.wsEn = true → s.sm.wq = [] → s.sm.ue = [] →
      s.stagingIn 0 (s.stageEnd 0) [1, 2, 3] = false →
      ∃ t, exec .warmStartWrite s = .next t ∧ t.boot.wsGo = 1 ∧ t.mem = s.mem ∧
        t.sm.wq.map (fun e => (e.addr, e.data)) ++ t.boot.wsRest = recordWords (s.rbs 0x00BC0000 (s.stageEnd 0)) ∧
        t.sm.wq.length = min 8 ((s.stageEnd 0 + 7) / 8 + 5) ∧ (∀ e ∈ t.sm.wq, e.own = some .boot) ∧
        OnlyRegs [R.smemConf 6, R.mramcStatus] s t) ∧
    (∀ e l, s.boot.wsGo = 1 → s.sm.wq = e :: l → e.own = some .boot →
      (s.boot.wsRest ≠ [] → l.length = 7 → ∃ t p r, exec .mramWordWriteDone s = .next t ∧ s.boot.wsRest = p :: r ∧
        t.sm.wq = l ++ [⟨p.1, p.2, some .boot⟩] ∧ t.boot.wsRest = r) ∧
      (s.boot.wsRest = [] → l = [] → ∃ t, exec .mramWordWriteDone s = .next t ∧ t.flag F.bootStatusWsWritten = true ∧
        t.boot.wsTodo = false ∧ t.boot.wsGo = 0 ∧ (∀ i (h : i < e.data.length), t.rb (e.addr + i) = e.data[i]))) ∧
    (s.boot.wsTodo = false ∨ s.boot.wsGo ≠ 0 → exec .warmStartWrite s = .next s) ∧
    ∀ cyc : Nat,
    (s.boot.verify = true →
      (s.boot.cmp = 1 → ∃ t, exec (.warmVerifyDone cyc) s = .next t ∧ t.flag F.bootStatusWsVerified = true ∧ t.boot.verify = false ∧
        OnlyRegs [R.bootStatus] s t) ∧
      (s.boot.cmp = 2 → ∃ t, exec (.warmVerifyDone cyc) s = .next t ∧ t.flag F.bootStatusWsMismatch = true ∧ t.boot.verify = false ∧
        if s.st = stDrain ∨ s.st = stHalt then t.boot.step = 6 ∧ t.boot.ph = 1 ∧ t.boot.noWarm = true
        else t.sys.dueReload = true) ∧
      (3 ≤ s.boot.cmp → ∃ t, exec (.warmVerifyDone cyc) s = .next t ∧ t.flag F.bootStatusFlashErr = true ∧ t.boot.verify = false ∧
        t.boot.ended = true ∧ OnlyRegs [R.bootStatus] s t)) ∧
    (s.boot.verify = false ∨ s.boot.cmp = 0 → exec (.warmVerifyDone cyc) s = .next (s.atCyc cyc))

/-- The boot: its reads and its stages. -/
def Obligations.BootAppliesImage : Prop := BootReadsRule ∧ BootStagesRule

/-! ## Power, reset, thermal policy, life cycle, snapshot (R443 to R467) -/

/-- POWER_REQUEST, POWER_DOMAIN_UP, POWER_DOMAIN_DOWN (R43, R55, R242, R443, R444, Table 15-15): with PD1 on, a request moves each
domain by its state: ON without its request goes down, OFF or RET with it up, and one that goes down stays ON only while the
handshake holds it; a domain that is up is ON with its engines clear or its cores idle and empty; a domain that the handshake releases reaches the state that its request asks, and the
memories of its engines read zero unless it keeps them in retention; boot step 8 ends with the last domain of PDMASK that comes up.
Model's choices: log entries 72, 73, 109, 116, 132. -/
def PowerDomainsRule : Prop :=
  ∀ (m : Master) (s : State), m = .host 0 ∨ m = .boot → s.pwr 1 = 3 →
    (∀ v : Word, s.safeHeld = false → ∃ t, exec (.powerRequest m v) s = .next t ∧ t.rd R.pwrReq = v &&& 0xCFC#32 ∧
      (∀ d, 2 ≤ d → d < 8 → t.pwr d =
        (let on := v.getLsbD d && !s.parked d
         match s.pwr d with
         | 3 => if on then 3 else 4
         | 4 => if on && !s.released d then 3 else 4
         | 5 => if s.parked d then 5 else if v.getLsbD d then 2 else 0
         | 2 => 2
         | x => if on then 2 else x)) ∧
      OnlyRegs ([R.pwrReq, R.pwrStat, R.pwrEvt] ++ (List.range 16).map R.igStatus) s t) ∧
    (∀ d : Fin 8, 2 ≤ d.val → s.pwr d = 2 → (s.rd R.pwrReq).getLsbD d = true → s.parked d = false → s.boot.ph ≠ 4 →
      s.boot.step ≠ 8 → ∃ t, exec (.powerDomainUp d) s = .next t ∧ t.pwr d = 3 ∧
        (∀ e, e < 8 → e / 4 = d.val - 2 → (t.eng e).d = Vector.replicate 32 0#32 ∧ (t.eng e).acc = Vector.replicate 4 0#72 ∧
          (t.eng e).active = false ∧ (∀ p, p < 262144 → t.dlyRd e p = 0#32) ∧ t.flag (F.teStatusClrBusy e) = false ∧
          (s.boot.fromRet.testBit d = false → ∀ o, o < 0x1000 →
            t.rd (0x08010000 + 0x1000 * e + o) = regReset (0x08010000 + 0x1000 * e + o)) ∧
          (s.boot.fromRet.testBit d = true → ∀ o, o < 0x1000 → 0x08010000 + 0x1000 * e + o ≠ R.teStatus e →
            t.rd (0x08010000 + 0x1000 * e + o) = s.rd (0x08010000 + 0x1000 * e + o))) ∧
        ∀ c, c < 16 → c / 4 + 4 = d.val → t.igState c = 1 ∧ (∀ a, lmBase c ≤ a → a < lmBase c + 0x40000 → t.rb a = 0#8) ∧
          (t.core c).ic = [] ∧ (t.core c).exp = (s.core c).exp ∧ (t.core c).pc = (s.core c).pc ∧
          (t.core c).cyc = (s.core c).cyc) ∧
    (∀ d : Fin 8, 2 ≤ d.val → s.pwr d = 2 → (s.rd R.pwrReq).getLsbD d = true → s.parked d = false → s.boot.step = 8 →
      s.boot.ph ≠ 4 → s.pllLocked 1 = false → (∀ k, 2 ≤ k → k < 8 → k ≠ d.val → ((s.boot.hdr[0x1E]?).getD 0#8).getLsbD k = true →
        (s.rd R.pwrReq).getLsbD k = true → s.parked k = false → s.pwr k = 3) →
      ∃ t, exec (.powerDomainUp d) s = .next t ∧ t.pwr d = 3 ∧ t.boot.step = 9) ∧
    (∀ d : Fin 8, s.pwr d ≠ 2 → d.val ≠ 1 → s.boot.ph ≠ 4 → s.boot.step ≠ 8 → exec (.powerDomainUp d) s = .next s) ∧
    (∀ d : Fin 8, 2 ≤ d.val → s.pwr d = 4 → s.released d = true → s.parked d = false → s.boot.ph ≠ 4 → s.boot.step ≠ 8 →
      ∃ t, exec (.powerDomainDown d) s = .next t ∧
        t.pwr d = (if (s.rd R.pwrReq).getLsbD d then (if s.safeHeld then 0 else 2)
          else if d.val < 4 ∧ (s.rd R.pwrReq).getLsbD (8 + d.val) = true then 1 else 0) ∧
        (∀ e, e < 8 → e / 4 = d.val - 2 → t.pwr d ≠ 1 → ∀ a, pmBase e ≤ a → a < pmBase e + 0x20000 → t.rb a = 0#8) ∧
        ∀ c, c < 16 → c / 4 + 4 = d.val → t.igState c = if t.pwr d = 2 then 5 else 0) ∧
    (∀ d : Fin 8, d = 2 ∨ d = 3 → s.pwr d = 1 → (s.rd R.pwrReq).getLsbD d = false → (s.rd R.pwrReq).getLsbD (8 + d.val) = false →
      s.boot.ph ≠ 4 → s.boot.step ≠ 8 → ∃ t, exec (.powerDomainDown d) s = .next t ∧ t.pwr d = 0 ∧
        ∀ e, e < 8 → e / 4 = d.val - 2 → ∀ a, pmBase e ≤ a → a < pmBase e + 0x20000 → t.rb a = 0#8) ∧
    ∀ d : Fin 8, 2 ≤ d.val → s.pwr d ≠ 4 → s.pwr d ≠ 1 → s.boot.ph ≠ 4 → s.boot.step ≠ 8 → exec (.powerDomainDown d) s = .next s

/-- PD1_FAULT, PD1_FAULT_RETRY, SLEEP_RETAIN, SLEEP_AON_ONLY, SLEEP_ENTRY and PD1's own power-down (R445, R446): a fault of a
running PD1 ends the epoch, cuts PD1 to PD7, is recorded and asks for the chime, and the retry powers PD1 up; a sleep
request waits for a common boundary after the boot's stages, where every engine stops and the domains go down; PD1 follows
when the others have, for AON_ONLY from retention too.
Model's choices: log entry 71. -/
def FaultsAndSleepRule : Prop :=
  ∀ (m : Master) (s : State), m = .host 0 ∨ m = .boot →
    (s.pwr 1 = 3 → 5 ≤ s.boot.step → s.sm.brown = false → ∃ t, exec (.pd1Fault false) s = .next t ∧
      (∀ d, 1 ≤ d → d < 8 → t.pwr d = 0) ∧ t.st = stBoot ∧ t.boot.step = 4 ∧ t.boot.fault = true ∧
      t.flag F.pwrEvtPd1Fault = true ∧ t.chime.pd1 = true ∧ t.sys.engClk = false) ∧
    (s.sm.brown = true → exec (.pd1Fault false) s = .next s ∧ exec (.pd1Fault true) s = .next s) ∧
    (s.boot.fault = true → exec .pd1FaultRetry s =
      .next (({ s with boot := { s.boot with fault := false } } : State).put (F.pwrStatState 1) 2)) ∧
    (s.boot.fault = false → exec .pd1FaultRetry s = .next s) ∧
    exec (.sleepRetain m) s = .next { s.ok with boot := { s.boot with slp := 1 } } ∧
    exec (.sleepAonOnly m) s = .next { s.ok with boot := { s.boot with slp := 2 } } ∧
    (s.st = stRun → s.atCommon = true → s.boot.slp ≠ 0 → s.stagesOver = true → ∃ t, exec .sleepEntry s = .next t ∧
      t.st = stDrain ∧ t.sys.clearing = false ∧ t.pwr 1 = 4 ∧ t.boot.step = 4 ∧ (∀ e, e < 8 → t.teState e = teStopped) ∧
      ∀ d, 2 ≤ d → d < 8 → t.pwr d = if s.pwr d = 3 ∨ s.pwr d = 4 then 4 else if s.pwr d = 5 then 0 else s.pwr d) ∧
    (s.boot.slp = 0 ∨ s.atCommon = false → exec .sleepEntry s = .next s) ∧
    (s.pwr 1 = 4 → (∀ d, 2 ≤ d → d < 8 → s.pwr d = 0 ∨ (s.pwr d = 1 ∧ s.boot.slp = 1)) → ∃ t, exec (.powerDomainDown 1) s = .next t ∧
      t.pwr 1 = (if s.boot.slp = 1 then 1 else 0) ∧ t.boot.asleep = true ∧ t.sys.engClk = false) ∧
    (s.pwr 1 ≠ 4 → exec (.powerDomainDown 1) s = .next s)

/-- Power domains, the fault log, sleep and wake. -/
def Obligations.PowerFaultsSleep : Prop := PowerDomainsRule ∧ FaultsAndSleepRule

/-- VIN_VALID, VIN_BROWN_OUT, RESET_PIN, POWER_ON_RESET (R354, R424, R464, R467): reset loses everything but the MRAM store and
the OTP, with the word write in progress done and those behind it lost; while it is held nothing but VIN and the pin counts; its end, with VIN valid and the pin released, leaves every
register but FLOG_SEQ at its reset value.
Model's choices: log entry 75. -/
def Obligations.SupplyAndReset : Prop :=
  ∀ s : State,
    (s.boot.step = 0 → ∃ t, exec .vinValid s = .next t ∧ t.boot.vin = true ∧ t.sm.brown = false ∧ OnlyRegs [] s t) ∧
    (s.boot.step ≠ 0 → exec .vinValid s = .next s) ∧
    (∀ pin : Bool, pin = true → ∃ t, exec (.resetPin pin) s = .next t ∧ t.boot.step = 0 ∧
      t.boot.pin = true ∧ t.boot.vin = s.boot.vin ∧ (∀ a, t.rb a = if isMram a then s.mramDone.rb a else 0#8) ∧ t.sm.wq = [] ∧ t.sm.otp = s.sm.otp ∧
      t.sm.page = s.sm.page ∧ t.pwr 1 = 0 ∧ t.pending = s.pending) ∧
    (∃ t, exec .vinBrownOut s = .next t ∧ t.boot.step = 0 ∧ t.boot.vin = false ∧ t.sm.brown = true ∧
      (∀ a, t.rb a = if isMram a then s.mramDone.rb a else 0#8) ∧ t.sm.wq = [] ∧ t.sm.otp = s.sm.otp ∧ t.pwr 1 = 0 ∧ t.pending = s.pending) ∧
    exec (.resetPin false) s = .next { s with boot := { s.boot with pin := false } } ∧
    (s.boot.step = 0 → s.boot.vin = true → s.boot.pin = false → (∀ i, i < 1024 → s.sm.ue.contains (logSlot i) = false) →
      ∃ t, exec .powerOnReset s = .next t ∧
      (∀ a, a ≠ R.flogSeq → t.rd a = regReset a) ∧ (∀ a, t.rb a = if isMram a then s.rb a else 0#8) ∧
      t.sm.otp = s.sm.otp ∧ t.te = State.reset.te ∧ t.vat = State.reset.vat ∧ t.boot = State.reset.boot ∧
      t.pending = s.pending) ∧
    (s.boot.step ≠ 0 ∨ s.boot.vin = false ∨ s.boot.pin = true → exec .powerOnReset s = .next s)

/-- THERMAL_EVALUATION, PARK_INTERVAL, SAFE_STATE_EXIT (R447 to R449): an evaluation shows the readings and whether their
highest reaches WARN and CRIT; two in a row of at least 135 °C enter the safe state, where PD2 to PD7 are off; a parking
interval parks the next cluster while CRIT holds, and returns the last one after enough evaluations below; the safe state
ends after 10 s below 115 °C with boot step 6.
Model's choices: log entries 16, 73, 74. -/
def Obligations.ThermalPolicy : Prop :=
  ∀ s : State,
    (∀ a b c d : Int, (∀ x ∈ [a, b, c, d], -32768 ≤ x ∧ x ≤ 32767) →
      let top := max (max a b) (max c d)
      Settles (.thermalEvaluation a b c d) s (fun t =>
        t.getS (F.thermTempTemp 0) = a ∧ t.getS (F.thermTempTemp 1) = b ∧ t.getS (F.thermTempTemp 2) = c ∧
        t.getS (F.thermTempTemp 3) = d ∧ (t.flag F.thermStatusWarnAct = true ↔ s.thermWarn ≤ top) ∧
        (t.flag F.thermStatusCritAct = true ↔ s.thermCrit ≤ top) ∧ (s.thermWarn ≤ top → s.boot.warned = false →
          t.flag F.thermStatusWarnEvt = true) ∧ (t.boot.hot = true ↔ 1080 ≤ top) ∧
        (1080 ≤ top → s.boot.hot = true → s.safeHeld = false → s.pwr 1 = 2 ∨ s.pwr 1 = 3 → 2 ≤ s.boot.step →
          t.st = stSafe ∧ t.boot.step = 11 ∧ t.flag F.thermStatusSafeEvt = true ∧ ∀ p, 2 ≤ p → p < 8 → t.pwr p = 0) ∧
        (top < 1080 → t.st = s.st))) ∧
    (s.flag F.thermStatusCritAct = true → ∀ k, s.toPark = some k → Settles .parkInterval s (fun t =>
      t.parked (4 + k) = true ∧ t.flag F.thermStatusCritEvt = true ∧ t.boot.parked = k :: s.boot.parked ∧
      (s.pwr 1 = 3 → s.safeHeld = false → s.pwr (4 + k) = 3 → t.pwr (4 + k) = 4))) ∧
    (s.flag F.thermStatusCritAct = false → s.parkTime ≤ s.boot.cool → ∀ k l, k < 4 → s.boot.parked = k :: l →
      ∃ t, exec .parkInterval s = .next t ∧ t.parked (4 + k) = false ∧ t.boot.parked = l ∧ t.mem = s.mem) ∧
    (s.flag F.thermStatusCritAct = false → s.boot.cool < s.parkTime → exec .parkInterval s = .next s) ∧
    (s.safeHeld = true → 10000 ≤ s.boot.cold → s.pwr 1 = 3 → s.boot.filled = true → s.pllLocked 0 = true →
      ∃ t, exec .safeStateExit s = .next t ∧ t.boot.step = 6 ∧ t.boot.ph = 1 ∧ t.get F.bootStatusStep = 6 ∧ t.ocSt = ocHalt ∧
        t.mem = s.mem) ∧
    (s.safeHeld = false ∨ s.boot.cold < 10000 → exec .safeStateExit s = .next s)

/-- LIFE_CYCLE_REQUEST, OTP_PROGRAMMING_DONE, ARM, TRIG (R351, R450, R451, R455): a legal request by host 0 starts the wipe that
precedes it, any other sets REQ_ERR: one with a wrong keyword, to a state not further on, without access to Vermilion, while a
request is busy, in brown-out, or of another master; programming leaves the new state in the OTP and DONE; ARM arms and clears MISSED; an
enabled TRIG of an armed snapshot copies the registers of Table 15-11, advances SEQ and disarms, of one not armed counts in
MISSED, and one not enabled does nothing. What has moved since the last command (a seeking PLL, a slew) shows in the copies.
Model's choices: log entries 14, 49, 54. -/
def Obligations.LifeCycleAndSnapshot : Prop :=
  ∀ s : State,
    (∀ v : Word, v.extractLsb' 16 16 = 0x4C43#16 → s.lc < (v.extractLsb' 0 2).toNat → s.verm = accOpen ∨ s.verm = accUnlocked →
      s.flag F.otpStatusBusy = false → s.sm.brown = false → ∃ t, exec (.lifeCycleRequest (.host 0) v) s = .next t ∧
        t.flag F.otpStatusBusy = true ∧ t.flag F.vermStatusWiping = true ∧ t.sm.lcPhase = 1 ∧
        t.sm.lcTgt = (v.extractLsb' 0 2).toNat ∧ OnlyRegs [R.otpStatus, R.vermStatus] s t) ∧
    (∀ v : Word, v.extractLsb' 16 16 ≠ 0x4C43#16 ∨ (v.extractLsb' 0 2).toNat ≤ s.lc ∨
        (s.verm ≠ accOpen ∧ s.verm ≠ accUnlocked) ∨ s.flag F.otpStatusBusy = true ∨ s.sm.brown = true →
      exec (.lifeCycleRequest (.host 0) v) s = .next (s.ok.put F.otpStatusReqErr 1)) ∧
    (∀ (h : Fin 4) (v : Word), h ≠ 0 → exec (.lifeCycleRequest (.host h) v) s = .next (s.put F.otpStatusReqErr 1).denied) ∧
    (∀ (m : Master) (v : Word), host0Only m = none → exec (.lifeCycleRequest m v) s = .next (s.put F.otpStatusReqErr 1).ok) ∧
    (s.sm.lcPhase = 2 → ∃ t, exec .otpProgrammingDone s = .next t ∧ t.sm.otp = s.sm.lcTgt ∧ t.flag F.otpStatusDone = true ∧
      t.flag F.otpStatusBusy = false ∧ t.lc = s.lc ∧ OnlyRegs [R.otpStatus] s t) ∧
    (s.sm.lcPhase ≠ 2 → exec .otpProgrammingDone s = .next s) ∧
    ∀ m : Master, m = .boot ∨ (∃ h, m = .host h) →
      exec (.arm m) s = .next ((s.ok.put F.snapSeqArmed 1).put F.snapSeqMissed 0) ∧
      (s.sys.trig = 0 → (s.get F.snapCtrlEn).testBit 0 = true → s.flag F.snapSeqArmed = true →
        ∃ t, exec (.trig m) s = .next t ∧ t.flag F.snapSeqArmed = false ∧
          t.get F.snapSeqSeq = (s.get F.snapSeqSeq + 1) % 2 ^ 16 ∧ t.get F.snapSeqSrc = 1 ∧
          (∀ i, i < 160 → t.rd (R.snapData i) = ({ s.drift with free := s.drift.free + i } : State).view (snapReg i)) ∧
          OnlyRegs (R.snapSeq :: (List.range 160).map R.snapData) s.drift t ∧ t.mem = s.mem) ∧
      (s.sys.trig = 0 → (s.get F.snapCtrlEn).testBit 0 = true → s.flag F.snapSeqArmed = false →
        ∃ t, exec (.trig m) s = .next t ∧ t.get F.snapSeqMissed = min (s.get F.snapSeqMissed + 1) 0xFF ∧
          OnlyRegs [R.snapSeq] s t) ∧
      (s.sys.trig = 0 → (s.get F.snapCtrlEn).testBit 0 = false → exec (.trig m) s = .next s.ok)
end

