-- ==== Sys2Proof/Laws/Keep/Basic.lean ====
section
/-! SUPPORT. Sparse stores keep their canonical form, and the relation `Keeps`: what every helper of the machine leaves
true. Each helper has one lemma `<helper>_keeps` in the file of its own module. -/

namespace Sys2Proof.Machine

variable {α : Type}

/-- The canonical form of a sparse store with default `d`: rising keys, no entry that equals its default. -/
def SpWf (d : Nat → α) (l : List (Nat × α)) : Prop := l.Pairwise (fun x y => x.1 < y.1) ∧ ∀ e ∈ l, e.2 ≠ d e.1

theorem mem_spPut {k : Nat} {v : α} {l : List (Nat × α)} {e : Nat × α} (h : e ∈ spPut k v l) : e = (k, v) ∨ e ∈ l := by
  induction l with
  | nil => exact Or.inl (by simpa [spPut] using h)
  | cons x l ih =>
    simp only [spPut] at h
    split at h
    · rcases List.mem_cons.1 h with h | h
      · exact .inl h
      · exact .inr h
    · split at h
      · rcases List.mem_cons.1 h with h | h
        · exact .inl h
        · exact .inr (List.mem_cons_of_mem _ h)
      · rcases List.mem_cons.1 h with h | h
        · exact .inr (h ▸ List.mem_cons_self)
        · exact (ih h).imp id (List.mem_cons_of_mem _)

theorem spDel_wf {d : Nat → α} {l : List (Nat × α)} (k : Nat) (h : SpWf d l) : SpWf d (spDel k l) :=
  ⟨h.1.filter _, fun e he => h.2 e (List.mem_filter.1 he).1⟩

theorem spPut_rising {l : List (Nat × α)} (k : Nat) (v : α) (hp : l.Pairwise (fun x y => x.1 < y.1)) :
    (spPut k v l).Pairwise (fun x y => x.1 < y.1) := by
  induction l with
  | nil => simp [spPut]
  | cons x l ih =>
    have hq := List.pairwise_cons.1 hp
    simp only [spPut]
    split
    case isTrue hk =>
      refine List.pairwise_cons.2 ⟨fun e he => ?_, hp⟩
      rcases List.mem_cons.1 he with he | he
      · subst he; exact hk
      · exact Nat.lt_trans hk (hq.1 e he)
    case isFalse hk =>
      split
      case isTrue he => exact List.pairwise_cons.2 ⟨fun e h => he ▸ hq.1 e h, hq.2⟩
      case isFalse he =>
        refine List.pairwise_cons.2 ⟨fun e h => ?_, ih hq.2⟩
        rcases mem_spPut h with h | h
        · subst h; exact Nat.lt_of_le_of_ne (Nat.le_of_not_lt hk) (fun c => he c.symm)
        · exact hq.1 e h

theorem spSet_wf {d : Nat → α} [DecidableEq α] {l : List (Nat × α)} (k : Nat) (v : α) (h : SpWf d l) :
    SpWf d (spSet d l k v) := by
  unfold spSet
  split
  · exact spDel_wf k h
  · refine ⟨spPut_rising k v h.1, fun e he => ?_⟩
    rcases mem_spPut he with he | he
    · subst he; assumption
    · exact h.2 e he

theorem spFilter_wf {d : Nat → α} {l : List (Nat × α)} (p : Nat × α → Bool) (h : SpWf d l) : SpWf d (l.filter p) :=
  ⟨h.1.filter p, fun e he => h.2 e (List.mem_filter.1 he).1⟩

theorem spFoldAt_wf {d : Nat → α} [DecidableEq α] (g : Nat → Nat) (xs : List (Nat × α)) {l : List (Nat × α)} (h : SpWf d l) :
    SpWf d (xs.foldl (fun m e => spSet d m (g e.1) e.2) l) := by
  induction xs generalizing l with
  | nil => exact h
  | cons x xs ih => exact ih (spSet_wf (g x.1) x.2 h)

theorem spFold_wf {d : Nat → α} [DecidableEq α] (xs : List (Nat × α)) {l : List (Nat × α)} (h : SpWf d l) :
    SpWf d (xs.foldl (fun m e => spSet d m e.1 e.2) l) := spFoldAt_wf id xs h

/-- What every helper keeps, from the state `b` to the state `t`: the queue of waiting commands, the count of free values
drawn, which never goes back, the canonical form of the register store and of memory, and, where `k` says so, the time. -/
structure Keeps (k : Bool) (b t : State) : Prop where
  pend : t.pending = b.pending
  free : b.free ≤ t.free
  regs : Regs.wf b.regs → Regs.wf t.regs
  mem : Memory.wf b.mem → Memory.wf t.mem
  time : k = true → t.sys.qt = b.sys.qt ∧ t.sys.cyc = b.sys.cyc

theorem Keeps.rfl (k : Bool) (s : State) : Keeps k s s := ⟨Eq.refl _, Nat.le_refl _, id, id, fun _ => ⟨Eq.refl _, Eq.refl _⟩⟩

theorem Keeps.trans {k : Bool} {a b c : State} (h : Keeps k a b) (g : Keeps k b c) : Keeps k a c :=
  ⟨g.pend.trans h.pend, Nat.le_trans h.free g.free, g.regs ∘ h.regs, g.mem ∘ h.mem,
    fun e => ⟨(g.time e).1.trans (h.time e).1, (g.time e).2.trans (h.time e).2⟩⟩

variable {k : Bool} {b s t : State}

/-- What keeps the time keeps the rest. -/
theorem Keeps.weaken (h : Keeps k b s) : Keeps false b s := ⟨h.pend, h.free, h.regs, h.mem, nofun⟩

/-- A record update of other fields that leaves the time. -/
theorem Keeps.mk1 (h : Keeps k b s) {sys : Sys} {te : Vector Engine 8} {md : Mord} {mig : Mig} {dom : Dom} {rt : Rt}
      {pdm : Pdm} {tp : Vector Tp 6} {asrc : Vector Asrc 8} {sm : Stores} {vat : VatS} {ig : Vector Core 16} {dma :
      DmaS} {chime : Chime} {veh : Veh} {oc : Ochre} {clk : Clk} {boot : Boot} {hp : Vector Port 4} {latches : List
      (Nat × Word)} {resp : Resp} {rdata : Word} {rbytes : List Byte} (e1 : sys.qt = s.sys.qt) (e2 : sys.cyc = s.sys.cyc) :
    Keeps k b (State.mk s.pending s.regs s.mem sys te md mig dom rt pdm tp asrc sm vat ig dma chime veh oc clk boot
      hp latches resp rdata rbytes s.free) := ⟨h.pend, h.free, h.regs, h.mem, fun e => ⟨e1.trans (h.time e).1, e2.trans
      (h.time e).2⟩⟩

/-- A record update of other fields, the time among them. -/
theorem Keeps.mk0 (h : Keeps false b s) {sys : Sys} {te : Vector Engine 8} {md : Mord} {mig : Mig} {dom : Dom} {rt :
      Rt} {pdm : Pdm} {tp : Vector Tp 6} {asrc : Vector Asrc 8} {sm : Stores} {vat : VatS} {ig : Vector Core 16} {dma
      : DmaS} {chime : Chime} {veh : Veh} {oc : Ochre} {clk : Clk} {boot : Boot} {hp : Vector Port 4} {latches : List
      (Nat × Word)} {resp : Resp} {rdata : Word} {rbytes : List Byte} :
    Keeps false b (State.mk s.pending s.regs s.mem sys te md mig dom rt pdm tp asrc sm vat ig dma chime veh oc clk
      boot hp latches resp rdata rbytes s.free) := ⟨h.pend, h.free, h.regs, h.mem, nofun⟩

/-- A record update that also counts a free value. -/
theorem Keeps.mk2 (h : Keeps k b s) {sys : Sys} {te : Vector Engine 8} {md : Mord} {mig : Mig} {dom : Dom} {rt : Rt}
      {pdm : Pdm} {tp : Vector Tp 6} {asrc : Vector Asrc 8} {sm : Stores} {vat : VatS} {ig : Vector Core 16} {dma :
      DmaS} {chime : Chime} {veh : Veh} {oc : Ochre} {clk : Clk} {boot : Boot} {hp : Vector Port 4} {latches : List
      (Nat × Word)} {resp : Resp} {rdata : Word} {rbytes : List Byte} (e1 : sys.qt = s.sys.qt) (e2 : sys.cyc = s.sys.cyc) :
    Keeps k b (State.mk s.pending s.regs s.mem sys te md mig dom rt pdm tp asrc sm vat ig dma chime veh oc clk boot
      hp latches resp rdata rbytes (s.free + 1)) := ⟨h.pend, Nat.le_succ_of_le h.free, h.regs, h.mem, fun e => ⟨e1.trans
      (h.time e).1, e2.trans (h.time e).2⟩⟩

theorem Keeps.ite {c : Prop} [Decidable c] {x y : State} (hx : Keeps k b x) (hy : Keeps k b y) : Keeps k b (if c then x else y) := by
  split <;> assumption

theorem Keeps.ite2 {β : Type} {c : Prop} [Decidable c] {x y : β × State} (hx : Keeps k b x.2) (hy : Keeps k b y.2) :
    Keeps k b (if c then x else y).2 := by
  split <;> assumption

theorem Keeps.fold {β : Type} {f : State → β → State} (l : List β) (h : Keeps k b s) (hf : ∀ t x, Keeps k b t → Keeps k b (f t x)) :
    Keeps k b (l.foldl f s) := by
  induction l generalizing s with
  | nil => exact h
  | cons x l ih => exact ih (hf s x h)

theorem Keeps.fold2 {β γ : Type} {f : γ × State → β → γ × State} (l : List β) {a : γ × State} (h : Keeps k b a.2)
    (hf : ∀ t x, Keeps k b t.2 → Keeps k b (f t x).2) : Keeps k b (l.foldl f a).2 := by
  induction l generalizing a with
  | nil => exact h
  | cons x l ih => exact ih (hf a x h)

/-! The operations of Ops.lean that write the register store or memory. -/

theorem State.wr_keeps (h : Keeps k b s) (a : Nat) (v : Word) : Keeps k b (s.wr a v) :=
  ⟨h.pend, h.free, fun g => spSet_wf a v (h.regs g), h.mem, h.time⟩

theorem State.unreg_keeps (h : Keeps k b s) (a : Nat) : Keeps k b (s.unreg a) :=
  ⟨h.pend, h.free, fun g => spDel_wf a (h.regs g), h.mem, h.time⟩

theorem State.regClear_keeps (h : Keeps k b s) (lo hi : Nat) : Keeps k b (s.regClear lo hi) :=
  ⟨h.pend, h.free, fun g => spFilter_wf _ (h.regs g), h.mem, h.time⟩

theorem State.wb_keeps (h : Keeps k b s) (a : Nat) (v : Byte) : Keeps k b (s.wb a v) :=
  ⟨h.pend, h.free, h.regs, fun g => spSet_wf a v (h.mem g), h.time⟩

theorem State.wbs_keeps (h : Keeps k b s) (a : Nat) (l : List Byte) : Keeps k b (s.wbs a l) := by
  induction l generalizing s a with
  | nil => exact h
  | cons x l ih => exact ih (wb_keeps h a x) (a + 1)

theorem State.memClear_keeps (h : Keeps k b s) (lo hi : Nat) : Keeps k b (s.memClear lo hi) :=
  ⟨h.pend, h.free, h.regs, fun g => spFilter_wf _ (h.mem g), h.time⟩

theorem State.memSwap_keeps (h : Keeps k b s) (x y n : Nat) : Keeps k b (s.memSwap x y n) :=
  ⟨h.pend, h.free, h.regs, fun g => spFold_wf _ (spFilter_wf _ (h.mem g)), h.time⟩

theorem State.regSwap_keeps (h : Keeps k b s) (x y n : Nat) : Keeps k b (s.regSwap x y n) :=
  ⟨h.pend, h.free, fun g => spFold_wf _ (spFilter_wf _ (h.regs g)), h.mem, h.time⟩

theorem State.draw_keeps (h : Keeps k b s) : Keeps k b s.draw.2 :=
  ⟨h.pend, Nat.le_succ_of_le h.free, h.regs, h.mem, h.time⟩

end Sys2Proof.Machine
end

