-- ==== Sys2Proof/Laws/Keep/Ops.lean ====
section
/-! SUPPORT. What the helpers and meanings of Machine/Ops.lean keep. -/

namespace Sys2Proof.Machine

theorem State.put_keeps {k0 : Bool} {b0 : State} {s : State} (f : Fld) (v : Nat) (hk : Keeps k0 b0 s) : Keeps k0 b0 (State.put s f v) := by
  unfold State.put
  repeat' first | with_reducible assumption | intro _ | with_reducible apply State.wr_keeps

theorem State.bump_keeps {k0 : Bool} {b0 : State} {s : State} (f : Fld) (n : Nat) (hk : Keeps k0 b0 s) : Keeps k0 b0 (State.bump s f n) := by
  unfold State.bump
  repeat' first | with_reducible assumption | intro _ | with_reducible apply State.put_keeps

theorem State.setIf_keeps {k0 : Bool} {b0 : State} {s : State} (c : Bool) (f : Fld) (hk : Keeps k0 b0 s) : Keeps k0 b0 (State.setIf s c f) := by
  unfold State.setIf
  repeat' first | with_reducible assumption | intro _ | with_reducible apply State.put_keeps | with_reducible apply Keeps.ite

theorem State.ww_keeps {k0 : Bool} {b0 : State} {s : State} (a : Nat) (v : Word) (hk : Keeps k0 b0 s) : Keeps k0 b0 (State.ww s a v) := by
  unfold State.ww
  repeat' first | with_reducible assumption | intro _ | with_reducible apply State.wbs_keeps

theorem State.ok_keeps {k0 : Bool} {b0 : State} {s : State} (hk : Keeps k0 b0 s) : Keeps k0 b0 (State.ok s) := by
  unfold State.ok
  repeat' first | with_reducible assumption | intro _ | with_reducible rfl | with_reducible apply Keeps.mk1

theorem State.denied_keeps {k0 : Bool} {b0 : State} {s : State} (hk : Keeps k0 b0 s) : Keeps k0 b0 (State.denied s) := by
  unfold State.denied
  repeat' first | with_reducible assumption | intro _ | with_reducible rfl | with_reducible apply Keeps.mk1

theorem State.atCyc_keeps {b0 : State} {s : State} (cyc : Nat) (hk : Keeps false b0 s) : Keeps false b0 (State.atCyc s cyc) := by
  unfold State.atCyc
  repeat' first | with_reducible assumption | intro _ | with_reducible apply Keeps.ite | with_reducible rfl | split | with_reducible apply Keeps.mk0

theorem State.noteWriter_keeps {k0 : Bool} {b0 : State} {s : State} (a k : Nat) (hk : Keeps k0 b0 s) : Keeps k0 b0 (State.noteWriter s a k) := by
  unfold State.noteWriter
  repeat' first | with_reducible assumption | intro _ | with_reducible rfl | with_reducible apply Keeps.mk1

theorem State.setEng_keeps {k0 : Bool} {b0 : State} {s : State} (e : Nat) (g : Engine → Engine) (hk : Keeps k0 b0 s) : Keeps k0 b0 (State.setEng s e g) := by
  unfold State.setEng
  repeat' first | with_reducible assumption | intro _ | with_reducible rfl | with_reducible apply Keeps.mk1

theorem State.dlyWr_keeps {k0 : Bool} {b0 : State} {s : State} (e p : Nat) (v : Word) (hk : Keeps k0 b0 s) : Keeps k0 b0 (State.dlyWr s e p v) := by
  unfold State.dlyWr
  repeat' first | with_reducible assumption | intro _ | with_reducible apply State.ww_keeps

theorem State.dlyDirty_keeps {k0 : Bool} {b0 : State} {s : State} (e p : Nat) (hk : Keeps k0 b0 s) : Keeps k0 b0 (State.dlyDirty s e p) := by
  unfold State.dlyDirty
  repeat' first | with_reducible assumption | intro _ | with_reducible apply State.setEng_keeps | with_reducible rfl | with_reducible apply Keeps.mk1

theorem State.setCore_keeps {k0 : Bool} {b0 : State} {s : State} (c : Nat) (g : Core → Core) (hk : Keeps k0 b0 s) : Keeps k0 b0 (State.setCore s c g) := by
  unfold State.setCore
  repeat' first | with_reducible assumption | intro _ | with_reducible rfl | with_reducible apply Keeps.mk1

theorem State.dbellSet_keeps {k0 : Bool} {b0 : State} {s : State} (c v : Nat) (hk : Keeps k0 b0 s) : Keeps k0 b0 (State.dbellSet s c v) := by
  unfold State.dbellSet
  repeat' first | with_reducible assumption | intro _ | with_reducible apply State.put_keeps | with_reducible apply State.setCore_keeps | with_reducible apply Keeps.ite | with_reducible rfl | split | with_reducible apply Keeps.mk1

theorem State.fire_keeps {k0 : Bool} {b0 : State} {s : State} (k : Nat) (hk : Keeps k0 b0 s) : Keeps k0 b0 (State.fire s k) := by
  unfold State.fire
  repeat' first | with_reducible assumption | intro _ | with_reducible rfl | split | with_reducible apply Keeps.mk1

theorem State.mramShow_keeps {k0 : Bool} {b0 : State} {s : State} (hk : Keeps k0 b0 s) : Keeps k0 b0 (State.mramShow s) := by
  unfold State.mramShow
  repeat' first | with_reducible assumption | intro _ | with_reducible apply State.put_keeps

theorem State.mramPush_keeps {k0 : Bool} {b0 : State} {s : State} (own : Option Master) (l : List (Nat × List Byte)) (hk : Keeps k0 b0 s) : Keeps k0 b0 (State.mramPush s own l) := by
  unfold State.mramPush
  repeat' first | with_reducible assumption | intro _ | with_reducible apply State.mramShow_keeps | with_reducible rfl | with_reducible apply Keeps.mk1

theorem State.cntStep_keeps {k0 : Bool} {b0 : State} {s : State} (c : Nat) (hk : Keeps k0 b0 s) : Keeps k0 b0 (State.cntStep s c) := by
  unfold State.cntStep
  repeat' first | with_reducible assumption | intro _ | with_reducible apply State.mramPush_keeps | with_reducible apply Keeps.ite

theorem State.flog_keeps {k0 : Bool} {b0 : State} {s : State} (code : Nat) (info arg : Word) (hk : Keeps k0 b0 s) : Keeps k0 b0 (State.flog s code info arg) := by
  unfold State.flog
  repeat' first | with_reducible assumption | intro _ | with_reducible apply State.bump_keeps | with_reducible apply State.mramPush_keeps | with_reducible apply State.put_keeps | with_reducible apply Keeps.ite | with_reducible apply Keeps.ite2 | with_reducible rfl | split | with_reducible apply Keeps.mk1

theorem State.ueMram_keeps {k0 : Bool} {b0 : State} {s : State} (u : Nat) (hk : Keeps k0 b0 s) : Keeps k0 b0 (State.ueMram s u) := by
  unfold State.ueMram
  repeat' first | with_reducible assumption | intro _ | with_reducible apply State.wr_keeps | with_reducible apply State.put_keeps | with_reducible apply State.flog_keeps

theorem State.cntInc_keeps {k0 : Bool} {b0 : State} {s : State} (c : Nat) (hk : Keeps k0 b0 s) : Keeps k0 b0 (State.cntInc s c) := by
  unfold State.cntInc
  repeat' first | with_reducible assumption | intro _ | with_reducible apply State.ueMram_keeps | with_reducible apply State.cntStep_keeps | with_reducible apply Keeps.ite

theorem State.conflict_keeps {k0 : Bool} {b0 : State} {s : State} (k n : Nat) (hk : Keeps k0 b0 s) : Keeps k0 b0 (State.conflict s k n) := by
  unfold State.conflict
  repeat' first | with_reducible assumption | intro _ | with_reducible apply State.bump_keeps

end Sys2Proof.Machine
end

