-- ==== Sys2Proof/Laws/Keep/TeIsa.lean ====
section
/-! SUPPORT. What the helpers and meanings of Machine/TeIsa.lean keep. -/

namespace Sys2Proof.Machine

theorem State.slotDone_keeps {k0 : Bool} {b0 : State} {s : State} (e : Nat) (hk : Keeps k0 b0 s) : Keeps k0 b0 (State.slotDone s e) := by
  unfold State.slotDone
  repeat' first | with_reducible assumption | intro _ | with_reducible apply State.setEng_keeps | with_reducible rfl | with_reducible apply Keeps.mk1

theorem State.satCount_keeps {k0 : Bool} {b0 : State} {s : State} (e : Nat) (c : Bool) (hk : Keeps k0 b0 s) : Keeps k0 b0 (State.satCount s e c) := by
  unfold State.satCount
  repeat' first | with_reducible assumption | intro _ | with_reducible apply State.bump_keeps | with_reducible apply Keeps.ite

theorem State.transfer_keeps {k0 : Bool} {b0 : State} {s : State} (e : Nat) (g0 : Engine) (x : Xfer) (hk : Keeps k0 b0 s) : Keeps k0 b0 (State.transfer s e g0 x) := by
  unfold State.transfer
  repeat' first | with_reducible assumption | intro _ | with_reducible apply State.setEng_keeps | with_reducible apply State.satCount_keeps | with_reducible apply Keeps.ite | with_reducible apply Keeps.ite2

theorem State.accStep_keeps {k0 : Bool} {b0 : State} {s : State} (e : Nat) (g0 : Engine) (x : Xfer) (macs : List (Nat × Nat × Int)) (hk : Keeps k0 b0 s) : Keeps k0 b0 (State.accStep s e g0 x macs) := by
  unfold State.accStep
  repeat' first | with_reducible assumption | intro _ | with_reducible apply State.setEng_keeps | with_reducible apply State.setIf_keeps | with_reducible rfl | split | with_reducible apply Keeps.mk1

theorem State.slotM_keeps {k0 : Bool} {b0 : State} {s : State} (e : Nat) (w : DWord) (hk : Keeps k0 b0 s) : Keeps k0 b0 (State.slotM s e w) := by
  unfold State.slotM
  repeat' first | with_reducible assumption | intro _ | with_reducible apply State.accStep_keeps | with_reducible apply State.transfer_keeps

theorem State.dlyPut_keeps {k0 : Bool} {b0 : State} {s : State} (e p : Nat) (v : Word) (hk : Keeps k0 b0 s) : Keeps k0 b0 (State.dlyPut s e p v) := by
  unfold State.dlyPut
  repeat' first | with_reducible assumption | intro _ | with_reducible apply State.setEng_keeps | with_reducible apply State.dlyWr_keeps | with_reducible apply Keeps.ite | with_reducible rfl | split | with_reducible apply Keeps.mk1

theorem State.slotDEnd_keeps {k0 : Bool} {b0 : State} {s : State} (e : Nat) (g : Engine) (w : DWord) (hk : Keeps k0 b0 s) : Keeps k0 b0 (State.slotDEnd s e g w) := by
  unfold State.slotDEnd
  repeat' first | with_reducible assumption | intro _ | with_reducible apply State.accStep_keeps | with_reducible apply State.transfer_keeps

theorem State.slotRead_keeps {k0 : Bool} {b0 : State} {s : State} (e : Nat) (w : DWord) (hk : Keeps k0 b0 s) : Keeps k0 b0 (State.slotRead s e w) := by
  unfold State.slotRead
  repeat' first | with_reducible assumption | intro _ | with_reducible apply State.setEng_keeps | with_reducible apply State.slotDEnd_keeps

theorem State.slotInterp_keeps {k0 : Bool} {b0 : State} {s : State} (e : Nat) (w : DWord) (hk : Keeps k0 b0 s) : Keeps k0 b0 (State.slotInterp s e w) := by
  unfold State.slotInterp
  repeat' first | with_reducible assumption | intro _ | with_reducible apply State.setEng_keeps | with_reducible apply State.slotDEnd_keeps | with_reducible apply Keeps.ite

theorem State.slotWrite_keeps {k0 : Bool} {b0 : State} {s : State} (e : Nat) (w : DWord) (hk : Keeps k0 b0 s) : Keeps k0 b0 (State.slotWrite s e w) := by
  unfold State.slotWrite
  repeat' first | with_reducible assumption | intro _ | with_reducible apply State.dlyPut_keeps | with_reducible apply State.satCount_keeps | with_reducible apply State.slotDEnd_keeps | with_reducible apply Keeps.ite | with_reducible apply Keeps.ite2

theorem State.putX_keeps {k0 : Bool} {b0 : State} {s : State} (e : Nat) (w : DWord) (v : Word) (hk : Keeps k0 b0 s) : Keeps k0 b0 (State.putX s e w v) := by
  unfold State.putX
  repeat' first | with_reducible assumption | intro _ | with_reducible apply State.setEng_keeps

theorem State.xAlu_keeps {k0 : Bool} {b0 : State} {s : State} (e : Nat) (w : DWord) (f : Word → Word → Word) (hk : Keeps k0 b0 s) : Keeps k0 b0 (State.xAlu s e w f) := by
  unfold State.xAlu
  repeat' first | with_reducible assumption | intro _ | with_reducible apply State.putX_keeps

theorem State.xUn_keeps {k0 : Bool} {b0 : State} {s : State} (e : Nat) (w : DWord) (f : Word → Word) (hk : Keeps k0 b0 s) : Keeps k0 b0 (State.xUn s e w f) := by
  unfold State.xUn
  repeat' first | with_reducible assumption | intro _ | with_reducible apply State.putX_keeps

theorem State.xNop_keeps {k0 : Bool} {b0 : State} {s : State} (_e : Nat) (_w : DWord) (hk : Keeps k0 b0 s) : Keeps k0 b0 (State.xNop s _e _w) := by
  unfold State.xNop
  repeat' first | with_reducible assumption | intro _

theorem State.xLdi_keeps {k0 : Bool} {b0 : State} {s : State} (e : Nat) (w : DWord) (hk : Keeps k0 b0 s) : Keeps k0 b0 (State.xLdi s e w) := by
  unfold State.xLdi
  repeat' first | with_reducible assumption | intro _ | with_reducible apply State.putX_keeps

theorem State.xMov_keeps {k0 : Bool} {b0 : State} {s : State} (e : Nat) (w : DWord) (hk : Keeps k0 b0 s) : Keeps k0 b0 (State.xMov s e w) := by
  unfold State.xMov
  repeat' first | with_reducible assumption | intro _ | with_reducible apply State.xUn_keeps

theorem State.xLdc_keeps {k0 : Bool} {b0 : State} {s : State} (e : Nat) (w : DWord) (hk : Keeps k0 b0 s) : Keeps k0 b0 (State.xLdc s e w) := by
  unfold State.xLdc
  repeat' first | with_reducible assumption | intro _ | with_reducible apply State.putX_keeps

theorem State.xAsr_keeps {k0 : Bool} {b0 : State} {s : State} (e : Nat) (w : DWord) (hk : Keeps k0 b0 s) : Keeps k0 b0 (State.xAsr s e w) := by
  unfold State.xAsr
  repeat' first | with_reducible assumption | intro _ | with_reducible apply State.xUn_keeps

theorem State.xLsr_keeps {k0 : Bool} {b0 : State} {s : State} (e : Nat) (w : DWord) (hk : Keeps k0 b0 s) : Keeps k0 b0 (State.xLsr s e w) := by
  unfold State.xLsr
  repeat' first | with_reducible assumption | intro _ | with_reducible apply State.xUn_keeps

theorem State.xLsl_keeps {k0 : Bool} {b0 : State} {s : State} (e : Nat) (w : DWord) (hk : Keeps k0 b0 s) : Keeps k0 b0 (State.xLsl s e w) := by
  unfold State.xLsl
  repeat' first | with_reducible assumption | intro _ | with_reducible apply State.xUn_keeps

theorem State.xCmp_keeps {k0 : Bool} {b0 : State} {s : State} (e : Nat) (w : DWord) (hk : Keeps k0 b0 s) : Keeps k0 b0 (State.xCmp s e w) := by
  unfold State.xCmp
  repeat' first | with_reducible assumption | intro _ | with_reducible apply State.setEng_keeps | with_reducible rfl | with_reducible apply Keeps.mk1

theorem State.xFop_keeps {k0 : Bool} {b0 : State} {s : State} (e : Nat) (w : DWord) (hk : Keeps k0 b0 s) : Keeps k0 b0 (State.xFop s e w) := by
  unfold State.xFop
  repeat' first | with_reducible assumption | intro _ | with_reducible apply State.setEng_keeps | with_reducible rfl | with_reducible apply Keeps.mk1

theorem State.xFset_keeps {k0 : Bool} {b0 : State} {s : State} (e : Nat) (w : DWord) (hk : Keeps k0 b0 s) : Keeps k0 b0 (State.xFset s e w) := by
  unfold State.xFset
  repeat' first | with_reducible assumption | intro _ | with_reducible apply State.setEng_keeps | with_reducible rfl | with_reducible apply Keeps.mk1

theorem State.xAmov_keeps {k0 : Bool} {b0 : State} {s : State} (e : Nat) (w : DWord) (hk : Keeps k0 b0 s) : Keeps k0 b0 (State.xAmov s e w) := by
  unfold State.xAmov
  repeat' first | with_reducible assumption | intro _ | with_reducible apply State.setEng_keeps | with_reducible rfl | with_reducible apply Keeps.mk1

theorem State.xAint_keeps {k0 : Bool} {b0 : State} {s : State} (e : Nat) (w : DWord) (hk : Keeps k0 b0 s) : Keeps k0 b0 (State.xAint s e w) := by
  unfold State.xAint
  repeat' first | with_reducible assumption | intro _ | with_reducible apply State.setEng_keeps | with_reducible rfl | with_reducible apply Keeps.mk1

theorem State.xAadd_keeps {k0 : Bool} {b0 : State} {s : State} (e : Nat) (w : DWord) (hk : Keeps k0 b0 s) : Keeps k0 b0 (State.xAadd s e w) := by
  unfold State.xAadd
  repeat' first | with_reducible assumption | intro _ | with_reducible apply State.setEng_keeps | with_reducible rfl | with_reducible apply Keeps.mk1

theorem State.xAccld_keeps {k0 : Bool} {b0 : State} {s : State} (e : Nat) (w : DWord) (hk : Keeps k0 b0 s) : Keeps k0 b0 (State.xAccld s e w) := by
  unfold State.xAccld
  repeat' first | with_reducible assumption | intro _ | with_reducible apply State.setEng_keeps | with_reducible rfl | with_reducible apply Keeps.mk1

theorem State.xAccadd_keeps {k0 : Bool} {b0 : State} {s : State} (e : Nat) (w : DWord) (hk : Keeps k0 b0 s) : Keeps k0 b0 (State.xAccadd s e w) := by
  unfold State.xAccadd
  repeat' first | with_reducible assumption | intro _ | with_reducible apply State.setEng_keeps | with_reducible apply State.setIf_keeps | with_reducible rfl | with_reducible apply Keeps.mk1

theorem State.xEmit_keeps {k0 : Bool} {b0 : State} {s : State} (e : Nat) (w : DWord) (hk : Keeps k0 b0 s) : Keeps k0 b0 (State.xEmit s e w) := by
  unfold State.xEmit
  repeat' first | with_reducible assumption | intro _ | with_reducible apply State.setEng_keeps | with_reducible apply State.put_keeps | with_reducible apply State.bump_keeps | with_reducible apply Keeps.ite | with_reducible rfl | with_reducible apply Keeps.mk1

theorem State.runSlot_keeps {k0 : Bool} {b0 : State} {s : State} (e : Nat) (kind : DWord → Bool) (act : State → Nat → DWord → State)
    (h : Keeps k0 b0 s) (hact : ∀ t y0 y1, Keeps k0 b0 t → Keeps k0 b0 (act t y0 y1)) : Keeps k0 b0 (s.runSlot e kind act) := by
  unfold State.runSlot
  exact Keeps.ite (State.slotDone_keeps e (Keeps.ite (hact _ _ _ h) h)) h

theorem State.runIllegal_keeps {k0 : Bool} {b0 : State} {s : State} (e : Nat) (hk : Keeps k0 b0 s) : Keeps k0 b0 (State.runIllegal s e) := by
  unfold State.runIllegal
  repeat' first | with_reducible assumption | intro _ | with_reducible apply State.put_keeps | with_reducible apply State.slotDone_keeps | with_reducible apply Keeps.ite

theorem State.slotAct_keeps {k0 : Bool} {b0 : State} {s : State} (e : Nat) (w : DWord) (hk : Keeps k0 b0 s) : Keeps k0 b0 (State.slotAct s e w) := by
  unfold State.slotAct
  repeat' first | with_reducible assumption | intro _ | with_reducible apply State.slotM_keeps | with_reducible apply State.slotRead_keeps | with_reducible apply State.slotInterp_keeps | with_reducible apply State.slotWrite_keeps | with_reducible apply State.xNop_keeps | with_reducible apply State.xLdi_keeps | with_reducible apply State.xMov_keeps | with_reducible apply State.xLdc_keeps | with_reducible apply State.xAlu_keeps | with_reducible apply State.xAsr_keeps | with_reducible apply State.xLsr_keeps | with_reducible apply State.xLsl_keeps | with_reducible apply State.xUn_keeps | with_reducible apply State.xCmp_keeps | with_reducible apply State.xFop_keeps | with_reducible apply State.xFset_keeps | with_reducible apply State.xAmov_keeps | with_reducible apply State.xAint_keeps | with_reducible apply State.xAadd_keeps | with_reducible apply State.xAccld_keeps | with_reducible apply State.xAccadd_keeps | with_reducible apply State.xEmit_keeps | with_reducible rfl | split | with_reducible apply Keeps.mk1

theorem State.runAnySlot_keeps {k0 : Bool} {b0 : State} {s : State} (e : Nat) (hk : Keeps k0 b0 s) : Keeps k0 b0 (State.runAnySlot s e) := by
  unfold State.runAnySlot
  repeat' first | with_reducible assumption | intro _ | with_reducible apply State.runSlot_keeps | with_reducible apply State.slotAct_keeps | with_reducible apply State.runIllegal_keeps | with_reducible apply Keeps.ite

theorem State.runSlots_keeps {k0 : Bool} {b0 : State} {s : State} (e n : Nat) (h : Keeps k0 b0 s) : Keeps k0 b0 (s.runSlots e n) := by
  induction n generalizing s with
  | zero => exact h
  | succ n ih =>
    unfold State.runSlots
    exact Keeps.ite (ih (State.runAnySlot_keeps e h)) h

theorem State.finishRun_keeps {k0 : Bool} {b0 : State} {s : State} (e : Nat) (hk : Keeps k0 b0 s) : Keeps k0 b0 (State.finishRun s e) := by
  unfold State.finishRun
  repeat' first | with_reducible assumption | intro _ | with_reducible apply State.runSlots_keeps

theorem execTeMacSlot_keeps (e : Fin 8) (s : State) {r0 : State} (hr : execTeMacSlot e s = .next r0) : Keeps true s r0 := by
  cases hr
  have hk := Keeps.rfl true s
  repeat' first | with_reducible assumption | intro _ | with_reducible apply State.runSlot_keeps | with_reducible apply State.slotM_keeps

theorem execTeDelayRead_keeps (e : Fin 8) (s : State) {r0 : State} (hr : execTeDelayRead e s = .next r0) : Keeps true s r0 := by
  cases hr
  have hk := Keeps.rfl true s
  repeat' first | with_reducible assumption | intro _ | with_reducible apply State.runSlot_keeps | with_reducible apply State.slotRead_keeps

theorem execTeInterpolatedRead_keeps (e : Fin 8) (s : State) {r0 : State} (hr : execTeInterpolatedRead e s = .next r0) : Keeps true s r0 := by
  cases hr
  have hk := Keeps.rfl true s
  repeat' first | with_reducible assumption | intro _ | with_reducible apply State.runSlot_keeps | with_reducible apply State.slotInterp_keeps

theorem execTeDelayWrite_keeps (e : Fin 8) (s : State) {r0 : State} (hr : execTeDelayWrite e s = .next r0) : Keeps true s r0 := by
  cases hr
  have hk := Keeps.rfl true s
  repeat' first | with_reducible assumption | intro _ | with_reducible apply State.runSlot_keeps | with_reducible apply State.slotWrite_keeps

theorem execTeIllegalSlot_keeps (e : Fin 8) (s : State) {r0 : State} (hr : execTeIllegalSlot e s = .next r0) : Keeps true s r0 := by
  cases hr
  have hk := Keeps.rfl true s
  repeat' first | with_reducible assumption | intro _ | with_reducible apply State.runIllegal_keeps

theorem execTeNop_keeps (e : Fin 8) (s : State) {r0 : State} (hr : execTeNop e s = .next r0) : Keeps true s r0 := by
  cases hr
  have hk := Keeps.rfl true s
  repeat' first | with_reducible assumption | intro _ | with_reducible apply State.runSlot_keeps | with_reducible apply State.xNop_keeps

theorem execTeLdi_keeps (e : Fin 8) (s : State) {r0 : State} (hr : execTeLdi e s = .next r0) : Keeps true s r0 := by
  cases hr
  have hk := Keeps.rfl true s
  repeat' first | with_reducible assumption | intro _ | with_reducible apply State.runSlot_keeps | with_reducible apply State.xLdi_keeps

theorem execTeMov_keeps (e : Fin 8) (s : State) {r0 : State} (hr : execTeMov e s = .next r0) : Keeps true s r0 := by
  cases hr
  have hk := Keeps.rfl true s
  repeat' first | with_reducible assumption | intro _ | with_reducible apply State.runSlot_keeps | with_reducible apply State.xMov_keeps

theorem execTeLdc_keeps (e : Fin 8) (s : State) {r0 : State} (hr : execTeLdc e s = .next r0) : Keeps true s r0 := by
  cases hr
  have hk := Keeps.rfl true s
  repeat' first | with_reducible assumption | intro _ | with_reducible apply State.runSlot_keeps | with_reducible apply State.xLdc_keeps

theorem execTeAdd_keeps (e : Fin 8) (s : State) {r0 : State} (hr : execTeAdd e s = .next r0) : Keeps true s r0 := by
  cases hr
  have hk := Keeps.rfl true s
  repeat' first | with_reducible assumption | intro _ | with_reducible apply State.runSlot_keeps | with_reducible apply State.xAlu_keeps

theorem execTeSub_keeps (e : Fin 8) (s : State) {r0 : State} (hr : execTeSub e s = .next r0) : Keeps true s r0 := by
  cases hr
  have hk := Keeps.rfl true s
  repeat' first | with_reducible assumption | intro _ | with_reducible apply State.runSlot_keeps | with_reducible apply State.xAlu_keeps

theorem execTeRsb_keeps (e : Fin 8) (s : State) {r0 : State} (hr : execTeRsb e s = .next r0) : Keeps true s r0 := by
  cases hr
  have hk := Keeps.rfl true s
  repeat' first | with_reducible assumption | intro _ | with_reducible apply State.runSlot_keeps | with_reducible apply State.xAlu_keeps

theorem execTeAdds_keeps (e : Fin 8) (s : State) {r0 : State} (hr : execTeAdds e s = .next r0) : Keeps true s r0 := by
  cases hr
  have hk := Keeps.rfl true s
  repeat' first | with_reducible assumption | intro _ | with_reducible apply State.runSlot_keeps | with_reducible apply State.xAlu_keeps

theorem execTeSubs_keeps (e : Fin 8) (s : State) {r0 : State} (hr : execTeSubs e s = .next r0) : Keeps true s r0 := by
  cases hr
  have hk := Keeps.rfl true s
  repeat' first | with_reducible assumption | intro _ | with_reducible apply State.runSlot_keeps | with_reducible apply State.xAlu_keeps

theorem execTeAnd_keeps (e : Fin 8) (s : State) {r0 : State} (hr : execTeAnd e s = .next r0) : Keeps true s r0 := by
  cases hr
  have hk := Keeps.rfl true s
  repeat' first | with_reducible assumption | intro _ | with_reducible apply State.runSlot_keeps | with_reducible apply State.xAlu_keeps

theorem execTeOr_keeps (e : Fin 8) (s : State) {r0 : State} (hr : execTeOr e s = .next r0) : Keeps true s r0 := by
  cases hr
  have hk := Keeps.rfl true s
  repeat' first | with_reducible assumption | intro _ | with_reducible apply State.runSlot_keeps | with_reducible apply State.xAlu_keeps

theorem execTeXor_keeps (e : Fin 8) (s : State) {r0 : State} (hr : execTeXor e s = .next r0) : Keeps true s r0 := by
  cases hr
  have hk := Keeps.rfl true s
  repeat' first | with_reducible assumption | intro _ | with_reducible apply State.runSlot_keeps | with_reducible apply State.xAlu_keeps

theorem execTeMin_keeps (e : Fin 8) (s : State) {r0 : State} (hr : execTeMin e s = .next r0) : Keeps true s r0 := by
  cases hr
  have hk := Keeps.rfl true s
  repeat' first | with_reducible assumption | intro _ | with_reducible apply State.runSlot_keeps | with_reducible apply State.xAlu_keeps

theorem execTeMax_keeps (e : Fin 8) (s : State) {r0 : State} (hr : execTeMax e s = .next r0) : Keeps true s r0 := by
  cases hr
  have hk := Keeps.rfl true s
  repeat' first | with_reducible assumption | intro _ | with_reducible apply State.runSlot_keeps | with_reducible apply State.xAlu_keeps

theorem execTeMinu_keeps (e : Fin 8) (s : State) {r0 : State} (hr : execTeMinu e s = .next r0) : Keeps true s r0 := by
  cases hr
  have hk := Keeps.rfl true s
  repeat' first | with_reducible assumption | intro _ | with_reducible apply State.runSlot_keeps | with_reducible apply State.xAlu_keeps

theorem execTeMaxu_keeps (e : Fin 8) (s : State) {r0 : State} (hr : execTeMaxu e s = .next r0) : Keeps true s r0 := by
  cases hr
  have hk := Keeps.rfl true s
  repeat' first | with_reducible assumption | intro _ | with_reducible apply State.runSlot_keeps | with_reducible apply State.xAlu_keeps

theorem execTeAsr_keeps (e : Fin 8) (s : State) {r0 : State} (hr : execTeAsr e s = .next r0) : Keeps true s r0 := by
  cases hr
  have hk := Keeps.rfl true s
  repeat' first | with_reducible assumption | intro _ | with_reducible apply State.runSlot_keeps | with_reducible apply State.xAsr_keeps

theorem execTeLsr_keeps (e : Fin 8) (s : State) {r0 : State} (hr : execTeLsr e s = .next r0) : Keeps true s r0 := by
  cases hr
  have hk := Keeps.rfl true s
  repeat' first | with_reducible assumption | intro _ | with_reducible apply State.runSlot_keeps | with_reducible apply State.xLsr_keeps

theorem execTeLsl_keeps (e : Fin 8) (s : State) {r0 : State} (hr : execTeLsl e s = .next r0) : Keeps true s r0 := by
  cases hr
  have hk := Keeps.rfl true s
  repeat' first | with_reducible assumption | intro _ | with_reducible apply State.runSlot_keeps | with_reducible apply State.xLsl_keeps

theorem execTeAbs_keeps (e : Fin 8) (s : State) {r0 : State} (hr : execTeAbs e s = .next r0) : Keeps true s r0 := by
  cases hr
  have hk := Keeps.rfl true s
  repeat' first | with_reducible assumption | intro _ | with_reducible apply State.runSlot_keeps | with_reducible apply State.xUn_keeps

theorem execTeNeg_keeps (e : Fin 8) (s : State) {r0 : State} (hr : execTeNeg e s = .next r0) : Keeps true s r0 := by
  cases hr
  have hk := Keeps.rfl true s
  repeat' first | with_reducible assumption | intro _ | with_reducible apply State.runSlot_keeps | with_reducible apply State.xUn_keeps

theorem execTeCmp_keeps (e : Fin 8) (s : State) {r0 : State} (hr : execTeCmp e s = .next r0) : Keeps true s r0 := by
  cases hr
  have hk := Keeps.rfl true s
  repeat' first | with_reducible assumption | intro _ | with_reducible apply State.runSlot_keeps | with_reducible apply State.xCmp_keeps

theorem execTeFop_keeps (e : Fin 8) (s : State) {r0 : State} (hr : execTeFop e s = .next r0) : Keeps true s r0 := by
  cases hr
  have hk := Keeps.rfl true s
  repeat' first | with_reducible assumption | intro _ | with_reducible apply State.runSlot_keeps | with_reducible apply State.xFop_keeps

theorem execTeFset_keeps (e : Fin 8) (s : State) {r0 : State} (hr : execTeFset e s = .next r0) : Keeps true s r0 := by
  cases hr
  have hk := Keeps.rfl true s
  repeat' first | with_reducible assumption | intro _ | with_reducible apply State.runSlot_keeps | with_reducible apply State.xFset_keeps

theorem execTeAmov_keeps (e : Fin 8) (s : State) {r0 : State} (hr : execTeAmov e s = .next r0) : Keeps true s r0 := by
  cases hr
  have hk := Keeps.rfl true s
  repeat' first | with_reducible assumption | intro _ | with_reducible apply State.runSlot_keeps | with_reducible apply State.xAmov_keeps

theorem execTeAint_keeps (e : Fin 8) (s : State) {r0 : State} (hr : execTeAint e s = .next r0) : Keeps true s r0 := by
  cases hr
  have hk := Keeps.rfl true s
  repeat' first | with_reducible assumption | intro _ | with_reducible apply State.runSlot_keeps | with_reducible apply State.xAint_keeps

theorem execTeAadd_keeps (e : Fin 8) (s : State) {r0 : State} (hr : execTeAadd e s = .next r0) : Keeps true s r0 := by
  cases hr
  have hk := Keeps.rfl true s
  repeat' first | with_reducible assumption | intro _ | with_reducible apply State.runSlot_keeps | with_reducible apply State.xAadd_keeps

theorem execTeAccld_keeps (e : Fin 8) (s : State) {r0 : State} (hr : execTeAccld e s = .next r0) : Keeps true s r0 := by
  cases hr
  have hk := Keeps.rfl true s
  repeat' first | with_reducible assumption | intro _ | with_reducible apply State.runSlot_keeps | with_reducible apply State.xAccld_keeps

theorem execTeAccadd_keeps (e : Fin 8) (s : State) {r0 : State} (hr : execTeAccadd e s = .next r0) : Keeps true s r0 := by
  cases hr
  have hk := Keeps.rfl true s
  repeat' first | with_reducible assumption | intro _ | with_reducible apply State.runSlot_keeps | with_reducible apply State.xAccadd_keeps

theorem execTeEmit_keeps (e : Fin 8) (s : State) {r0 : State} (hr : execTeEmit e s = .next r0) : Keeps true s r0 := by
  cases hr
  have hk := Keeps.rfl true s
  repeat' first | with_reducible assumption | intro _ | with_reducible apply State.runSlot_keeps | with_reducible apply State.xEmit_keeps

end Sys2Proof.Machine
end

