-- ==== Sys2Proof/Laws/Keep/Perm.lean ====
section
/-! SUPPORT. What the helpers and meanings of Machine/Perm.lean keep. -/

namespace Sys2Proof.Machine

theorem State.guard_keeps {k0 : Bool} {b0 : State} {s : State} (w : Option Bool) (f : State → State) (h : Keeps k0 b0 s)
    (hf : ∀ t, Keeps k0 b0 t → Keeps k0 b0 (f t)) : Keeps k0 b0 (s.guard w f) := by
  have k : ∀ r, Keeps k0 b0 { s with resp := r } := fun r => Keeps.mk1 h rfl rfl
  unfold State.guard
  split
  · exact hf _ (k _)
  · exact k _
  · exact k _

end Sys2Proof.Machine
end

