-- ==== Sys2Proof/Laws/Keep/Use.lean ====
section
/-! SUPPORT. What the helpers and meanings of Machine/Use.lean keep. -/

namespace Sys2Proof.Machine

theorem State.recomputeUse_keeps {k0 : Bool} {b0 : State} {s : State} (t : Tab) (hk : Keeps k0 b0 s) : Keeps k0 b0 (State.recomputeUse s t) := by
  unfold State.recomputeUse
  repeat' first | with_reducible assumption | intro _ | with_reducible apply State.put_keeps | split

theorem State.useSync_keeps {k0 : Bool} {b0 : State} {s : State} (hk : Keeps k0 b0 s) : Keeps k0 b0 (State.useSync s) := by
  unfold State.useSync
  repeat' first | with_reducible assumption | intro _ | with_reducible apply State.put_keeps | with_reducible apply Keeps.ite

end Sys2Proof.Machine
end

