-- ==== Sys2Proof/Laws/Keep/Engine.lean ====
section
/-! SUPPORT. What the helpers and meanings of Machine/Engine.lean keep. -/

namespace Sys2Proof.Machine

theorem State.setTe_keeps {k0 : Bool} {b0 : State} {s : State} (e v : Nat) (hk : Keeps k0 b0 s) : Keeps k0 b0 (State.setTe s e v) := by
  unfold State.setTe
  repeat' first | with_reducible assumption | intro _ | with_reducible apply State.put_keeps

theorem State.startReq_keeps {k0 : Bool} {b0 : State} {s : State} (e : Nat) (hk : Keeps k0 b0 s) : Keeps k0 b0 (State.startReq s e) := by
  unfold State.startReq
  repeat' first | with_reducible assumption | intro _ | with_reducible apply State.put_keeps | with_reducible apply State.setTe_keeps | with_reducible apply State.setEng_keeps | with_reducible apply Keeps.ite | with_reducible rfl | split | with_reducible apply Keeps.mk1

theorem State.stopReq_keeps {k0 : Bool} {b0 : State} {s : State} (e : Nat) (hk : Keeps k0 b0 s) : Keeps k0 b0 (State.stopReq s e) := by
  unfold State.stopReq
  repeat' first | with_reducible assumption | intro _ | with_reducible apply State.put_keeps | with_reducible apply State.setTe_keeps | with_reducible apply State.useSync_keeps | with_reducible apply Keeps.ite | split

theorem State.beginRun_keeps {k0 : Bool} {b0 : State} {s : State} (e : Nat) (hk : Keeps k0 b0 s) : Keeps k0 b0 (State.beginRun s e) := by
  unfold State.beginRun
  repeat' first | with_reducible assumption | intro _ | with_reducible apply State.setEng_keeps | with_reducible apply Keeps.ite | with_reducible rfl | with_reducible apply Keeps.mk1

theorem State.startNow_keeps {k0 : Bool} {b0 : State} {s : State} (e : Nat) (hk : Keeps k0 b0 s) : Keeps k0 b0 (State.startNow s e) := by
  unfold State.startNow
  repeat' first | with_reducible assumption | intro _ | with_reducible apply State.setTe_keeps | with_reducible apply State.beginRun_keeps | with_reducible apply Keeps.ite | with_reducible rfl | with_reducible apply Keeps.mk1

theorem State.stopNow_keeps {k0 : Bool} {b0 : State} {s : State} (e : Nat) (hk : Keeps k0 b0 s) : Keeps k0 b0 (State.stopNow s e) := by
  unfold State.stopNow
  repeat' first | with_reducible assumption | intro _ | with_reducible apply State.put_keeps | with_reducible apply State.setTe_keeps | with_reducible apply State.setEng_keeps | with_reducible rfl | with_reducible apply Keeps.mk1

theorem State.clearEngine_keeps {k0 : Bool} {b0 : State} {s : State} (e : Nat) (hk : Keeps k0 b0 s) : Keeps k0 b0 (State.clearEngine s e) := by
  unfold State.clearEngine
  repeat' first | with_reducible assumption | intro _ | with_reducible apply State.memClear_keeps | with_reducible apply State.setEng_keeps | with_reducible rfl | with_reducible apply Keeps.mk1

theorem State.clrReq_keeps {k0 : Bool} {b0 : State} {s : State} (e : Nat) (hk : Keeps k0 b0 s) : Keeps k0 b0 (State.clrReq s e) := by
  unfold State.clrReq
  repeat' first | with_reducible assumption | intro _ | with_reducible apply State.put_keeps | with_reducible apply State.setEng_keeps | with_reducible apply Keeps.ite | with_reducible rfl | with_reducible apply Keeps.mk1

theorem State.holdWrite_keeps {k0 : Bool} {b0 : State} {s : State} (e : Nat) (on : Bool) (hk : Keeps k0 b0 s) : Keeps k0 b0 (State.holdWrite s e on) := by
  unfold State.holdWrite
  repeat' first | with_reducible assumption | intro _ | with_reducible apply State.put_keeps | with_reducible apply State.setEng_keeps | with_reducible apply Keeps.ite | with_reducible rfl | split | with_reducible apply Keeps.mk1

theorem State.domainWrite_keeps {k0 : Bool} {b0 : State} {s : State} (e v : Nat) (hk : Keeps k0 b0 s) : Keeps k0 b0 (State.domainWrite s e v) := by
  unfold State.domainWrite
  repeat' first | with_reducible assumption | intro _ | with_reducible apply State.put_keeps | with_reducible apply Keeps.ite

theorem State.teCtrlWrite_keeps {k0 : Bool} {b0 : State} {s : State} (e : Nat) (v : Word) (hk : Keeps k0 b0 s) : Keeps k0 b0 (State.teCtrlWrite s e v) := by
  unfold State.teCtrlWrite
  repeat' first | with_reducible assumption | intro _ | with_reducible apply State.domainWrite_keeps | with_reducible apply State.holdWrite_keeps | with_reducible apply State.clrReq_keeps | with_reducible apply State.startReq_keeps | with_reducible apply State.stopReq_keeps | with_reducible apply Keeps.ite

theorem State.progLenWrite_keeps {k0 : Bool} {b0 : State} {s : State} (e : Nat) (v : Word) (hk : Keeps k0 b0 s) : Keeps k0 b0 (State.progLenWrite s e v) := by
  unfold State.progLenWrite
  repeat' first | with_reducible assumption | intro _ | with_reducible apply State.put_keeps | with_reducible apply Keeps.ite | split

theorem State.livePut_keeps {k0 : Bool} {b0 : State} {s : State} (k e w : Nat) (v : Word) (hk : Keeps k0 b0 s) : Keeps k0 b0 (State.livePut s k e w v) := by
  unfold State.livePut
  repeat' first | with_reducible assumption | intro _ | with_reducible apply State.noteWriter_keeps | with_reducible apply State.setEng_keeps | with_reducible apply Keeps.ite | with_reducible rfl | split | with_reducible apply Keeps.mk1

theorem State.liveWrite_keeps {k0 : Bool} {b0 : State} {s : State} (k e w : Nat) (v : Word) (hk : Keeps k0 b0 s) : Keeps k0 b0 (State.liveWrite s k e w v) := by
  unfold State.liveWrite
  repeat' first | with_reducible assumption | intro _ | with_reducible apply State.livePut_keeps | (with_reducible apply Keeps.fold)

theorem State.liveLoad_keeps {k0 : Bool} {b0 : State} {s : State} (e : Nat) (hk : Keeps k0 b0 s) : Keeps k0 b0 (State.liveLoad s e) := by
  unfold State.liveLoad
  repeat' first | with_reducible assumption | intro _ | with_reducible apply State.setEng_keeps | with_reducible apply Keeps.ite | with_reducible rfl | with_reducible apply Keeps.mk1

theorem State.pmemWrite_keeps {k0 : Bool} {b0 : State} {s : State} (e off : Nat) (v : Word) (hk : Keeps k0 b0 s) : Keeps k0 b0 (State.pmemWrite s e off v) := by
  unfold State.pmemWrite
  repeat' first | with_reducible assumption | intro _ | with_reducible apply State.ww_keeps | with_reducible apply State.put_keeps | with_reducible apply Keeps.ite | split

theorem State.dlyFabWrite_keeps {k0 : Bool} {b0 : State} {s : State} (e p : Nat) (v : Word) (hk : Keeps k0 b0 s) : Keeps k0 b0 (State.dlyFabWrite s e p v) := by
  unfold State.dlyFabWrite
  repeat' first | with_reducible assumption | intro _ | with_reducible apply State.dlyWr_keeps | with_reducible apply State.dlyDirty_keeps | with_reducible apply Keeps.ite | with_reducible rfl | split | with_reducible apply Keeps.mk1

theorem State.mirrorLand_keeps {k0 : Bool} {b0 : State} {s : State} (hk : Keeps k0 b0 s) : Keeps k0 b0 (State.mirrorLand s) := by
  unfold State.mirrorLand
  repeat' first | with_reducible assumption | intro _ | with_reducible apply State.dlyWr_keeps | with_reducible apply State.dlyDirty_keeps | with_reducible rfl | split | with_reducible apply Keeps.mk1

theorem execEngineStartRequest_keeps (_m : Master) (e : Fin 8) (cyc : Nat) (s : State) {r0 : State} (hr : execEngineStartRequest _m e cyc s = .next r0) : Keeps false s r0 := by
  cases hr
  have hk := Keeps.rfl false s
  repeat' first | with_reducible assumption | intro _ | with_reducible apply State.atCyc_keeps | with_reducible apply State.ok_keeps | with_reducible apply State.startReq_keeps

theorem execEngineStart_keeps (e : Fin 8) (s : State) {r0 : State} (hr : execEngineStart e s = .next r0) : Keeps true s r0 := by
  cases hr
  have hk := Keeps.rfl true s
  repeat' first | with_reducible assumption | intro _ | with_reducible apply State.startNow_keeps | with_reducible apply Keeps.ite | with_reducible apply Keeps.ite2

theorem execEngineStopRequest_keeps (_m : Master) (e : Fin 8) (cyc : Nat) (s : State) {r0 : State} (hr : execEngineStopRequest _m e cyc s = .next r0) : Keeps false s r0 := by
  cases hr
  have hk := Keeps.rfl false s
  repeat' first | with_reducible assumption | intro _ | with_reducible apply State.atCyc_keeps | with_reducible apply State.ok_keeps | with_reducible apply State.stopReq_keeps

theorem execLiveHold_keeps (_m : Master) (e : Fin 8) (on : Bool) (cyc : Nat) (s : State) {r0 : State} (hr : execLiveHold _m e on cyc s = .next r0) : Keeps false s r0 := by
  cases hr
  have hk := Keeps.rfl false s
  repeat' first | with_reducible assumption | intro _ | with_reducible apply State.atCyc_keeps | with_reducible apply State.ok_keeps | with_reducible apply State.holdWrite_keeps

theorem execClrstate_keeps (_m : Master) (e : Fin 8) (s : State) {r0 : State} (hr : execClrstate _m e s = .next r0) : Keeps true s r0 := by
  cases hr
  have hk := Keeps.rfl true s
  repeat' first | with_reducible assumption | intro _ | with_reducible apply State.ok_keeps | with_reducible apply State.clrReq_keeps

theorem State.clearDone_keeps {k0 : Bool} {b0 : State} {s : State} (e : Nat) (hk : Keeps k0 b0 s) : Keeps k0 b0 (State.clearDone s e) := by
  unfold State.clearDone
  repeat' first | with_reducible assumption | intro _ | with_reducible apply State.clearEngine_keeps | with_reducible apply State.put_keeps | with_reducible apply State.setEng_keeps | with_reducible apply Keeps.ite | with_reducible rfl | split | with_reducible apply Keeps.mk1

theorem execEngineClearDone_keeps (e : Fin 8) (s : State) {r0 : State} (hr : execEngineClearDone e s = .next r0) : Keeps true s r0 := by
  cases hr
  have hk := Keeps.rfl true s
  repeat' first | with_reducible assumption | intro _ | with_reducible apply State.clearDone_keeps | with_reducible apply Keeps.ite | with_reducible apply Keeps.ite2

theorem execProgramMemoryWrite_keeps (_m : Master) (e : Fin 8) (off : Nat) (v : Word) (s : State) {r0 : State} (hr : execProgramMemoryWrite _m e off v s = .next r0) : Keeps true s r0 := by
  cases hr
  have hk := Keeps.rfl true s
  repeat' first | with_reducible assumption | intro _ | with_reducible apply State.ok_keeps | with_reducible apply State.pmemWrite_keeps

theorem execLiveWordWrite_keeps (m : Master) (e : Fin 8) (w : Fin 16) (v : Word) (cyc : Nat) (s : State) {r0 : State} (hr : execLiveWordWrite m e w v cyc s = .next r0) : Keeps false s r0 := by
  cases hr
  have hk := Keeps.rfl false s
  repeat' first | with_reducible assumption | intro _ | with_reducible apply State.atCyc_keeps | with_reducible apply State.guard_keeps | with_reducible apply State.liveWrite_keeps

theorem execMirrorRingWrite_keeps (s : State) {r0 : State} (hr : execMirrorRingWrite s = .next r0) : Keeps true s r0 := by
  cases hr
  have hk := Keeps.rfl true s
  repeat' first | with_reducible assumption | intro _ | with_reducible apply State.mirrorLand_keeps

end Sys2Proof.Machine
end

