-- ==== Sys2Proof/Laws/Keep/Mordant.lean ====
section
/-! SUPPORT. What the helpers and meanings of Machine/Mordant.lean keep. -/

namespace Sys2Proof.Machine

theorem State.shPut_keeps {k0 : Bool} {b0 : State} {s : State} (a : Nat) (v : Word) (hk : Keeps k0 b0 s) : Keeps k0 b0 (State.shPut s a v) := by
  unfold State.shPut
  repeat' first | with_reducible assumption | intro _ | with_reducible apply State.ww_keeps | with_reducible apply State.wr_keeps | with_reducible apply Keeps.ite | with_reducible rfl | split | with_reducible apply Keeps.mk1

theorem State.shLand_keeps {k0 : Bool} {b0 : State} {s : State} (a : Nat) (v : Word) (hk : Keeps k0 b0 s) : Keeps k0 b0 (State.shLand s a v) := by
  unfold State.shLand
  repeat' first | with_reducible assumption | intro _ | with_reducible apply State.shPut_keeps | with_reducible apply Keeps.ite | (with_reducible apply Keeps.fold) | with_reducible rfl | with_reducible apply Keeps.mk1

theorem State.shWrite_keeps {k0 : Bool} {b0 : State} {s : State} (m : Master) (a : Nat) (v : Word) (hk : Keeps k0 b0 s) : Keeps k0 b0 (State.shWrite s m a v) := by
  unfold State.shWrite
  repeat' first | with_reducible assumption | intro _ | with_reducible apply State.ok_keeps | with_reducible apply State.setIf_keeps | with_reducible apply State.shLand_keeps | with_reducible apply Keeps.ite | with_reducible rfl | split | with_reducible apply Keeps.mk1

theorem State.acceptReq_keeps {k0 : Bool} {b0 : State} {s : State} (q seq mask : Nat) (hk : Keeps k0 b0 s) : Keeps k0 b0 (State.acceptReq s q seq mask) := by
  unfold State.acceptReq
  repeat' first | with_reducible assumption | intro _ | with_reducible apply State.put_keeps | with_reducible rfl | with_reducible apply Keeps.mk1

theorem State.commitReq_keeps {k0 : Bool} {b0 : State} {s : State} (m : Master) (seq mask : Nat) (hk : Keeps k0 b0 s) : Keeps k0 b0 (State.commitReq s m seq mask) := by
  unfold State.commitReq
  repeat' first | with_reducible assumption | intro _ | with_reducible apply State.ok_keeps | with_reducible apply State.denied_keeps | with_reducible apply State.put_keeps | with_reducible apply State.acceptReq_keeps | with_reducible apply Keeps.ite | with_reducible rfl | split | with_reducible apply Keeps.mk1

theorem State.reconcileCopy_keeps {k0 : Bool} {b0 : State} {s : State} (mask : Nat) (hk : Keeps k0 b0 s) : Keeps k0 b0 (State.reconcileCopy s mask) := by
  unfold State.reconcileCopy
  repeat' first | with_reducible assumption | intro _ | with_reducible apply State.shPut_keeps | (with_reducible apply Keeps.fold) | with_reducible rfl | split | with_reducible apply Keeps.mk1

theorem State.reconShow_keeps {k0 : Bool} {b0 : State} {s : State} (hk : Keeps k0 b0 s) : Keeps k0 b0 (State.reconShow s) := by
  unfold State.reconShow
  repeat' first | with_reducible assumption | intro _ | with_reducible apply State.put_keeps | with_reducible rfl | split | with_reducible apply Keeps.mk1

theorem State.landHeld_keeps {k0 : Bool} {b0 : State} {s : State} (hk : Keeps k0 b0 s) : Keeps k0 b0 (State.landHeld s) := by
  unfold State.landHeld
  repeat' first | with_reducible assumption | intro _ | with_reducible apply State.shLand_keeps | (with_reducible apply Keeps.fold) | with_reducible rfl | split | with_reducible apply Keeps.mk1 | with_reducible apply Keeps.mk2

theorem State.reconEnd_keeps {k0 : Bool} {b0 : State} {s : State} (hk : Keeps k0 b0 s) : Keeps k0 b0 (State.reconEnd s) := by
  unfold State.reconEnd
  repeat' first | with_reducible assumption | intro _ | with_reducible apply State.reconcileCopy_keeps | with_reducible apply State.reconShow_keeps | with_reducible apply State.landHeld_keeps | with_reducible rfl | split | with_reducible apply Keeps.mk1

theorem State.swapEngine_keeps {k0 : Bool} {b0 : State} {s : State} (e : Nat) (hk : Keeps k0 b0 s) : Keeps k0 b0 (State.swapEngine s e) := by
  unfold State.swapEngine
  repeat' first | with_reducible assumption | intro _ | with_reducible apply State.memSwap_keeps | with_reducible apply State.wr_keeps | with_reducible apply State.setIf_keeps | (with_reducible apply Keeps.fold) | with_reducible rfl | with_reducible apply Keeps.mk1

theorem State.glideStep_keeps {k0 : Bool} {b0 : State} {s : State} (e : Nat) (hk : Keeps k0 b0 s) : Keeps k0 b0 (State.glideStep s e) := by
  unfold State.glideStep
  repeat' first | with_reducible assumption | intro _ | with_reducible apply Keeps.ite | with_reducible rfl | with_reducible apply Keeps.mk1

theorem State.ovrSet_keeps {k0 : Bool} {b0 : State} {s : State} (a : Nat) (v : Word) (hk : Keeps k0 b0 s) : Keeps k0 b0 (State.ovrSet s a v) := by
  unfold State.ovrSet
  repeat' first | with_reducible assumption | intro _ | with_reducible apply State.wr_keeps | with_reducible apply Keeps.ite | with_reducible rfl | with_reducible apply Keeps.mk1

theorem State.ovrTrim_keeps {k0 : Bool} {b0 : State} {s : State} (hk : Keeps k0 b0 s) : Keeps k0 b0 (State.ovrTrim s) := by
  unfold State.ovrTrim
  repeat' first | with_reducible assumption | intro _ | with_reducible rfl | with_reducible apply Keeps.mk1

theorem State.ovrPut_keeps {k0 : Bool} {b0 : State} {s : State} (k i : Nat) (v : Word) (hk : Keeps k0 b0 s) : Keeps k0 b0 (State.ovrPut s k i v) := by
  unfold State.ovrPut
  repeat' first | with_reducible assumption | intro _ | with_reducible apply State.noteWriter_keeps | with_reducible apply State.ovrSet_keeps | with_reducible apply Keeps.ite

theorem State.ovrWordWrite_keeps {k0 : Bool} {b0 : State} {s : State} (m : Master) (i : Nat) (v : Word) (hk : Keeps k0 b0 s) : Keeps k0 b0 (State.ovrWordWrite s m i v) := by
  unfold State.ovrWordWrite
  repeat' first | with_reducible assumption | intro _ | with_reducible apply State.guard_keeps | with_reducible apply State.ovrPut_keeps

theorem State.ovrSinkWrite_keeps {k0 : Bool} {b0 : State} {s : State} (m : Master) (i : Nat) (v : Word) (hk : Keeps k0 b0 s) : Keeps k0 b0 (State.ovrSinkWrite s m i v) := by
  unfold State.ovrSinkWrite
  repeat' first | with_reducible assumption | intro _ | with_reducible apply State.guard_keeps | with_reducible apply State.ovrSet_keeps

theorem State.actWrite_keeps {k0 : Bool} {b0 : State} {s : State} (hk : Keeps k0 b0 s) : Keeps k0 b0 (State.actWrite s) := by
  unfold State.actWrite
  repeat' first | with_reducible assumption | intro _ | with_reducible apply State.ok_keeps | with_reducible apply State.put_keeps

theorem execCommitRequest_keeps (m : Master) (seq mask cyc : Nat) (s : State) {r0 : State} (hr : execCommitRequest m seq mask cyc s = .next r0) : Keeps false s r0 := by
  cases hr
  have hk := Keeps.rfl false s
  repeat' first | with_reducible assumption | intro _ | with_reducible apply State.atCyc_keeps | with_reducible apply State.commitReq_keeps

theorem execReconcileEnd_keeps (s : State) {r0 : State} (hr : execReconcileEnd s = .next r0) : Keeps true s r0 := by
  cases hr
  have hk := Keeps.rfl true s
  repeat' first | with_reducible assumption | intro _ | with_reducible apply State.reconEnd_keeps

theorem execShadowWrite_keeps (m : Master) (a v : Word) (s : State) {r0 : State} (hr : execShadowWrite m a v s = .next r0) : Keeps true s r0 := by
  cases hr
  have hk := Keeps.rfl true s
  repeat' first | with_reducible assumption | intro _ | with_reducible apply State.shWrite_keeps

theorem execActiveViewWrite_keeps (_m : Master) (a _v : Word) (s : State) {r0 : State} (hr : execActiveViewWrite _m a _v s = .next r0) : Keeps true s r0 := by
  cases hr
  have hk := Keeps.rfl true s
  repeat' first | with_reducible assumption | intro _ | with_reducible apply State.actWrite_keeps | with_reducible apply Keeps.ite | with_reducible apply Keeps.ite2

theorem execGlideEnd_keeps (e : Fin 8) (ch : Fin 64) (s : State) {r0 : State} (hr : execGlideEnd e ch s = .next r0) : Keeps true s r0 := by
  cases hr
  have hk := Keeps.rfl true s
  repeat' first | with_reducible assumption | intro _ | with_reducible apply Keeps.ite | with_reducible apply Keeps.ite2 | with_reducible rfl | with_reducible apply Keeps.mk1

theorem execOverrideWordWrite_keeps (m : Master) (i : Fin 32) (v : Word) (s : State) {r0 : State} (hr : execOverrideWordWrite m i v s = .next r0) : Keeps true s r0 := by
  cases hr
  have hk := Keeps.rfl true s
  repeat' first | with_reducible assumption | intro _ | with_reducible apply State.ovrWordWrite_keeps

theorem execOverrideSinkWrite_keeps (m : Master) (i : Fin 32) (v : Word) (s : State) {r0 : State} (hr : execOverrideSinkWrite m i v s = .next r0) : Keeps true s r0 := by
  cases hr
  have hk := Keeps.rfl true s
  repeat' first | with_reducible assumption | intro _ | with_reducible apply State.ovrSinkWrite_keeps

end Sys2Proof.Machine
end

