-- ==== Sys2Proof/Laws/Keep/Twin.lean ====
section
/-! SUPPORT. What the helpers and meanings of Machine/Twin.lean keep. -/

namespace Sys2Proof.Machine

theorem State.setMigSt_keeps {k0 : Bool} {b0 : State} {s : State} (v : Nat) (hk : Keeps k0 b0 s) : Keeps k0 b0 (State.setMigSt s v) := by
  unfold State.setMigSt
  repeat' first | with_reducible assumption | intro _ | with_reducible apply State.put_keeps

theorem State.sweepWaits_keeps {k0 : Bool} {b0 : State} {s : State} (hk : Keeps k0 b0 s) : Keeps k0 b0 (State.sweepWaits s) := by
  unfold State.sweepWaits
  repeat' first | with_reducible assumption | intro _ | with_reducible apply State.draw_keeps | with_reducible apply State.conflict_keeps

theorem State.migIdle_keeps {k0 : Bool} {b0 : State} {s : State} (hk : Keeps k0 b0 s) : Keeps k0 b0 (State.migIdle s) := by
  unfold State.migIdle
  repeat' first | with_reducible assumption | intro _ | with_reducible apply State.sweepWaits_keeps | with_reducible apply State.setMigSt_keeps | with_reducible apply State.put_keeps | with_reducible apply Keeps.ite | with_reducible rfl | split | with_reducible apply Keeps.mk1

theorem State.putAll_keeps {k0 : Bool} {b0 : State} {s : State} (l : List Fld) (hk : Keeps k0 b0 s) : Keeps k0 b0 (State.putAll s l) := by
  unfold State.putAll
  repeat' first | with_reducible assumption | intro _ | with_reducible apply State.put_keeps | (with_reducible apply Keeps.fold)

theorem State.pairStart_keeps {k0 : Bool} {b0 : State} {s : State} (p : Nat) (hk : Keeps k0 b0 s) : Keeps k0 b0 (State.pairStart s p) := by
  unfold State.pairStart
  repeat' first | with_reducible assumption | intro _ | with_reducible apply State.setMigSt_keeps | with_reducible apply State.putAll_keeps | with_reducible apply Keeps.ite | with_reducible rfl | with_reducible apply Keeps.mk1

theorem State.pairMember_keeps {k0 : Bool} {b0 : State} {s : State} (e : Nat) (hk : Keeps k0 b0 s) : Keeps k0 b0 (State.pairMember s e) := by
  unfold State.pairMember
  repeat' first | with_reducible assumption | intro _ | with_reducible apply State.put_keeps | with_reducible apply State.setEng_keeps | with_reducible apply State.setTe_keeps | with_reducible apply Keeps.ite | with_reducible rfl | split | with_reducible apply Keeps.mk1

theorem State.pairCheckDone_keeps {k0 : Bool} {b0 : State} {s : State} (hk : Keeps k0 b0 s) : Keeps k0 b0 (State.pairCheckDone s) := by
  unfold State.pairCheckDone
  repeat' first | with_reducible assumption | intro _ | with_reducible apply State.migIdle_keeps | with_reducible apply State.pairMember_keeps | with_reducible apply State.put_keeps | with_reducible apply State.putAll_keeps | with_reducible apply Keeps.ite | with_reducible rfl | with_reducible apply Keeps.mk1

theorem State.pairCancel_keeps {k0 : Bool} {b0 : State} {s : State} (p : Nat) (hk : Keeps k0 b0 s) : Keeps k0 b0 (State.pairCancel s p) := by
  unfold State.pairCancel
  repeat' first | with_reducible assumption | intro _ | with_reducible apply State.put_keeps | with_reducible apply State.setTe_keeps | with_reducible apply State.useSync_keeps | with_reducible rfl | with_reducible apply Keeps.mk1

theorem State.pairLeave_keeps {k0 : Bool} {b0 : State} {s : State} (p : Nat) (hk : Keeps k0 b0 s) : Keeps k0 b0 (State.pairLeave s p) := by
  unfold State.pairLeave
  repeat' first | with_reducible assumption | intro _ | with_reducible apply State.stopNow_keeps | with_reducible apply State.put_keeps | with_reducible apply State.useSync_keeps | with_reducible rfl | with_reducible apply Keeps.mk1

theorem State.twinOff_keeps {k0 : Bool} {b0 : State} {s : State} (p : Nat) (hk : Keeps k0 b0 s) : Keeps k0 b0 (State.twinOff s p) := by
  unfold State.twinOff
  repeat' first | with_reducible assumption | intro _ | with_reducible apply State.put_keeps | with_reducible apply State.pairCancel_keeps | with_reducible apply State.pairLeave_keeps | with_reducible apply Keeps.ite | with_reducible rfl | split | with_reducible apply Keeps.mk1

theorem State.twinOn_keeps {k0 : Bool} {b0 : State} {s : State} (p : Nat) (hk : Keeps k0 b0 s) : Keeps k0 b0 (State.twinOn s p) := by
  unfold State.twinOn
  repeat' first | with_reducible assumption | intro _ | with_reducible apply State.put_keeps | with_reducible rfl | with_reducible apply Keeps.mk1

theorem State.twinCtrlWrite_keeps {k0 : Bool} {b0 : State} {s : State} (p : Nat) (v : Word) (hk : Keeps k0 b0 s) : Keeps k0 b0 (State.twinCtrlWrite s p v) := by
  unfold State.twinCtrlWrite
  repeat' first | with_reducible assumption | intro _ | with_reducible apply State.put_keeps | with_reducible apply State.twinOn_keeps | with_reducible apply State.twinOff_keeps | with_reducible apply State.pairStart_keeps | with_reducible apply Keeps.ite

theorem State.tapWrite_keeps {k0 : Bool} {b0 : State} {s : State} (p : Nat) (hi : Bool) (v : Word) (hk : Keeps k0 b0 s) : Keeps k0 b0 (State.tapWrite s p hi v) := by
  unfold State.tapWrite
  repeat' first | with_reducible assumption | intro _ | with_reducible apply State.wr_keeps | with_reducible apply Keeps.ite

theorem State.migStart_keeps {k0 : Bool} {b0 : State} {s : State} (hk : Keeps k0 b0 s) : Keeps k0 b0 (State.migStart s) := by
  unfold State.migStart
  repeat' first | with_reducible assumption | intro _ | with_reducible apply State.putAll_keeps | with_reducible apply State.put_keeps | with_reducible apply State.setMigSt_keeps | with_reducible apply State.setEng_keeps | with_reducible apply Keeps.ite | with_reducible rfl | with_reducible apply Keeps.mk1

theorem State.migAbandon_keeps {k0 : Bool} {b0 : State} {s : State} (hk : Keeps k0 b0 s) : Keeps k0 b0 (State.migAbandon s) := by
  unfold State.migAbandon
  repeat' first | with_reducible assumption | intro _ | with_reducible apply State.migIdle_keeps | with_reducible apply State.put_keeps

theorem State.migAbort_keeps {k0 : Bool} {b0 : State} {s : State} (hk : Keeps k0 b0 s) : Keeps k0 b0 (State.migAbort s) := by
  unfold State.migAbort
  repeat' first | with_reducible assumption | intro _ | with_reducible apply State.migAbandon_keeps | with_reducible apply Keeps.ite | split

theorem State.migCtrlWrite_keeps {k0 : Bool} {b0 : State} {s : State} (v : Word) (hk : Keeps k0 b0 s) : Keeps k0 b0 (State.migCtrlWrite s v) := by
  unfold State.migCtrlWrite
  repeat' first | with_reducible assumption | intro _ | with_reducible apply State.wr_keeps | with_reducible apply State.migAbort_keeps | with_reducible apply State.migStart_keeps | with_reducible apply Keeps.ite

theorem State.migCheckDone_keeps {k0 : Bool} {b0 : State} {s : State} (hk : Keeps k0 b0 s) : Keeps k0 b0 (State.migCheckDone s) := by
  unfold State.migCheckDone
  repeat' first | with_reducible assumption | intro _ | with_reducible apply State.migIdle_keeps | with_reducible apply State.put_keeps | with_reducible apply State.setMigSt_keeps | with_reducible apply Keeps.ite | with_reducible rfl | split | with_reducible apply Keeps.mk1

theorem State.sweepCopy_keeps {k0 : Bool} {b0 : State} {s : State} (h : Keeps k0 b0 s) : Keeps k0 b0 s.sweepCopy :=
  ⟨h.pend, h.free, h.regs, fun k => spFoldAt_wf (fun x => dlyBase s.mig.y + x) _ (spFilter_wf _ (h.mem k)), h.time⟩

theorem State.sweepEnd_keeps {k0 : Bool} {b0 : State} {s : State} (hk : Keeps k0 b0 s) : Keeps k0 b0 (State.sweepEnd s) := by
  unfold State.sweepEnd
  repeat' first | with_reducible assumption | intro _ | with_reducible apply State.sweepCopy_keeps | with_reducible apply State.sweepWaits_keeps | with_reducible apply State.setMigSt_keeps | with_reducible apply State.put_keeps | with_reducible apply Keeps.ite | with_reducible rfl | split | with_reducible apply Keeps.mk1

theorem State.toCutoff_keeps {b0 : State} {s : State} (hk : Keeps false b0 s) : Keeps false b0 (State.toCutoff s) := by
  unfold State.toCutoff
  repeat' first | with_reducible assumption | intro _ | with_reducible apply State.atCyc_keeps

theorem State.handoverCutoff_keeps {b0 : State} {s : State} (hk : Keeps false b0 s) : Keeps false b0 (State.handoverCutoff s) := by
  unfold State.handoverCutoff
  repeat' first | with_reducible assumption | intro _ | with_reducible apply State.put_keeps | with_reducible apply State.toCutoff_keeps | with_reducible apply Keeps.ite | with_reducible rfl | split | with_reducible apply Keeps.mk0

theorem State.takeState_keeps {k0 : Bool} {b0 : State} {s : State} (x y : Nat) (hk : Keeps k0 b0 s) : Keeps k0 b0 (State.takeState s x y) := by
  unfold State.takeState
  repeat' first | with_reducible assumption | intro _ | with_reducible apply State.setEng_keeps | with_reducible rfl | with_reducible apply Keeps.mk1

theorem State.startRunning_keeps {k0 : Bool} {b0 : State} {s : State} (y : Nat) (hk : Keeps k0 b0 s) : Keeps k0 b0 (State.startRunning s y) := by
  unfold State.startRunning
  repeat' first | with_reducible assumption | intro _ | with_reducible apply State.put_keeps | with_reducible apply State.setTe_keeps | with_reducible apply State.beginRun_keeps

theorem State.setAlias_keeps {k0 : Bool} {b0 : State} {s : State} (x y : Nat) (hk : Keeps k0 b0 s) : Keeps k0 b0 (State.setAlias s x y) := by
  unfold State.setAlias
  repeat' first | with_reducible assumption | intro _ | with_reducible apply State.put_keeps

theorem State.keepX_keeps {k0 : Bool} {b0 : State} {s : State} (hk : Keeps k0 b0 s) : Keeps k0 b0 (State.keepX s) := by
  unfold State.keepX
  repeat' first | with_reducible assumption | intro _ | with_reducible apply State.beginRun_keeps | with_reducible apply Keeps.ite

theorem State.handover_keeps {k0 : Bool} {b0 : State} {s : State} (hk : Keeps k0 b0 s) : Keeps k0 b0 (State.handover s) := by
  unfold State.handover
  repeat' first | with_reducible assumption | intro _ | with_reducible apply State.keepX_keeps | with_reducible apply State.takeState_keeps | with_reducible apply State.startRunning_keeps | with_reducible apply State.setAlias_keeps | with_reducible apply State.setMigSt_keeps | with_reducible apply State.stopNow_keeps | with_reducible apply State.migAbandon_keeps | with_reducible apply State.useSync_keeps | with_reducible apply State.migIdle_keeps | with_reducible apply State.put_keeps | with_reducible apply Keeps.ite | with_reducible rfl | split | with_reducible apply Keeps.mk1

theorem State.aliasWrite_keeps {k0 : Bool} {b0 : State} {s : State} (v : Word) (hk : Keeps k0 b0 s) : Keeps k0 b0 (State.aliasWrite s v) := by
  unfold State.aliasWrite
  repeat' first | with_reducible assumption | intro _ | with_reducible rfl | with_reducible apply Keeps.mk1

theorem State.migDrain_keeps {k0 : Bool} {b0 : State} {s : State} (hk : Keeps k0 b0 s) : Keeps k0 b0 (State.migDrain s) := by
  unfold State.migDrain
  repeat' first | with_reducible assumption | intro _ | with_reducible apply State.put_keeps | with_reducible apply State.stopNow_keeps | with_reducible apply State.migAbandon_keeps | with_reducible apply State.pairLeave_keeps | with_reducible apply Keeps.ite | (with_reducible apply Keeps.fold) | split

theorem execPairStart_keeps (m : Master) (p : Fin 4) (s : State) {r0 : State} (hr : execPairStart m p s = .next r0) : Keeps true s r0 := by
  cases hr
  have hk := Keeps.rfl true s
  repeat' first | with_reducible assumption | intro _ | with_reducible apply State.guard_keeps | with_reducible apply State.pairStart_keeps

theorem execPairStartCheckDone_keeps (s : State) {r0 : State} (hr : execPairStartCheckDone s = .next r0) : Keeps true s r0 := by
  cases hr
  have hk := Keeps.rfl true s
  repeat' first | with_reducible assumption | intro _ | with_reducible apply State.pairCheckDone_keeps

theorem execTwinDisable_keeps (m : Master) (p : Fin 4) (s : State) {r0 : State} (hr : execTwinDisable m p s = .next r0) : Keeps true s r0 := by
  cases hr
  have hk := Keeps.rfl true s
  repeat' first | with_reducible assumption | intro _ | with_reducible apply State.guard_keeps | with_reducible apply State.twinOff_keeps

theorem execLockstepExit_keeps (p : Fin 4) (s : State) {r0 : State} (hr : execLockstepExit p s = .next r0) : Keeps true s r0 := by
  cases hr
  have hk := Keeps.rfl true s
  repeat' first | with_reducible assumption | intro _ | with_reducible apply State.pairLeave_keeps | with_reducible apply Keeps.ite | with_reducible apply Keeps.ite2

theorem execMigrationMove_keeps (m : Master) (v : Word) (s : State) {r0 : State} (hr : execMigrationMove m v s = .next r0) : Keeps true s r0 := by
  cases hr
  have hk := Keeps.rfl true s
  repeat' first | with_reducible assumption | intro _ | with_reducible apply State.guard_keeps | with_reducible apply State.migCtrlWrite_keeps | with_reducible apply Keeps.ite | with_reducible apply Keeps.ite2

theorem execTwinJoin_keeps (m : Master) (v : Word) (s : State) {r0 : State} (hr : execTwinJoin m v s = .next r0) : Keeps true s r0 := by
  cases hr
  have hk := Keeps.rfl true s
  repeat' first | with_reducible assumption | intro _ | with_reducible apply State.guard_keeps | with_reducible apply State.migCtrlWrite_keeps | with_reducible apply Keeps.ite | with_reducible apply Keeps.ite2

theorem execLateStart_keeps (m : Master) (v : Word) (s : State) {r0 : State} (hr : execLateStart m v s = .next r0) : Keeps true s r0 := by
  cases hr
  have hk := Keeps.rfl true s
  repeat' first | with_reducible assumption | intro _ | with_reducible apply State.guard_keeps | with_reducible apply State.migCtrlWrite_keeps | with_reducible apply Keeps.ite | with_reducible apply Keeps.ite2

theorem execMigrationAbort_keeps (m : Master) (s : State) {r0 : State} (hr : execMigrationAbort m s = .next r0) : Keeps true s r0 := by
  cases hr
  have hk := Keeps.rfl true s
  repeat' first | with_reducible assumption | intro _ | with_reducible apply State.guard_keeps | with_reducible apply State.migAbort_keeps

theorem execMigrationCheckDone_keeps (s : State) {r0 : State} (hr : execMigrationCheckDone s = .next r0) : Keeps true s r0 := by
  cases hr
  have hk := Keeps.rfl true s
  repeat' first | with_reducible assumption | intro _ | with_reducible apply State.migCheckDone_keeps

theorem execSweepEnd_keeps (s : State) {r0 : State} (hr : execSweepEnd s = .next r0) : Keeps true s r0 := by
  cases hr
  have hk := Keeps.rfl true s
  repeat' first | with_reducible assumption | intro _ | with_reducible apply State.sweepEnd_keeps

theorem execHandoverCutoff_keeps (s : State) {r0 : State} (hr : execHandoverCutoff s = .next r0) : Keeps false s r0 := by
  cases hr
  have hk := Keeps.rfl false s
  repeat' first | with_reducible assumption | intro _ | with_reducible apply State.handoverCutoff_keeps

theorem execHandover_keeps (s : State) {r0 : State} (hr : execHandover s = .next r0) : Keeps true s r0 := by
  cases hr
  have hk := Keeps.rfl true s
  repeat' first | with_reducible assumption | intro _ | with_reducible apply State.handover_keeps

theorem execMigAliasWrite_keeps (m : Master) (v : Word) (s : State) {r0 : State} (hr : execMigAliasWrite m v s = .next r0) : Keeps true s r0 := by
  cases hr
  have hk := Keeps.rfl true s
  repeat' first | with_reducible assumption | intro _ | with_reducible apply State.guard_keeps | with_reducible apply State.aliasWrite_keeps

end Sys2Proof.Machine
end

