-- ==== Sys2Proof/Laws/Keep/Gen.lean ====
section
/-! SUPPORT. What the helpers and meanings of Machine/Gen.lean keep. -/

namespace Sys2Proof.Machine

theorem State.setTg_keeps {k0 : Bool} {b0 : State} {s : State} (g : Nat) (x : Tg) (hk : Keeps k0 b0 s) : Keeps k0 b0 (State.setTg s g x) := by
  unfold State.setTg
  repeat' first | with_reducible assumption | intro _ | with_reducible rfl | with_reducible apply Keeps.mk1

theorem State.tgNext_keeps {k0 : Bool} {b0 : State} {s : State} (g : Nat) (hk : Keeps k0 b0 s) : Keeps k0 b0 (State.tgNext s g) := by
  unfold State.tgNext
  repeat' first | with_reducible assumption | intro _ | with_reducible apply State.setTg_keeps | with_reducible apply Keeps.ite | with_reducible rfl | with_reducible apply Keeps.mk1

theorem State.tgTick_keeps {k0 : Bool} {b0 : State} {s : State} (d : RDom) (hk : Keeps k0 b0 s) : Keeps k0 b0 (State.tgTick s d) := by
  unfold State.tgTick
  repeat' first | with_reducible assumption | intro _ | with_reducible apply State.tgNext_keeps | with_reducible apply State.setTg_keeps | with_reducible apply Keeps.ite | (with_reducible apply Keeps.fold) | with_reducible rfl | with_reducible apply Keeps.mk1

theorem State.tgStop_keeps {k0 : Bool} {b0 : State} {s : State} (g : Nat) (hk : Keeps k0 b0 s) : Keeps k0 b0 (State.tgStop s g) := by
  unfold State.tgStop
  repeat' first | with_reducible assumption | intro _ | with_reducible apply State.setTg_keeps | with_reducible rfl | with_reducible apply Keeps.mk1

theorem State.tgCfgWrite_keeps {k0 : Bool} {b0 : State} {s : State} (g : Nat) (v : Word) (hk : Keeps k0 b0 s) : Keeps k0 b0 (State.tgCfgWrite s g v) := by
  unfold State.tgCfgWrite
  repeat' first | with_reducible assumption | intro _ | with_reducible apply State.wr_keeps | with_reducible apply State.tgStop_keeps | with_reducible apply State.setTg_keeps | with_reducible apply State.useSync_keeps | with_reducible apply Keeps.ite | with_reducible rfl | with_reducible apply Keeps.mk1

theorem State.tgStepWrite_keeps {k0 : Bool} {b0 : State} {s : State} (g : Nat) (v : Word) (hk : Keeps k0 b0 s) : Keeps k0 b0 (State.tgStepWrite s g v) := by
  unfold State.tgStepWrite
  repeat' first | with_reducible assumption | intro _ | with_reducible apply State.wr_keeps

theorem State.tgEpoch_keeps {k0 : Bool} {b0 : State} {s : State} (hk : Keeps k0 b0 s) : Keeps k0 b0 (State.tgEpoch s) := by
  unfold State.tgEpoch
  repeat' first | with_reducible assumption | intro _ | with_reducible apply State.tgStop_keeps | with_reducible apply State.tgTick_keeps | (with_reducible apply Keeps.fold)

theorem execTestGeneratorConfig_keeps (_m : Master) (g : Fin 8) (v : Word) (s : State) {r0 : State} (hr : execTestGeneratorConfig _m g v s = .next r0) : Keeps true s r0 := by
  cases hr
  have hk := Keeps.rfl true s
  repeat' first | with_reducible assumption | intro _ | with_reducible apply State.ok_keeps | with_reducible apply State.tgCfgWrite_keeps

theorem execTestGeneratorStep_keeps (_m : Master) (g : Fin 8) (v : Word) (s : State) {r0 : State} (hr : execTestGeneratorStep _m g v s = .next r0) : Keeps true s r0 := by
  cases hr
  have hk := Keeps.rfl true s
  repeat' first | with_reducible assumption | intro _ | with_reducible apply State.ok_keeps | with_reducible apply State.tgStepWrite_keeps

end Sys2Proof.Machine
end

