-- ==== Sys2Proof/Laws/Keep/Domain.lean ====
section
/-! SUPPORT. What the helpers and meanings of Machine/Domain.lean keep. -/

namespace Sys2Proof.Machine

theorem State.applyClear_keeps {k0 : Bool} {b0 : State} {s : State} (hk : Keeps k0 b0 s) : Keeps k0 b0 (State.applyClear s) := by
  unfold State.applyClear
  repeat' first | with_reducible assumption | intro _ | with_reducible apply State.put_keeps | with_reducible rfl | with_reducible apply Keeps.mk1

theorem State.takeApply_keeps {k0 : Bool} {b0 : State} {s : State} (hk : Keeps k0 b0 s) : Keeps k0 b0 (State.takeApply s) := by
  unfold State.takeApply
  repeat' first | with_reducible assumption | intro _ | with_reducible apply State.applyClear_keeps | with_reducible apply State.wr_keeps | with_reducible rfl | split | with_reducible apply Keeps.mk1

theorem State.applyReq_keeps {k0 : Bool} {b0 : State} {s : State} (hk : Keeps k0 b0 s) : Keeps k0 b0 (State.applyReq s) := by
  unfold State.applyReq
  repeat' first | with_reducible assumption | intro _ | with_reducible apply State.setIf_keeps | with_reducible apply State.applyClear_keeps | with_reducible apply State.wr_keeps | with_reducible apply State.put_keeps | with_reducible apply Keeps.ite | with_reducible rfl | split | with_reducible apply Keeps.mk1

theorem State.rateSet_keeps {k0 : Bool} {b0 : State} {s : State} (hk : Keeps k0 b0 s) : Keeps k0 b0 (State.rateSet s) := by
  unfold State.rateSet
  repeat' first | with_reducible assumption | intro _ | with_reducible apply State.takeApply_keeps | with_reducible apply State.recomputeUse_keeps | with_reducible apply State.tgTick_keeps | with_reducible apply Keeps.ite

theorem State.brZero_keeps {k0 : Bool} {b0 : State} {s : State} (b : Nat) (hk : Keeps k0 b0 s) : Keeps k0 b0 (State.brZero s b) := by
  unfold State.brZero
  repeat' first | with_reducible assumption | intro _ | with_reducible rfl | with_reducible apply Keeps.mk1

theorem State.brEnable_keeps {k0 : Bool} {b0 : State} {s : State} (b : Nat) (hk : Keeps k0 b0 s) : Keeps k0 b0 (State.brEnable s b) := by
  unfold State.brEnable
  repeat' first | with_reducible assumption | intro _ | with_reducible apply State.put_keeps | with_reducible apply Keeps.ite | with_reducible rfl | with_reducible apply Keeps.mk1

theorem State.brDisable_keeps {k0 : Bool} {b0 : State} {s : State} (b : Nat) (hk : Keeps k0 b0 s) : Keeps k0 b0 (State.brDisable s b) := by
  unfold State.brDisable
  repeat' first | with_reducible assumption | intro _ | with_reducible apply State.put_keeps | with_reducible apply State.useSync_keeps | with_reducible apply Keeps.ite | with_reducible rfl | with_reducible apply Keeps.mk1

theorem State.brCfgWrite_keeps {k0 : Bool} {b0 : State} {s : State} (b : Nat) (v : Word) (hk : Keeps k0 b0 s) : Keeps k0 b0 (State.brCfgWrite s b v) := by
  unfold State.brCfgWrite
  repeat' first | with_reducible assumption | intro _ | with_reducible apply State.wr_keeps | with_reducible apply State.setIf_keeps | with_reducible apply State.brEnable_keeps | with_reducible apply State.brDisable_keeps | with_reducible apply Keeps.ite | split

theorem State.brStart_keeps {k0 : Bool} {b0 : State} {s : State} (b : Nat) (hk : Keeps k0 b0 s) : Keeps k0 b0 (State.brStart s b) := by
  unfold State.brStart
  repeat' first | with_reducible assumption | intro _ | with_reducible apply State.brZero_keeps | with_reducible apply State.put_keeps | with_reducible apply Keeps.ite

theorem State.brStop_keeps {k0 : Bool} {b0 : State} {s : State} (b : Nat) (hk : Keeps k0 b0 s) : Keeps k0 b0 (State.brStop s b) := by
  unfold State.brStop
  repeat' first | with_reducible assumption | intro _ | with_reducible apply State.brZero_keeps | with_reducible apply State.put_keeps | with_reducible apply State.useSync_keeps | with_reducible apply Keeps.ite

theorem State.brDrain_keeps {k0 : Bool} {b0 : State} {s : State} (b : Nat) (hk : Keeps k0 b0 s) : Keeps k0 b0 (State.brDrain s b) := by
  unfold State.brDrain
  repeat' first | with_reducible assumption | intro _ | with_reducible apply State.put_keeps | with_reducible apply Keeps.ite | with_reducible rfl | with_reducible apply Keeps.mk1

theorem State.brEpoch_keeps {k0 : Bool} {b0 : State} {s : State} (b : Nat) (hk : Keeps k0 b0 s) : Keeps k0 b0 (State.brEpoch s b) := by
  unfold State.brEpoch
  repeat' first | with_reducible assumption | intro _ | with_reducible apply State.put_keeps | with_reducible apply State.brZero_keeps | with_reducible apply Keeps.ite | split

theorem execRateSetBoundary_keeps (s : State) {r0 : State} (hr : execRateSetBoundary s = .next r0) : Keeps true s r0 := by
  cases hr
  have hk := Keeps.rfl true s
  repeat' first | with_reducible assumption | intro _ | with_reducible apply State.rateSet_keeps

theorem execBridgeEnable_keeps (m : Master) (b : Fin 16) (v : Word) (s : State) {r0 : State} (hr : execBridgeEnable m b v s = .next r0) : Keeps true s r0 := by
  cases hr
  have hk := Keeps.rfl true s
  repeat' first | with_reducible assumption | intro _ | with_reducible apply State.guard_keeps | with_reducible apply State.brCfgWrite_keeps | with_reducible apply Keeps.ite | with_reducible apply Keeps.ite2

theorem execBridgeDisable_keeps (m : Master) (b : Fin 16) (v : Word) (s : State) {r0 : State} (hr : execBridgeDisable m b v s = .next r0) : Keeps true s r0 := by
  cases hr
  have hk := Keeps.rfl true s
  repeat' first | with_reducible assumption | intro _ | with_reducible apply State.guard_keeps | with_reducible apply State.brCfgWrite_keeps | with_reducible apply Keeps.ite | with_reducible apply Keeps.ite2

theorem execBridgeStart_keeps (b : Fin 16) (s : State) {r0 : State} (hr : execBridgeStart b s = .next r0) : Keeps true s r0 := by
  cases hr
  have hk := Keeps.rfl true s
  repeat' first | with_reducible assumption | intro _ | with_reducible apply State.brStart_keeps

theorem execBridgeStop_keeps (b : Fin 16) (s : State) {r0 : State} (hr : execBridgeStop b s = .next r0) : Keeps true s r0 := by
  cases hr
  have hk := Keeps.rfl true s
  repeat' first | with_reducible assumption | intro _ | with_reducible apply State.brStop_keeps

end Sys2Proof.Machine
end

