-- ==== Sys2Proof/Laws/Keep/Route.lean ====
section
/-! SUPPORT. What the helpers and meanings of Machine/Route.lean keep. -/

namespace Sys2Proof.Machine

theorem State.check_keeps {k0 : Bool} {b0 : State} {s : State} (t : Tab) (hk : Keeps k0 b0 s) : Keeps k0 b0 (State.check s t).2 := by
  unfold State.check
  repeat' first | with_reducible assumption | intro _ | with_reducible apply State.setIf_keeps | with_reducible apply State.put_keeps | with_reducible apply State.wr_keeps | with_reducible rfl | split | with_reducible apply Keeps.mk1

theorem State.applyCheck_keeps {k0 : Bool} {b0 : State} {s : State} (o n : Tab) (c : Check) (hk : Keeps k0 b0 s) : Keeps k0 b0 (State.applyCheck s o n c) := by
  unfold State.applyCheck
  repeat' first | with_reducible assumption | intro _ | with_reducible rfl | with_reducible apply Keeps.mk1

theorem State.epochCheck_keeps {k0 : Bool} {b0 : State} {s : State} (c : Check) (hk : Keeps k0 b0 s) : Keeps k0 b0 (State.epochCheck s c) := by
  unfold State.epochCheck
  repeat' first | with_reducible assumption | intro _ | with_reducible rfl | with_reducible apply Keeps.mk1

theorem State.transitionEnd_keeps {k0 : Bool} {b0 : State} {s : State} (i : Nat) (hk : Keeps k0 b0 s) : Keeps k0 b0 (State.transitionEnd s i) := by
  unfold State.transitionEnd
  repeat' first | with_reducible assumption | intro _ | with_reducible apply Keeps.ite | with_reducible rfl | with_reducible apply Keeps.mk1

theorem execTransitionEnd_keeps (i : Nat) (s : State) {r0 : State} (hr : execTransitionEnd i s = .next r0) : Keeps true s r0 := by
  cases hr
  have hk := Keeps.rfl true s
  repeat' first | with_reducible assumption | intro _ | with_reducible apply State.transitionEnd_keeps

end Sys2Proof.Machine
end

