-- ==== Sys2Proof/Laws/Keep/Drift.lean ====
section
/-! SUPPORT. What the helpers and meanings of Machine/Drift.lean keep. -/

namespace Sys2Proof.Machine

theorem State.setOc_keeps {k0 : Bool} {b0 : State} {s : State} (g : Ochre → Ochre) (hk : Keeps k0 b0 s) : Keeps k0 b0 (State.setOc s g) := by
  unfold State.setOc
  repeat' first | with_reducible assumption | intro _ | with_reducible rfl | with_reducible apply Keeps.mk1

theorem State.ocShow_keeps {k0 : Bool} {b0 : State} {s : State} (hk : Keeps k0 b0 s) : Keeps k0 b0 (State.ocShow s) := by
  unfold State.ocShow
  repeat' first | with_reducible assumption | intro _ | with_reducible apply State.wr_keeps | with_reducible apply State.put_keeps

theorem State.ocProgress_keeps {k0 : Bool} {b0 : State} {s : State} (hk : Keeps k0 b0 s) : Keeps k0 b0 (State.ocProgress s) := by
  unfold State.ocProgress
  repeat' first | with_reducible assumption | intro _ | with_reducible apply State.draw_keeps | with_reducible apply State.setOc_keeps | with_reducible apply Keeps.ite | with_reducible apply Keeps.ite2 | split

theorem State.setClk_keeps {k0 : Bool} {b0 : State} {s : State} (g : Clk → Clk) (hk : Keeps k0 b0 s) : Keeps k0 b0 (State.setClk s g) := by
  unfold State.setClk
  repeat' first | with_reducible assumption | intro _ | with_reducible rfl | with_reducible apply Keeps.mk1

theorem State.clampSync_keeps {k0 : Bool} {b0 : State} {s : State} (hk : Keeps k0 b0 s) : Keeps k0 b0 (State.clampSync s) := by
  unfold State.clampSync
  repeat' first | with_reducible assumption | intro _ | with_reducible apply State.setIf_keeps | with_reducible apply State.put_keeps | with_reducible apply Keeps.ite | (with_reducible apply Keeps.fold)

theorem State.bandTouch_keeps {k0 : Bool} {b0 : State} {s : State} (p k : Nat) (hk : Keeps k0 b0 s) : Keeps k0 b0 (State.bandTouch s p k) := by
  unfold State.bandTouch
  repeat' first | with_reducible assumption | intro _ | with_reducible apply State.setClk_keeps | with_reducible rfl | with_reducible apply Keeps.mk1

theorem State.bandUse_keeps {k0 : Bool} {b0 : State} {s : State} (p : Nat) (hk : Keeps k0 b0 s) : Keeps k0 b0 (State.bandUse s p) := by
  unfold State.bandUse
  repeat' first | with_reducible assumption | intro _ | with_reducible apply State.bandTouch_keeps | with_reducible apply State.draw_keeps | with_reducible apply State.wr_keeps | with_reducible rfl | split | with_reducible apply Keeps.mk1

theorem State.pllWander_keeps {k0 : Bool} {b0 : State} {s : State} (p : Nat) (hk : Keeps k0 b0 s) : Keeps k0 b0 (State.pllWander s p) := by
  unfold State.pllWander
  repeat' first | with_reducible assumption | intro _ | with_reducible apply State.draw_keeps | with_reducible apply State.bandUse_keeps | with_reducible apply State.put_keeps | with_reducible apply State.setIf_keeps | with_reducible apply Keeps.ite | with_reducible apply Keeps.ite2 | split

theorem State.drift_keeps {k0 : Bool} {b0 : State} {s : State} (hk : Keeps k0 b0 s) : Keeps k0 b0 (State.drift s) := by
  unfold State.drift
  repeat' first | with_reducible assumption | intro _ | with_reducible apply State.pllWander_keeps | with_reducible apply State.ocProgress_keeps | with_reducible apply State.ocShow_keeps | with_reducible apply State.clampSync_keeps

end Sys2Proof.Machine
end

