-- ==== Sys2Proof/Laws/Keep/Peek.lean ====
section
/-! SUPPORT. What the helpers and meanings of Machine/Peek.lean keep. -/

namespace Sys2Proof.Machine

theorem State.latchSnap_keeps {k0 : Bool} {b0 : State} {s : State} (hk : Keeps k0 b0 s) : Keeps k0 b0 s.latchSnap := by
  unfold State.latchSnap
  refine Keeps.fold _ (State.drift_keeps hk) (fun t i h => ?_)
  have k := State.wr_keeps h (R.snapData i) (t.view (snapReg i))
  exact ⟨k.pend, Nat.le_succ_of_le h.free, k.regs, k.mem, k.time⟩

theorem State.settle_keeps {k0 : Bool} {b0 : State} {s : State} (hk : Keeps k0 b0 s) : Keeps k0 b0 (State.settle s) := by
  unfold State.settle
  repeat' first | with_reducible assumption | intro _ | with_reducible apply State.latchSnap_keeps | with_reducible apply State.put_keeps | with_reducible apply State.bump_keeps | with_reducible apply Keeps.ite | with_reducible rfl | with_reducible apply Keeps.mk1

theorem State.snapArm_keeps {k0 : Bool} {b0 : State} {s : State} (hk : Keeps k0 b0 s) : Keeps k0 b0 (State.snapArm s) := by
  unfold State.snapArm
  repeat' first | with_reducible assumption | intro _ | with_reducible apply State.put_keeps

theorem State.snapCtrlWrite_keeps {k0 : Bool} {b0 : State} {s : State} (v : Word) (hk : Keeps k0 b0 s) : Keeps k0 b0 (State.snapCtrlWrite s v) := by
  unfold State.snapCtrlWrite
  repeat' first | with_reducible assumption | intro _ | with_reducible apply State.put_keeps | with_reducible apply State.snapArm_keeps | with_reducible apply State.fire_keeps | with_reducible apply State.settle_keeps | with_reducible apply Keeps.ite

theorem execArm_keeps (m : Master) (s : State) {r0 : State} (hr : execArm m s = .next r0) : Keeps true s r0 := by
  cases hr
  have hk := Keeps.rfl true s
  repeat' first | with_reducible assumption | intro _ | with_reducible apply State.guard_keeps | with_reducible apply State.snapArm_keeps

theorem execTrig_keeps (m : Master) (s : State) {r0 : State} (hr : execTrig m s = .next r0) : Keeps true s r0 := by
  cases hr
  have hk := Keeps.rfl true s
  repeat' first | with_reducible assumption | intro _ | with_reducible apply State.guard_keeps | with_reducible apply State.fire_keeps | with_reducible apply State.settle_keeps

end Sys2Proof.Machine
end

