-- ==== Sys2Proof/Laws/Keep/Ochre.lean ====
section
/-! SUPPORT. What the helpers and meanings of Machine/Ochre.lean keep. -/

namespace Sys2Proof.Machine

theorem State.setRef_keeps {k0 : Bool} {b0 : State} {s : State} (r : Nat) (g : OcRef → OcRef) (hk : Keeps k0 b0 s) : Keeps k0 b0 (State.setRef s r g) := by
  unfold State.setRef
  repeat' first | with_reducible assumption | intro _ | with_reducible apply State.setOc_keeps | with_reducible rfl | with_reducible apply Keeps.mk1

theorem State.ocTake_keeps {k0 : Bool} {b0 : State} {s : State} (st sel : Nat) (hk : Keeps k0 b0 s) : Keeps k0 b0 (State.ocTake s st sel) := by
  unfold State.ocTake
  repeat' first | with_reducible assumption | intro _ | with_reducible apply State.ocProgress_keeps | with_reducible apply State.put_keeps | with_reducible apply State.fire_keeps | with_reducible apply State.setOc_keeps | with_reducible apply State.draw_keeps | with_reducible apply State.ocShow_keeps | with_reducible apply Keeps.ite | with_reducible apply Keeps.ite2 | with_reducible rfl | with_reducible apply Keeps.mk1

theorem State.ocEval_keeps {k0 : Bool} {b0 : State} {s : State} (win : Bool) (hk : Keeps k0 b0 s) : Keeps k0 b0 (State.ocEval s win) := by
  unfold State.ocEval
  repeat' first | with_reducible assumption | intro _ | with_reducible apply State.setIf_keeps | with_reducible apply State.put_keeps | with_reducible apply State.setOc_keeps | with_reducible apply State.ocTake_keeps | with_reducible apply Keeps.ite | with_reducible apply Keeps.ite2 | with_reducible rfl | split | with_reducible apply Keeps.mk1

theorem State.refFail_keeps {k0 : Bool} {b0 : State} {s : State} (r : Nat) (hk : Keeps k0 b0 s) : Keeps k0 b0 (State.refFail s r) := by
  unfold State.refFail
  repeat' first | with_reducible assumption | intro _ | with_reducible apply State.put_keeps | with_reducible apply State.setRef_keeps | with_reducible rfl | with_reducible apply Keeps.mk1

theorem State.refLos_keeps {k0 : Bool} {b0 : State} {s : State} (r : Nat) (hk : Keeps k0 b0 s) : Keeps k0 b0 (State.refLos s r) := by
  unfold State.refLos
  repeat' first | with_reducible assumption | intro _ | with_reducible apply State.put_keeps | with_reducible apply State.setRef_keeps | with_reducible apply State.refFail_keeps | with_reducible apply State.wr_keeps | with_reducible apply Keeps.ite | with_reducible rfl | split | with_reducible apply Keeps.mk1

theorem State.ocLos_keeps {k0 : Bool} {b0 : State} {s : State} (r : Nat) (hk : Keeps k0 b0 s) : Keeps k0 b0 (State.ocLos s r) := by
  unfold State.ocLos
  repeat' first | with_reducible assumption | intro _ | with_reducible apply State.refLos_keeps | with_reducible apply State.ocEval_keeps | with_reducible apply Keeps.ite | split

theorem State.ocPortStop_keeps {k0 : Bool} {b0 : State} {s : State} (n : Nat) (hk : Keeps k0 b0 s) : Keeps k0 b0 (State.ocPortStop s n) := by
  unfold State.ocPortStop
  repeat' first | with_reducible assumption | intro _ | with_reducible apply State.ocLos_keeps

theorem State.refEdge_keeps {k0 : Bool} {b0 : State} {s : State} (r : Nat) (hk : Keeps k0 b0 s) : Keeps k0 b0 (State.refEdge s r) := by
  unfold State.refEdge
  repeat' first | with_reducible assumption | intro _ | with_reducible apply State.put_keeps | with_reducible apply Keeps.ite

theorem State.refGood_keeps {k0 : Bool} {b0 : State} {s : State} (r : Nat) (hk : Keeps k0 b0 s) : Keeps k0 b0 (State.refGood s r) := by
  unfold State.refGood
  repeat' first | with_reducible assumption | intro _ | with_reducible apply State.put_keeps | with_reducible apply State.setRef_keeps | with_reducible apply Keeps.ite | with_reducible rfl | with_reducible apply Keeps.mk1

theorem State.refWindow_keeps {k0 : Bool} {b0 : State} {s : State} (r : Nat) (off : Option Int) (hk : Keeps k0 b0 s) : Keeps k0 b0 (State.refWindow s r off) := by
  unfold State.refWindow
  repeat' first | with_reducible assumption | intro _ | with_reducible apply State.setRef_keeps | with_reducible apply State.refFail_keeps | with_reducible apply State.put_keeps | with_reducible apply State.drift_keeps | with_reducible apply State.wr_keeps | with_reducible apply State.refGood_keeps | with_reducible apply Keeps.ite | with_reducible rfl | split | with_reducible apply Keeps.mk1

theorem State.ocSteer_keeps {k0 : Bool} {b0 : State} {s : State} (hk : Keeps k0 b0 s) : Keeps k0 b0 (State.ocSteer s) := by
  unfold State.ocSteer
  repeat' first | with_reducible assumption | intro _ | with_reducible apply State.setOc_keeps | with_reducible apply Keeps.ite | with_reducible rfl | with_reducible apply Keeps.mk1

theorem State.ocSum_keeps {k0 : Bool} {b0 : State} {s : State} (hk : Keeps k0 b0 s) : Keeps k0 b0 (State.ocSum s) := by
  unfold State.ocSum
  repeat' first | with_reducible assumption | intro _ | with_reducible apply State.setOc_keeps | with_reducible rfl | with_reducible apply Keeps.mk1

theorem State.ocWindow_keeps {k0 : Bool} {b0 : State} {s : State} (offs : List Int) (hk : Keeps k0 b0 s) : Keeps k0 b0 (State.ocWindow s offs) := by
  unfold State.ocWindow
  repeat' first | with_reducible assumption | intro _ | with_reducible apply State.refWindow_keeps | with_reducible apply State.ocProgress_keeps | with_reducible apply State.ocSum_keeps | with_reducible apply State.ocSteer_keeps | with_reducible apply State.ocEval_keeps | with_reducible apply Keeps.ite | (with_reducible apply Keeps.fold)

theorem State.ocSecond_keeps {k0 : Bool} {b0 : State} {s : State} (hk : Keeps k0 b0 s) : Keeps k0 b0 (State.ocSecond s) := by
  unfold State.ocSecond
  repeat' first | with_reducible assumption | intro _ | with_reducible apply State.setOc_keeps | with_reducible apply State.ocShow_keeps | with_reducible rfl | with_reducible apply Keeps.mk1

theorem State.slewEnd_keeps {k0 : Bool} {b0 : State} {s : State} (hk : Keeps k0 b0 s) : Keeps k0 b0 (State.slewEnd s) := by
  unfold State.slewEnd
  repeat' first | with_reducible assumption | intro _ | with_reducible apply State.setOc_keeps | with_reducible apply State.ocShow_keeps | with_reducible apply Keeps.ite

theorem State.phaseStep_keeps {k0 : Bool} {b0 : State} {s : State} (v : Word) (hk : Keeps k0 b0 s) : Keeps k0 b0 (State.phaseStep s v) := by
  unfold State.phaseStep
  repeat' first | with_reducible assumption | intro _ | with_reducible apply State.ocProgress_keeps | with_reducible apply State.setOc_keeps | with_reducible apply State.setIf_keeps | with_reducible apply State.ocShow_keeps | with_reducible apply Keeps.ite | with_reducible rfl | split | with_reducible apply Keeps.mk1

theorem State.refEnable_keeps {k0 : Bool} {b0 : State} {s : State} (r : Nat) (hk : Keeps k0 b0 s) : Keeps k0 b0 (State.refEnable s r) := by
  unfold State.refEnable
  repeat' first | with_reducible assumption | intro _ | with_reducible apply State.put_keeps | with_reducible apply State.setRef_keeps | with_reducible apply Keeps.ite | with_reducible rfl | split | with_reducible apply Keeps.mk1

theorem State.ocStart_keeps {k0 : Bool} {b0 : State} {s : State} (hk : Keeps k0 b0 s) : Keeps k0 b0 (State.ocStart s) := by
  unfold State.ocStart
  repeat' first | with_reducible assumption | intro _ | with_reducible apply State.setRef_keeps | with_reducible apply State.refEnable_keeps | with_reducible apply State.put_keeps | with_reducible apply State.setOc_keeps | with_reducible apply State.ocShow_keeps | with_reducible apply Keeps.ite | with_reducible apply Keeps.ite2 | (with_reducible apply Keeps.fold) | with_reducible rfl | with_reducible apply Keeps.mk1

theorem State.ocHaltNow_keeps {k0 : Bool} {b0 : State} {s : State} (hk : Keeps k0 b0 s) : Keeps k0 b0 (State.ocHaltNow s) := by
  unfold State.ocHaltNow
  repeat' first | with_reducible assumption | intro _ | with_reducible apply State.ocProgress_keeps | with_reducible apply State.setOc_keeps | with_reducible apply State.put_keeps | with_reducible apply State.ocShow_keeps | with_reducible rfl | split | with_reducible apply Keeps.mk1

theorem State.refCfgWrite_keeps {k0 : Bool} {b0 : State} {s : State} (r : Nat) (v : Word) (hk : Keeps k0 b0 s) : Keeps k0 b0 (State.refCfgWrite s r v) := by
  unfold State.refCfgWrite
  repeat' first | with_reducible assumption | intro _ | with_reducible apply State.wr_keeps | with_reducible apply State.put_keeps | with_reducible apply State.refEnable_keeps | with_reducible apply Keeps.ite

theorem State.refinWrite_keeps {k0 : Bool} {b0 : State} {s : State} (i : Nat) (v : Word) (hk : Keeps k0 b0 s) : Keeps k0 b0 (State.refinWrite s i v) := by
  unfold State.refinWrite
  repeat' first | with_reducible assumption | intro _ | with_reducible apply State.put_keeps | with_reducible apply Keeps.ite

theorem State.ocPlainWrite_keeps {k0 : Bool} {b0 : State} {s : State} (a : Nat) (mask v : Word) (hk : Keeps k0 b0 s) : Keeps k0 b0 (State.ocPlainWrite s a mask v) := by
  unfold State.ocPlainWrite
  repeat' first | with_reducible assumption | intro _ | with_reducible apply State.wr_keeps | with_reducible apply State.ocShow_keeps

end Sys2Proof.Machine
end

