-- ==== Sys2Proof/Laws/Keep/Umber.lean ====
section
/-! SUPPORT. What the helpers and meanings of Machine/Umber.lean keep. -/

namespace Sys2Proof.Machine

theorem State.setUmb_keeps {k0 : Bool} {b0 : State} {s : State} (u : Nat) (x : Umb) (hk : Keeps k0 b0 s) : Keeps k0 b0 (State.setUmb s u x) := by
  unfold State.setUmb
  repeat' first | with_reducible assumption | intro _ | with_reducible rfl | with_reducible apply Keeps.mk1

theorem State.umbLevel_keeps {k0 : Bool} {b0 : State} {s : State} (t : Tab) (u : Nat) (x : Word) (hk : Keeps k0 b0 s) : Keeps k0 b0 (State.umbLevel s t u x) := by
  unfold State.umbLevel
  repeat' first | with_reducible assumption | intro _ | with_reducible apply State.setUmb_keeps | with_reducible apply Keeps.ite | with_reducible rfl | with_reducible apply Keeps.mk1

theorem State.umbStart_keeps {k0 : Bool} {b0 : State} {s : State} (t : Tab) (u : Nat) (hk : Keeps k0 b0 s) : Keeps k0 b0 (State.umbStart s t u) := by
  unfold State.umbStart
  repeat' first | with_reducible assumption | intro _ | with_reducible apply State.setUmb_keeps | with_reducible apply State.umbLevel_keeps | with_reducible apply Keeps.ite | with_reducible rfl | with_reducible apply Keeps.mk1

theorem State.umbGain_keeps {k0 : Bool} {b0 : State} {s : State} (t : Tab) (u : Nat) (hk : Keeps k0 b0 s) : Keeps k0 b0 (State.umbGain s t u) := by
  unfold State.umbGain
  repeat' first | with_reducible assumption | intro _ | with_reducible apply State.setUmb_keeps | with_reducible apply Keeps.ite | (with_reducible apply Keeps.fold) | with_reducible rfl | with_reducible apply Keeps.mk1

theorem State.umbOut_keeps {k0 : Bool} {b0 : State} {s : State} (t : Tab) (u : Nat) (x : Word) (hk : Keeps k0 b0 s) : Keeps k0 b0 (State.umbOut s t u x).2 := by
  unfold State.umbOut
  repeat' first | with_reducible assumption | intro _ | with_reducible apply State.setUmb_keeps | with_reducible apply State.setIf_keeps | with_reducible apply State.put_keeps | with_reducible apply Keeps.ite | with_reducible apply Keeps.ite2 | with_reducible rfl | split | with_reducible apply Keeps.mk1

end Sys2Proof.Machine
end

