-- ==== Sys2Proof/Laws/Keep/Fabric.lean ====
section
/-! SUPPORT. What the helpers and meanings of Machine/Fabric.lean keep. -/

namespace Sys2Proof.Machine

theorem State.deliverCyc_keeps {k0 : Bool} {b0 : State} {s : State} (key : Nat × Nat) (hk : Keeps k0 b0 s) : Keeps k0 b0 (State.deliverCyc s key).2 := by
  unfold State.deliverCyc
  repeat' first | with_reducible assumption | intro _ | with_reducible apply State.draw_keeps | with_reducible apply Keeps.ite | with_reducible apply Keeps.ite2 | with_reducible rfl | split | with_reducible apply Keeps.mk1

theorem State.metered_keeps {k0 : Bool} {b0 : State} {s : State} (key : Nat × Nat) (y : Word) (hk : Keeps k0 b0 s) : Keeps k0 b0 (State.metered s key y) := by
  unfold State.metered
  repeat' first | with_reducible assumption | intro _ | with_reducible apply State.put_keeps | with_reducible apply Keeps.ite | (with_reducible apply Keeps.fold)

theorem State.setNow_keeps {k0 : Bool} {b0 : State} {s : State} (id : Nat) (v : Word) (hk : Keeps k0 b0 s) : Keeps k0 b0 (State.setNow s id v) := by
  unfold State.setNow
  repeat' first | with_reducible assumption | intro _ | with_reducible rfl | with_reducible apply Keeps.mk1

theorem State.newStamp_keeps {k0 : Bool} {b0 : State} {s : State} (ds : List RDom) (hk : Keeps k0 b0 s) : Keeps k0 b0 (State.newStamp s ds) := by
  unfold State.newStamp
  repeat' first | with_reducible assumption | intro _ | (with_reducible apply Keeps.fold) | with_reducible rfl | with_reducible apply Keeps.mk1

theorem State.sumRuns_keeps {k0 : Bool} {b0 : State} {s : State} (p : Nat → Bool) (hk : Keeps k0 b0 s) : Keeps k0 b0 (State.sumRuns s p).2 := by
  unfold State.sumRuns
  repeat' first | with_reducible assumption | intro _ | with_reducible apply Keeps.ite | with_reducible apply Keeps.ite2 | (with_reducible apply Keeps.fold) | with_reducible rfl | with_reducible apply Keeps.mk1

theorem State.sinkValue_keeps {k0 : Bool} {b0 : State} {s : State} (a : SinkSum) (hk : Keeps k0 b0 s) : Keeps k0 b0 (State.sinkValue s a).2 := by
  unfold State.sinkValue
  repeat' first | with_reducible assumption | intro _ | with_reducible apply State.bump_keeps | with_reducible apply State.put_keeps | with_reducible apply State.wr_keeps | with_reducible apply State.deliverCyc_keeps | with_reducible apply State.metered_keeps | with_reducible apply Keeps.ite | with_reducible apply Keeps.ite2

theorem State.sinkValues_keeps {k0 : Bool} {b0 : State} {s : State} (l : List SinkSum) (hk : Keeps k0 b0 s) : Keeps k0 b0 (s.sinkValues l).2 := by
  unfold State.sinkValues
  exact Keeps.fold2 _ hk (fun a x ha => State.sinkValue_keeps x ha)

theorem State.setNode_keeps {k0 : Bool} {b0 : State} {s : State} (n : Nat) (x : Node) (hk : Keeps k0 b0 s) : Keeps k0 b0 (State.setNode s n x) := by
  unfold State.setNode
  repeat' first | with_reducible assumption | intro _ | with_reducible rfl | with_reducible apply Keeps.mk1

theorem State.setGate_keeps {k0 : Bool} {b0 : State} {s : State} (g : Gate) (hk : Keeps k0 b0 s) : Keeps k0 b0 (State.setGate s g) := by
  unfold State.setGate
  repeat' first | with_reducible assumption | intro _ | with_reducible rfl | with_reducible apply Keeps.mk1

theorem State.gateSample_keeps {k0 : Bool} {b0 : State} {s : State} (key t f : Nat) (v : Word) (hk : Keeps k0 b0 s) : Keeps k0 b0 (State.gateSample s key t f v) := by
  unfold State.gateSample
  repeat' first | with_reducible assumption | intro _ | with_reducible apply State.setGate_keeps | with_reducible apply Keeps.ite | with_reducible rfl | with_reducible apply Keeps.mk1

theorem State.nodeSample_keeps {k0 : Bool} {b0 : State} {s : State} (n t f : Nat) (vals : List ((Nat × Nat) × Word)) (hk : Keeps k0 b0 s) : Keeps k0 b0 (State.nodeSample s n t f vals) := by
  unfold State.nodeSample
  repeat' first | with_reducible assumption | intro _ | with_reducible apply State.gateSample_keeps | with_reducible apply State.setNode_keeps | with_reducible apply State.setNow_keeps | with_reducible apply State.setIf_keeps | with_reducible apply State.put_keeps | with_reducible apply Keeps.ite | with_reducible apply Keeps.ite2 | (with_reducible apply Keeps.fold) | with_reducible rfl | with_reducible apply Keeps.mk1

theorem State.gateBlockEnd_keeps {k0 : Bool} {b0 : State} {s : State} (n f : Nat) (hk : Keeps k0 b0 s) : Keeps k0 b0 (State.gateBlockEnd s n f) := by
  unfold State.gateBlockEnd
  repeat' first | with_reducible assumption | intro _ | with_reducible apply Keeps.ite | with_reducible rfl | split | with_reducible apply Keeps.mk1

theorem State.scaleRampEnd_keeps {k0 : Bool} {b0 : State} {s : State} (n : Nat) (hk : Keeps k0 b0 s) : Keeps k0 b0 (State.scaleRampEnd s n) := by
  unfold State.scaleRampEnd
  repeat' first | with_reducible assumption | intro _ | with_reducible apply State.put_keeps | with_reducible apply Keeps.ite

theorem State.umbSamples_keeps {k0 : Bool} {b0 : State} {s : State} (us : List Nat) (vals : List ((Nat × Nat) × Word)) (hk : Keeps k0 b0 s) : Keeps k0 b0 (State.umbSamples s us vals) := by
  unfold State.umbSamples
  repeat' first | with_reducible assumption | intro _ | with_reducible apply State.ok_keeps | with_reducible apply State.umbStart_keeps | with_reducible apply State.umbLevel_keeps | with_reducible apply State.umbGain_keeps | with_reducible apply State.umbOut_keeps | with_reducible apply State.setNow_keeps | with_reducible apply State.setUmb_keeps | (with_reducible apply Keeps.fold) | with_reducible rfl | with_reducible apply Keeps.mk1

theorem State.rankSample_keeps {k0 : Bool} {b0 : State} {s : State} (ds : List RDom) (r : Nat) (hk : Keeps k0 b0 s) : Keeps k0 b0 (State.rankSample s ds r) := by
  unfold State.rankSample
  repeat' first | with_reducible assumption | intro _ | with_reducible apply State.sumRuns_keeps | with_reducible apply State.sinkValues_keeps | with_reducible apply State.nodeSample_keeps | with_reducible apply State.umbSamples_keeps | (with_reducible apply Keeps.fold) | with_reducible rfl | split | with_reducible apply Keeps.mk1

theorem State.deliver_keeps {k0 : Bool} {b0 : State} {s : State} (key : Nat × Nat) (v : Word) (hk : Keeps k0 b0 s) : Keeps k0 b0 (State.deliver s key v) := by
  unfold State.deliver
  repeat' first | with_reducible assumption | intro _ | with_reducible apply State.setEng_keeps | with_reducible apply Keeps.ite | (with_reducible apply Keeps.fold) | with_reducible rfl | with_reducible apply Keeps.mk1

theorem State.deliverAll_keeps {k0 : Bool} {b0 : State} {s : State} (ds : List RDom) (hk : Keeps k0 b0 s) : Keeps k0 b0 (State.deliverAll s ds) := by
  unfold State.deliverAll
  repeat' first | with_reducible assumption | intro _ | with_reducible apply State.sumRuns_keeps | with_reducible apply State.sinkValues_keeps | with_reducible apply State.deliver_keeps | (with_reducible apply Keeps.fold) | with_reducible rfl | with_reducible apply Keeps.mk1

theorem State.brIn_keeps {k0 : Bool} {b0 : State} {s : State} (ds : List RDom) (hk : Keeps k0 b0 s) : Keeps k0 b0 (State.brIn s ds) := by
  unfold State.brIn
  repeat' first | with_reducible assumption | intro _ | with_reducible apply Keeps.ite | (with_reducible apply Keeps.fold) | with_reducible rfl | with_reducible apply Keeps.mk1

theorem State.inject_keeps {k0 : Bool} {b0 : State} {s : State} (id : Nat) (v : Word) (hk : Keeps k0 b0 s) : Keeps k0 b0 (State.inject s id v) := by
  unfold State.inject
  repeat' first | with_reducible assumption | intro _ | with_reducible rfl | with_reducible apply Keeps.mk1

theorem State.brSample_keeps {k0 : Bool} {b0 : State} {s : State} (pi po trim : Nat) (x : Int) (h : List Word) (hk : Keeps k0 b0 s) : Keeps k0 b0 (State.brSample s pi po trim x h).2 := by
  unfold State.brSample
  repeat' first | with_reducible assumption | intro _ | with_reducible apply State.draw_keeps | with_reducible rfl | split | with_reducible apply Keeps.mk1

theorem State.brOut_keeps {k0 : Bool} {b0 : State} {s : State} (ds : List RDom) (hk : Keeps k0 b0 s) : Keeps k0 b0 (State.brOut s ds) := by
  unfold State.brOut
  repeat' first | with_reducible assumption | intro _ | with_reducible apply State.brSample_keeps | with_reducible apply State.setIf_keeps | with_reducible apply State.inject_keeps | with_reducible apply Keeps.ite | with_reducible apply Keeps.ite2 | (with_reducible apply Keeps.fold) | with_reducible rfl | split | with_reducible apply Keeps.mk1

theorem State.fabric_keeps {k0 : Bool} {b0 : State} {s : State} (ds : List RDom) (hk : Keeps k0 b0 s) : Keeps k0 b0 (State.fabric s ds) := by
  unfold State.fabric
  repeat' first | with_reducible assumption | intro _ | with_reducible apply State.brOut_keeps | with_reducible apply State.newStamp_keeps | with_reducible apply State.rankSample_keeps | with_reducible apply State.deliverAll_keeps | with_reducible apply State.brIn_keeps | (with_reducible apply Keeps.fold)

theorem State.unitsAfter_keeps {k0 : Bool} {b0 : State} {s : State} (o n : Tab) (hk : Keeps k0 b0 s) : Keeps k0 b0 (State.unitsAfter s o n) := by
  unfold State.unitsAfter
  repeat' first | with_reducible assumption | intro _ | with_reducible apply State.put_keeps | with_reducible apply State.setNow_keeps | with_reducible apply State.setUmb_keeps | with_reducible apply Keeps.ite | with_reducible apply Keeps.ite2 | (with_reducible apply Keeps.fold) | with_reducible rfl | split | with_reducible apply Keeps.mk1

theorem State.fabricZero_keeps {k0 : Bool} {b0 : State} {s : State} (hk : Keeps k0 b0 s) : Keeps k0 b0 (State.fabricZero s) := by
  unfold State.fabricZero
  repeat' first | with_reducible assumption | intro _ | with_reducible apply State.put_keeps | with_reducible apply Keeps.ite | (with_reducible apply Keeps.fold) | with_reducible rfl | with_reducible apply Keeps.mk1

theorem execGateBlockEnd_keeps (n : Nat) (s : State) {r0 : State} (hr : execGateBlockEnd n s = .next r0) : Keeps true s r0 := by
  cases hr
  have hk := Keeps.rfl true s
  repeat' first | with_reducible assumption | intro _ | with_reducible apply State.gateBlockEnd_keeps

theorem execScaleRampEnd_keeps (n : Nat) (s : State) {r0 : State} (hr : execScaleRampEnd n s = .next r0) : Keeps true s r0 := by
  cases hr
  have hk := Keeps.rfl true s
  repeat' first | with_reducible assumption | intro _ | with_reducible apply State.scaleRampEnd_keeps

end Sys2Proof.Machine
end

