-- ==== Sys2Proof/Laws/Keep/Commit.lean ====
section
/-! SUPPORT. What the helpers and meanings of Machine/Commit.lean keep. -/

namespace Sys2Proof.Machine

theorem State.joinFrozen_keeps {k0 : Bool} {b0 : State} {s : State} (hk : Keeps k0 b0 s) : Keeps k0 b0 (State.joinFrozen s) := by
  unfold State.joinFrozen
  repeat' first | with_reducible assumption | intro _ | with_reducible apply State.put_keeps | with_reducible apply Keeps.ite | with_reducible apply Keeps.ite2 | (with_reducible apply Keeps.fold) | with_reducible rfl | split | with_reducible apply Keeps.mk1

theorem State.freeze_keeps {k0 : Bool} {b0 : State} {s : State} (c : Commit) (b : Nat) (ep : Bool) (hk : Keeps k0 b0 s) : Keeps k0 b0 (State.freeze s c b ep) := by
  unfold State.freeze
  repeat' first | with_reducible assumption | intro _ | with_reducible apply State.put_keeps | with_reducible apply State.check_keeps | with_reducible apply Keeps.ite | with_reducible apply Keeps.ite2 | with_reducible rfl | split | with_reducible apply Keeps.mk1

theorem State.commitCutoff_keeps {b0 : State} {s : State} (hk : Keeps false b0 s) : Keeps false b0 (State.commitCutoff s) := by
  unfold State.commitCutoff
  repeat' first | with_reducible assumption | intro _ | with_reducible apply State.freeze_keeps | with_reducible apply State.toCutoff_keeps | with_reducible apply State.joinFrozen_keeps | with_reducible apply Keeps.ite | with_reducible rfl | split | with_reducible apply Keeps.mk0 | with_reducible apply Keeps.mk2

theorem State.swapTables_keeps {k0 : Bool} {b0 : State} {s : State} (mask : Nat) (hk : Keeps k0 b0 s) : Keeps k0 b0 (State.swapTables s mask) := by
  unfold State.swapTables
  repeat' first | with_reducible assumption | intro _ | with_reducible apply State.regSwap_keeps | with_reducible apply Keeps.ite

theorem State.swapEngines_keeps {k0 : Bool} {b0 : State} {s : State} (mask : Nat) (hk : Keeps k0 b0 s) : Keeps k0 b0 (State.swapEngines s mask) := by
  unfold State.swapEngines
  repeat' first | with_reducible assumption | intro _ | with_reducible apply State.swapEngine_keeps | with_reducible apply Keeps.ite | (with_reducible apply Keeps.fold)

theorem State.commitStatus_keeps {k0 : Bool} {b0 : State} {s : State} (c : Commit) (hk : Keeps k0 b0 s) : Keeps k0 b0 (State.commitStatus s c) := by
  unfold State.commitStatus
  repeat' first | with_reducible assumption | intro _ | with_reducible apply State.put_keeps | (with_reducible apply Keeps.fold)

theorem State.reconStart_keeps {k0 : Bool} {b0 : State} {s : State} (mask : Nat) (hk : Keeps k0 b0 s) : Keeps k0 b0 (State.reconStart s mask) := by
  unfold State.reconStart
  repeat' first | with_reducible assumption | intro _ | with_reducible apply State.reconShow_keeps | with_reducible apply Keeps.ite | with_reducible rfl | with_reducible apply Keeps.mk1

theorem State.aliasApply_keeps {k0 : Bool} {b0 : State} {s : State} (mask : Nat) (hk : Keeps k0 b0 s) : Keeps k0 b0 (State.aliasApply s mask) := by
  unfold State.aliasApply
  repeat' first | with_reducible assumption | intro _ | with_reducible apply State.wr_keeps | with_reducible apply Keeps.ite | with_reducible rfl | split | with_reducible apply Keeps.mk1

theorem State.commitApply_keeps {k0 : Bool} {b0 : State} {s : State} (hk : Keeps k0 b0 s) : Keeps k0 b0 (State.commitApply s) := by
  unfold State.commitApply
  repeat' first | with_reducible assumption | intro _ | with_reducible apply State.unitsAfter_keeps | with_reducible apply State.applyCheck_keeps | with_reducible apply State.swapEngines_keeps | with_reducible apply State.swapTables_keeps | with_reducible apply State.aliasApply_keeps | with_reducible apply State.commitStatus_keeps | with_reducible apply State.reconStart_keeps | with_reducible apply State.useSync_keeps | with_reducible apply Keeps.ite | with_reducible rfl | split | with_reducible apply Keeps.mk1

theorem execCommitCutoff_keeps (s : State) {r0 : State} (hr : execCommitCutoff s = .next r0) : Keeps false s r0 := by
  cases hr
  have hk := Keeps.rfl false s
  repeat' first | with_reducible assumption | intro _ | with_reducible apply State.commitCutoff_keeps

end Sys2Proof.Machine
end

