-- ==== Sys2Proof/Laws/Keep/Ports.lean ====
section
/-! SUPPORT. What the helpers and meanings of Machine/Ports.lean keep. -/

namespace Sys2Proof.Machine

theorem State.setPort_keeps {k0 : Bool} {b0 : State} {s : State} (n : Nat) (f : Tp → Tp) (hk : Keeps k0 b0 s) : Keeps k0 b0 (State.setPort s n f) := by
  unfold State.setPort
  repeat' first | with_reducible assumption | intro _ | with_reducible rfl | with_reducible apply Keeps.mk1

theorem State.setTp_keeps {k0 : Bool} {b0 : State} {s : State} (n v : Nat) (hk : Keeps k0 b0 s) : Keeps k0 b0 (State.setTp s n v) := by
  unfold State.setTp
  repeat' first | with_reducible assumption | intro _ | with_reducible apply State.put_keeps | with_reducible apply State.clampSync_keeps

theorem State.setGrp_keeps {k0 : Bool} {b0 : State} {s : State} (g : Nat) (f : Asrc → Asrc) (hk : Keeps k0 b0 s) : Keeps k0 b0 (State.setGrp s g f) := by
  unfold State.setGrp
  repeat' first | with_reducible assumption | intro _ | with_reducible rfl | with_reducible apply Keeps.mk1

theorem State.eachGrp_keeps {k0 : Bool} {b0 : State} {s : State} (n : Nat) (f : State → Nat → State) (hk : Keeps k0 b0 s) (hf : ∀ t y0, Keeps k0 b0 t → Keeps k0 b0 (f t y0)) : Keeps k0 b0 (State.eachGrp s n f) := by
  unfold State.eachGrp
  repeat' first | with_reducible assumption | intro _ | with_reducible apply hf | (with_reducible apply Keeps.fold)

theorem State.grpAcquire_keeps {k0 : Bool} {b0 : State} {s : State} (g st : Nat) (hk : Keeps k0 b0 s) : Keeps k0 b0 (State.grpAcquire s g st) := by
  unfold State.grpAcquire
  repeat' first | with_reducible assumption | intro _ | with_reducible apply State.put_keeps | with_reducible apply State.setGrp_keeps | with_reducible rfl | with_reducible apply Keeps.mk1

theorem State.grpSilent_keeps {k0 : Bool} {b0 : State} {s : State} (g : Nat) (hk : Keeps k0 b0 s) : Keeps k0 b0 (State.grpSilent s g) := by
  unfold State.grpSilent
  repeat' first | with_reducible assumption | intro _ | with_reducible apply State.inject_keeps | (with_reducible apply Keeps.fold)

theorem State.grpOff_keeps {k0 : Bool} {b0 : State} {s : State} (g : Nat) (hk : Keeps k0 b0 s) : Keeps k0 b0 (State.grpOff s g) := by
  unfold State.grpOff
  repeat' first | with_reducible assumption | intro _ | with_reducible apply State.put_keeps | with_reducible apply State.setGrp_keeps | with_reducible apply State.grpSilent_keeps | with_reducible rfl | with_reducible apply Keeps.mk1

theorem State.setRatio_keeps {k0 : Bool} {b0 : State} {s : State} (n e per : Nat) (hk : Keeps k0 b0 s) : Keeps k0 b0 (State.setRatio s n e per) := by
  unfold State.setRatio
  repeat' first | with_reducible assumption | intro _ | with_reducible apply State.eachGrp_keeps | with_reducible apply State.put_keeps | with_reducible apply State.setGrp_keeps | with_reducible rfl | with_reducible apply Keeps.mk1

theorem State.asrcFollow_keeps {k0 : Bool} {b0 : State} {s : State} (n e bw per : Nat) (hk : Keeps k0 b0 s) : Keeps k0 b0 (State.asrcFollow s n e bw per) := by
  unfold State.asrcFollow
  repeat' first | with_reducible assumption | intro _ | with_reducible apply State.setRatio_keeps | with_reducible apply State.draw_keeps | with_reducible rfl | split | with_reducible apply Keeps.mk1

theorem State.asrcMeasure_keeps {k0 : Bool} {b0 : State} {s : State} (n per : Nat) (hk : Keeps k0 b0 s) : Keeps k0 b0 (State.asrcMeasure s n per) := by
  unfold State.asrcMeasure
  repeat' first | with_reducible assumption | intro _ | with_reducible apply State.asrcFollow_keeps | with_reducible apply State.setGrp_keeps | with_reducible apply State.setRatio_keeps | with_reducible apply State.eachGrp_keeps | with_reducible apply State.put_keeps | with_reducible apply Keeps.ite | with_reducible rfl | split | with_reducible apply Keeps.mk1

theorem State.enterResync_keeps {k0 : Bool} {b0 : State} {s : State} (n : Nat) (mute : Bool) (hk : Keeps k0 b0 s) : Keeps k0 b0 (State.enterResync s n mute) := by
  unfold State.enterResync
  repeat' first | with_reducible assumption | intro _ | with_reducible apply State.setTp_keeps | with_reducible apply State.put_keeps | with_reducible apply State.fire_keeps | with_reducible apply State.setPort_keeps | with_reducible apply State.eachGrp_keeps | with_reducible apply State.grpAcquire_keeps | with_reducible apply Keeps.ite | with_reducible rfl | with_reducible apply Keeps.mk1

theorem State.requalify_keeps {k0 : Bool} {b0 : State} {s : State} (n : Nat) (hk : Keeps k0 b0 s) : Keeps k0 b0 (State.requalify s n) := by
  unfold State.requalify
  repeat' first | with_reducible assumption | intro _ | with_reducible apply State.setPort_keeps | with_reducible apply State.eachGrp_keeps | with_reducible apply State.grpAcquire_keeps | with_reducible rfl | with_reducible apply Keeps.mk1

theorem State.tpStop_keeps {k0 : Bool} {b0 : State} {s : State} (n : Nat) (hk : Keeps k0 b0 s) : Keeps k0 b0 (State.tpStop s n) := by
  unfold State.tpStop
  repeat' first | with_reducible assumption | intro _ | with_reducible apply State.setTp_keeps | with_reducible apply State.ocPortStop_keeps | with_reducible apply State.put_keeps | with_reducible apply State.setPort_keeps | with_reducible apply State.eachGrp_keeps | with_reducible apply State.grpOff_keeps | with_reducible apply State.inject_keeps | (with_reducible apply Keeps.fold) | split

theorem State.fsyncLoss_keeps {k0 : Bool} {b0 : State} {s : State} (n : Nat) (hk : Keeps k0 b0 s) : Keeps k0 b0 (State.fsyncLoss s n) := by
  unfold State.fsyncLoss
  repeat' first | with_reducible assumption | intro _ | with_reducible apply State.setTp_keeps | with_reducible apply State.put_keeps | with_reducible apply State.fire_keeps | with_reducible apply State.bump_keeps | with_reducible apply State.tpStop_keeps | with_reducible apply State.setPort_keeps | with_reducible apply State.eachGrp_keeps | with_reducible apply State.grpAcquire_keeps | with_reducible apply Keeps.ite | with_reducible rfl | split | with_reducible apply Keeps.mk1

theorem State.fsyncReturn_keeps {k0 : Bool} {b0 : State} {s : State} (n : Nat) (hk : Keeps k0 b0 s) : Keeps k0 b0 (State.fsyncReturn s n) := by
  unfold State.fsyncReturn
  repeat' first | with_reducible assumption | intro _ | with_reducible apply State.enterResync_keeps | with_reducible apply Keeps.ite

theorem State.tpEnable_keeps {k0 : Bool} {b0 : State} {s : State} (n : Nat) (hk : Keeps k0 b0 s) : Keeps k0 b0 (State.tpEnable s n) := by
  unfold State.tpEnable
  repeat' first | with_reducible assumption | intro _ | with_reducible apply State.put_keeps | with_reducible apply State.setPort_keeps | with_reducible apply State.enterResync_keeps | with_reducible apply Keeps.ite | with_reducible rfl | with_reducible apply Keeps.mk1

theorem State.tpDisable_keeps {k0 : Bool} {b0 : State} {s : State} (n : Nat) (hk : Keeps k0 b0 s) : Keeps k0 b0 (State.tpDisable s n) := by
  unfold State.tpDisable
  repeat' first | with_reducible assumption | intro _ | with_reducible apply State.put_keeps | with_reducible apply State.setPort_keeps | with_reducible apply State.tpStop_keeps | with_reducible apply Keeps.ite | with_reducible rfl | with_reducible apply Keeps.mk1

theorem State.tpResyncReq_keeps {k0 : Bool} {b0 : State} {s : State} (n : Nat) (hk : Keeps k0 b0 s) : Keeps k0 b0 (State.tpResyncReq s n) := by
  unfold State.tpResyncReq
  repeat' first | with_reducible assumption | intro _ | with_reducible apply State.enterResync_keeps | with_reducible apply State.requalify_keeps | with_reducible apply State.put_keeps | with_reducible apply Keeps.ite

theorem State.tpCtrlWrite_keeps {k0 : Bool} {b0 : State} {s : State} (n : Nat) (v : Word) (hk : Keeps k0 b0 s) : Keeps k0 b0 (State.tpCtrlWrite s n v) := by
  unfold State.tpCtrlWrite
  repeat' first | with_reducible assumption | intro _ | with_reducible apply State.tpEnable_keeps | with_reducible apply State.tpDisable_keeps | with_reducible apply State.tpResyncReq_keeps | with_reducible apply Keeps.ite

theorem State.tpStoppedWrite_keeps {k0 : Bool} {b0 : State} {s : State} (n a : Nat) (mask v : Word) (hk : Keeps k0 b0 s) : Keeps k0 b0 (State.tpStoppedWrite s n a mask v) := by
  unfold State.tpStoppedWrite
  repeat' first | with_reducible assumption | intro _ | with_reducible apply State.wr_keeps | with_reducible apply State.setIf_keeps | with_reducible apply Keeps.ite

theorem State.maskWrite_keeps {k0 : Bool} {b0 : State} {s : State} (n : Nat) (out : Bool) (v : Word) (hk : Keeps k0 b0 s) : Keeps k0 b0 (State.maskWrite s n out v) := by
  unfold State.maskWrite
  repeat' first | with_reducible assumption | intro _ | with_reducible apply State.put_keeps | with_reducible apply Keeps.ite

theorem State.enterRun_keeps {k0 : Bool} {b0 : State} {s : State} (n : Nat) (ramp : Bool) (hk : Keeps k0 b0 s) : Keeps k0 b0 (State.enterRun s n ramp) := by
  unfold State.enterRun
  repeat' first | with_reducible assumption | intro _ | with_reducible apply State.setTp_keeps | with_reducible apply State.setPort_keeps | with_reducible apply Keeps.ite | with_reducible rfl | with_reducible apply Keeps.mk1

theorem State.portEnterRun_keeps {k0 : Bool} {b0 : State} {s : State} (n : Nat) (hk : Keeps k0 b0 s) : Keeps k0 b0 (State.portEnterRun s n) := by
  unfold State.portEnterRun
  repeat' first | with_reducible assumption | intro _ | with_reducible apply State.enterRun_keeps | with_reducible apply Keeps.ite

theorem State.periodShow_keeps {k0 : Bool} {b0 : State} {s : State} (n : Nat) (hk : Keeps k0 b0 s) : Keeps k0 b0 (State.periodShow s n) := by
  unfold State.periodShow
  repeat' first | with_reducible assumption | intro _ | with_reducible apply State.put_keeps | with_reducible apply Keeps.ite | (with_reducible apply Keeps.fold)

theorem State.qualify_keeps {k0 : Bool} {b0 : State} {s : State} (n : Nat) (good : Bool) (hk : Keeps k0 b0 s) : Keeps k0 b0 (State.qualify s n good) := by
  unfold State.qualify
  repeat' first | with_reducible assumption | intro _ | with_reducible apply State.setPort_keeps | with_reducible apply State.eachGrp_keeps | with_reducible apply State.grpAcquire_keeps | with_reducible apply Keeps.ite | with_reducible rfl | with_reducible apply Keeps.mk1

theorem State.rateCheck_keeps {k0 : Bool} {b0 : State} {s : State} (n per : Nat) (hk : Keeps k0 b0 s) : Keeps k0 b0 (State.rateCheck s n per) := by
  unfold State.rateCheck
  repeat' first | with_reducible assumption | intro _ | with_reducible apply State.setPort_keeps | with_reducible apply State.put_keeps | with_reducible apply State.enterResync_keeps | with_reducible apply Keeps.ite | with_reducible rfl | split | with_reducible apply Keeps.mk1

theorem State.lockCheck_keeps {k0 : Bool} {b0 : State} {s : State} (n per : Nat) (hk : Keeps k0 b0 s) : Keeps k0 b0 (State.lockCheck s n per) := by
  unfold State.lockCheck
  repeat' first | with_reducible assumption | intro _ | with_reducible apply State.eachGrp_keeps | with_reducible apply State.put_keeps | with_reducible apply State.enterResync_keeps | with_reducible apply State.asrcFollow_keeps | with_reducible apply Keeps.ite | with_reducible rfl | split | with_reducible apply Keeps.mk1

theorem State.pushIn_keeps {k0 : Bool} {b0 : State} {s : State} (n : Nat) (f : List Word) (hk : Keeps k0 b0 s) : Keeps k0 b0 (State.pushIn s n f) := by
  unfold State.pushIn
  repeat' first | with_reducible assumption | intro _ | with_reducible apply State.put_keeps | with_reducible apply State.bump_keeps | with_reducible apply State.setPort_keeps | with_reducible apply Keeps.ite | with_reducible rfl | with_reducible apply Keeps.mk1

theorem State.popIn_keeps {k0 : Bool} {b0 : State} {s : State} (n : Nat) (hk : Keeps k0 b0 s) : Keeps k0 b0 (s.popIn n).2.2 := by
  unfold State.popIn
  dsimp only
  split
  · exact hk
  · cases (s.port n).inF <;> dsimp only
    · exact State.bump_keeps _ _ (State.put_keeps _ _ hk)
    · exact State.setPort_keeps n _ hk

theorem State.asrcIn_keeps {k0 : Bool} {b0 : State} {s : State} (n : Nat) (hk : Keeps k0 b0 s) : Keeps k0 b0 (State.asrcIn s n) := by
  unfold State.asrcIn
  repeat' first | with_reducible assumption | intro _ | with_reducible apply State.popIn_keeps | with_reducible apply State.eachGrp_keeps | with_reducible apply State.setGrp_keeps | with_reducible apply Keeps.ite | with_reducible apply Keeps.ite2 | with_reducible rfl | with_reducible apply Keeps.mk1

theorem State.inputFrame_keeps {k0 : Bool} {b0 : State} {s : State} (n edges per : Nat) (words : List Word) (hk : Keeps k0 b0 s) : Keeps k0 b0 (State.inputFrame s n edges per words) := by
  unfold State.inputFrame
  repeat' first | with_reducible assumption | intro _ | with_reducible apply State.setPort_keeps | with_reducible apply State.periodShow_keeps | with_reducible apply State.put_keeps | with_reducible apply State.fire_keeps | with_reducible apply State.bump_keeps | with_reducible apply State.qualify_keeps | with_reducible apply State.asrcMeasure_keeps | with_reducible apply State.pushIn_keeps | with_reducible apply State.asrcIn_keeps | with_reducible apply State.rateCheck_keeps | with_reducible apply State.lockCheck_keeps | with_reducible apply Keeps.ite | with_reducible rfl | split | with_reducible apply Keeps.mk1

theorem State.latchMasks_keeps {k0 : Bool} {b0 : State} {s : State} (n : Nat) (hk : Keeps k0 b0 s) : Keeps k0 b0 (State.latchMasks s n) := by
  unfold State.latchMasks
  repeat' first | with_reducible assumption | intro _ | with_reducible apply State.put_keeps | with_reducible apply Keeps.ite

theorem State.popOut_keeps {k0 : Bool} {b0 : State} {s : State} (n : Nat) (hk : Keeps k0 b0 s) : Keeps k0 b0 (State.popOut s n).2 := by
  unfold State.popOut
  repeat' first | with_reducible assumption | intro _ | with_reducible apply State.setPort_keeps | with_reducible apply State.put_keeps | with_reducible apply State.bump_keeps | with_reducible apply Keeps.ite | with_reducible apply Keeps.ite2 | with_reducible rfl | split | with_reducible apply Keeps.mk1

theorem State.asrcSample_keeps {k0 : Bool} {b0 : State} {s : State} (g c dir : Nat) (hk : Keeps k0 b0 s) : Keeps k0 b0 (State.asrcSample s g c dir).2 := by
  unfold State.asrcSample
  repeat' first | with_reducible assumption | intro _ | with_reducible apply State.draw_keeps | with_reducible rfl | split | with_reducible apply Keeps.mk1

theorem State.asrcGave_keeps {k0 : Bool} {b0 : State} {s : State} (g c dir : Nat) (sat : Bool) (hk : Keeps k0 b0 s) : Keeps k0 b0 (State.asrcGave s g c dir sat) := by
  unfold State.asrcGave
  repeat' first | with_reducible assumption | intro _ | with_reducible apply State.setIf_keeps | with_reducible apply State.setGrp_keeps | with_reducible rfl | with_reducible apply Keeps.mk1

theorem State.asrcOutFrame_keeps {k0 : Bool} {b0 : State} {s : State} (n : Nat) (hk : Keeps k0 b0 s) : Keeps k0 b0 (s.asrcOutFrame n).2 := by
  unfold State.asrcOutFrame
  refine Keeps.fold2 _ hk (fun a sl ha => ?_)
  dsimp only
  split
  · exact ha
  · split
    · exact ha
    · exact State.asrcGave_keeps _ _ _ _ (State.asrcSample_keeps _ _ _ ha)

theorem State.pushOut_keeps {k0 : Bool} {b0 : State} {s : State} (n : Nat) (f : List Word) (hk : Keeps k0 b0 s) : Keeps k0 b0 (State.pushOut s n f) := by
  unfold State.pushOut
  repeat' first | with_reducible assumption | intro _ | with_reducible apply State.put_keeps | with_reducible apply State.bump_keeps | with_reducible apply State.setPort_keeps | with_reducible apply Keeps.ite | with_reducible rfl | with_reducible apply Keeps.mk1

/-- A frame starts in the cycle its port's clock gives it. -/
theorem State.frameMayStart_keeps {b0 s u : State} (n : Nat) (hk : Keeps false b0 s) (he : s.frameMayStart n = some u) : Keeps false b0 u := by
  unfold State.frameMayStart at he
  split at he
  · cases he
  · split at he
    · obtain ⟨c, -, rfl⟩ := Option.map_eq_some_iff.1 he
      exact State.atCyc_keeps c hk
    · cases he; exact hk

theorem State.outputFrame_keeps {b0 : State} {s : State} (n : Nat) (hk : Keeps false b0 s) : Keeps false b0 (s.outputFrame n) := by
  have h2 : ∀ t : State, Keeps false b0 t → Keeps false b0 (if t.tpBound n && t.runs then (t.asrcOutFrame n).2.pushOut n (t.asrcOutFrame n).1 else t) :=
    fun t ht => Keeps.ite (State.pushOut_keeps n _ (State.asrcOutFrame_keeps n ht)) ht
  unfold State.outputFrame
  split
  · exact hk
  · rename_i u he
    have hu := State.frameMayStart_keeps n hk he
    refine Keeps.ite (State.tpStop_keeps _ hu) (Keeps.ite ?_ hu)
    have h3 := State.popOut_keeps n (h2 _ (State.latchMasks_keeps n hu))
    exact Keeps.ite (State.setPort_keeps _ _ (State.setPort_keeps _ _ (State.setPort_keeps _ _ h3))) (State.setPort_keeps _ _ (State.setPort_keeps _ _ h3))

theorem State.slotNext_keeps {k0 : Bool} {b0 : State} {s : State} (n sl : Nat) (x : Word) (have_ : Bool) (hk : Keeps k0 b0 s) : Keeps k0 b0 (State.slotNext s n sl x have_).2 := by
  unfold State.slotNext
  repeat' first | with_reducible assumption | intro _ | with_reducible apply State.setPort_keeps | with_reducible apply Keeps.ite | with_reducible apply Keeps.ite2 | with_reducible rfl | with_reducible apply Keeps.mk1

theorem State.takeIn_keeps {k0 : Bool} {b0 : State} {s : State} (n : Nat) (hk : Keeps k0 b0 s) : Keeps k0 b0 (s.takeIn n).2.2 := by
  unfold State.takeIn
  split
  · exact hk
  · exact State.popIn_keeps n hk

theorem State.takePoint_keeps {k0 : Bool} {b0 : State} {s : State} (n : Nat) (hk : Keeps k0 b0 s) : Keeps k0 b0 (State.takePoint s n) := by
  unfold State.takePoint
  repeat' first | with_reducible assumption | intro _ | with_reducible apply State.takeIn_keeps | with_reducible apply State.slotNext_keeps | with_reducible apply State.inject_keeps | with_reducible apply State.pushOut_keeps | with_reducible apply Keeps.ite | with_reducible apply Keeps.ite2 | (with_reducible apply Keeps.fold) | split

theorem State.asrcTick_keeps {k0 : Bool} {b0 : State} {s : State} (d : RDom) (hk : Keeps k0 b0 s) : Keeps k0 b0 (State.asrcTick s d) := by
  unfold State.asrcTick
  repeat' first | with_reducible assumption | intro _ | with_reducible apply State.setGrp_keeps | with_reducible apply State.asrcSample_keeps | with_reducible apply State.asrcGave_keeps | with_reducible apply State.slotNext_keeps | with_reducible apply State.inject_keeps | with_reducible apply Keeps.ite | with_reducible apply Keeps.ite2 | (with_reducible apply Keeps.fold) | with_reducible rfl | split | with_reducible apply Keeps.mk1

theorem State.asrcWrite_keeps {k0 : Bool} {b0 : State} {s : State} (g which : Nat) (v : Word) (hk : Keeps k0 b0 s) : Keeps k0 b0 (State.asrcWrite s g which v) := by
  unfold State.asrcWrite
  repeat' first | with_reducible assumption | intro _ | with_reducible apply State.put_keeps | with_reducible apply State.wr_keeps | with_reducible apply State.grpSilent_keeps | with_reducible apply State.grpOff_keeps | with_reducible apply State.useSync_keeps | with_reducible apply State.setGrp_keeps | with_reducible apply Keeps.ite | with_reducible rfl | split | with_reducible apply Keeps.mk1

theorem State.asrcLock_keeps {k0 : Bool} {b0 : State} {s : State} (g : Nat) (hk : Keeps k0 b0 s) : Keeps k0 b0 (State.asrcLock s g) := by
  unfold State.asrcLock
  repeat' first | with_reducible assumption | intro _ | with_reducible apply State.eachGrp_keeps | with_reducible apply State.put_keeps | with_reducible apply State.setGrp_keeps | with_reducible apply State.setPort_keeps | with_reducible apply Keeps.ite | with_reducible rfl | with_reducible apply Keeps.mk1

theorem State.setMic_keeps {k0 : Bool} {b0 : State} {s : State} (c : Nat) (f : PdmCh → PdmCh) (hk : Keeps k0 b0 s) : Keeps k0 b0 (State.setMic s c f) := by
  unfold State.setMic
  repeat' first | with_reducible assumption | intro _ | with_reducible rfl | with_reducible apply Keeps.mk1

theorem State.pdmRun_keeps {k0 : Bool} {b0 : State} {s : State} (k : Nat) (on : Bool) (hk : Keeps k0 b0 s) : Keeps k0 b0 (State.pdmRun s k on) := by
  unfold State.pdmRun
  repeat' first | with_reducible assumption | intro _ | with_reducible apply State.put_keeps | with_reducible apply State.clampSync_keeps

theorem State.pdmReady_keeps {k0 : Bool} {b0 : State} {s : State} (k : Nat) (on : Bool) (hk : Keeps k0 b0 s) : Keeps k0 b0 (State.pdmReady s k on) := by
  unfold State.pdmReady
  repeat' first | with_reducible assumption | intro _ | with_reducible rfl | with_reducible apply Keeps.mk1

theorem State.eachMic_keeps {k0 : Bool} {b0 : State} {s : State} (k : Nat) (f : PdmCh → PdmCh) (hk : Keeps k0 b0 s) : Keeps k0 b0 (State.eachMic s k f) := by
  unfold State.eachMic
  repeat' first | with_reducible assumption | intro _ | with_reducible apply State.setMic_keeps | (with_reducible apply Keeps.fold)

theorem State.pdmOff_keeps {k0 : Bool} {b0 : State} {s : State} (k : Nat) (hk : Keeps k0 b0 s) : Keeps k0 b0 (State.pdmOff s k) := by
  unfold State.pdmOff
  repeat' first | with_reducible assumption | intro _ | with_reducible apply State.pdmRun_keeps | with_reducible apply State.pdmReady_keeps | with_reducible apply State.put_keeps | with_reducible apply State.eachMic_keeps | with_reducible rfl | with_reducible apply Keeps.mk1

theorem State.pdmTakeGroup_keeps {k0 : Bool} {b0 : State} {s : State} (k : Nat) (hk : Keeps k0 b0 s) : Keeps k0 b0 (State.pdmTakeGroup s k) := by
  unfold State.pdmTakeGroup
  repeat' first | with_reducible assumption | intro _ | with_reducible apply State.pdmOff_keeps | with_reducible apply Keeps.ite | with_reducible rfl | with_reducible apply Keeps.mk1

theorem State.pdmTakeCh_keeps {k0 : Bool} {b0 : State} {s : State} (c : Nat) (hk : Keeps k0 b0 s) : Keeps k0 b0 (State.pdmTakeCh s c) := by
  unfold State.pdmTakeCh
  repeat' first | with_reducible assumption | intro _ | with_reducible apply State.setMic_keeps | with_reducible apply Keeps.ite | with_reducible rfl | with_reducible apply Keeps.mk1

theorem State.pdmTake_keeps {k0 : Bool} {b0 : State} {s : State} (hk : Keeps k0 b0 s) : Keeps k0 b0 (State.pdmTake s) := by
  unfold State.pdmTake
  repeat' first | with_reducible assumption | intro _ | with_reducible apply State.pdmTakeCh_keeps | with_reducible apply State.pdmTakeGroup_keeps | with_reducible apply State.useSync_keeps | (with_reducible apply Keeps.fold)

theorem State.pdmAssign_keeps {k0 : Bool} {b0 : State} (s old : State) (cs : List Nat) (hk : Keeps k0 b0 s) : Keeps k0 b0 (State.pdmAssign s old cs) := by
  unfold State.pdmAssign
  repeat' first | with_reducible assumption | intro _ | with_reducible apply State.setMic_keeps | with_reducible apply Keeps.ite | (with_reducible apply Keeps.fold) | with_reducible rfl | with_reducible apply Keeps.mk1

theorem State.pdmClkWrite_keeps {k0 : Bool} {b0 : State} {s : State} (k : Nat) (v : Word) (hk : Keeps k0 b0 s) : Keeps k0 b0 (State.pdmClkWrite s k v) := by
  unfold State.pdmClkWrite
  repeat' first | with_reducible assumption | intro _ | with_reducible apply State.setIf_keeps | with_reducible apply State.put_keeps | with_reducible apply State.useSync_keeps | with_reducible apply State.wr_keeps | with_reducible apply State.pdmAssign_keeps | with_reducible apply Keeps.ite

theorem State.pdmCtrlWrite_keeps {k0 : Bool} {b0 : State} {s : State} (v : Word) (hk : Keeps k0 b0 s) : Keeps k0 b0 (State.pdmCtrlWrite s v) := by
  unfold State.pdmCtrlWrite
  repeat' first | with_reducible assumption | intro _ | with_reducible apply State.put_keeps | with_reducible apply Keeps.ite

theorem State.pdmClockStart_keeps {k0 : Bool} {b0 : State} {s : State} (k : Nat) (hk : Keeps k0 b0 s) : Keeps k0 b0 (State.pdmClockStart s k) := by
  unfold State.pdmClockStart
  repeat' first | with_reducible assumption | intro _ | with_reducible apply State.pdmRun_keeps | with_reducible apply State.pdmReady_keeps | with_reducible apply State.eachMic_keeps | with_reducible apply Keeps.ite | with_reducible rfl | with_reducible apply Keeps.mk1

theorem State.pdmWake_keeps {k0 : Bool} {b0 : State} {s : State} (k : Nat) (hk : Keeps k0 b0 s) : Keeps k0 b0 (State.pdmWake s k) := by
  unfold State.pdmWake
  repeat' first | with_reducible assumption | intro _ | with_reducible apply State.setMic_keeps | with_reducible apply State.pdmReady_keeps | with_reducible apply Keeps.ite | (with_reducible apply Keeps.fold) | with_reducible rfl | with_reducible apply Keeps.mk1

theorem State.pdmChWrite_keeps {k0 : Bool} {b0 : State} {s : State} (c : Nat) (v : Word) (hk : Keeps k0 b0 s) : Keeps k0 b0 (State.pdmChWrite s c v) := by
  unfold State.pdmChWrite
  repeat' first | with_reducible assumption | intro _ | with_reducible apply State.wr_keeps | with_reducible apply State.pdmAssign_keeps | with_reducible apply State.useSync_keeps

theorem State.micStuck_keeps {k0 : Bool} {b0 : State} {s : State} (c : Nat) (hk : Keeps k0 b0 s) : Keeps k0 b0 (State.micStuck s c) := by
  unfold State.micStuck
  repeat' first | with_reducible assumption | intro _ | with_reducible apply State.put_keeps | with_reducible apply State.setMic_keeps | with_reducible apply Keeps.ite | with_reducible rfl | with_reducible apply Keeps.mk1

theorem State.micClear_keeps {k0 : Bool} {b0 : State} {s : State} (c : Nat) (hk : Keeps k0 b0 s) : Keeps k0 b0 (State.micClear s c) := by
  unfold State.micClear
  repeat' first | with_reducible assumption | intro _ | with_reducible apply State.put_keeps | with_reducible apply State.setMic_keeps | with_reducible apply Keeps.ite | with_reducible rfl | with_reducible apply Keeps.mk1

theorem State.drawBits_keeps {k0 : Bool} {b0 : State} {s : State} (n : Nat) (hk : Keeps k0 b0 s) : Keeps k0 b0 (s.drawBits n).2 :=
  ⟨hk.pend, Nat.le_trans hk.free (Nat.le_add_right _ _), hk.regs, hk.mem, hk.time⟩

theorem State.micValue_keeps {k0 : Bool} {b0 : State} {s : State} (c d : Nat) (hk : Keeps k0 b0 s) : Keeps k0 b0 (State.micValue s c d).2 := by
  unfold State.micValue
  repeat' first | with_reducible assumption | intro _ | with_reducible apply State.drawBits_keeps | with_reducible apply State.setMic_keeps | with_reducible apply State.draw_keeps | with_reducible rfl | split | with_reducible apply Keeps.mk1

theorem State.micSample_keeps {k0 : Bool} {b0 : State} {s : State} (c f : Nat) (hk : Keeps k0 b0 s) : Keeps k0 b0 (s.micSample c f).2 := by
  have h1 := State.micValue_keeps c (ng s.pdm.d (c / 8) 0) hk
  unfold State.micSample
  generalize s.micValue c (ng s.pdm.d (c / 8) 0) = a at h1
  show Keeps k0 b0 (match (a.2.mic c).filter (s.get (F.pdmChcfgDcf c)) f a.1 with
    | some m => ((sat32 (rnd (m.dcY * pow20 (s.micGain c)) 56) : Word × Bool), a.2.setMic c (fun _ => m))
    | none => ((a.2.draw.1, false), a.2.draw.2)).2
  generalize (a.2.mic c).filter (s.get (F.pdmChcfgDcf c)) f a.1 = o
  cases o with
  | some m => exact id (State.setMic_keeps c (fun _ => m) h1 : Keeps k0 b0 (a.2.setMic c (fun _ => m)))
  | none => exact id (State.draw_keeps h1)

theorem State.micTick_keeps {k0 : Bool} {b0 : State} {s : State} (c f : Nat) (hk : Keeps k0 b0 s) : Keeps k0 b0 (State.micTick s c f) := by
  unfold State.micTick
  repeat' first | with_reducible assumption | intro _ | with_reducible apply State.micSample_keeps | with_reducible apply State.bump_keeps | with_reducible apply State.put_keeps | with_reducible apply State.setMic_keeps | with_reducible apply State.inject_keeps | with_reducible apply Keeps.ite | with_reducible apply Keeps.ite2 | with_reducible rfl | split | with_reducible apply Keeps.mk1

theorem State.pdmTick_keeps {k0 : Bool} {b0 : State} {s : State} (d : RDom) (hk : Keeps k0 b0 s) : Keeps k0 b0 (State.pdmTick s d) := by
  unfold State.pdmTick
  repeat' first | with_reducible assumption | intro _ | with_reducible apply State.micTick_keeps | with_reducible apply Keeps.ite | (with_reducible apply Keeps.fold)

theorem State.epochResync_keeps {k0 : Bool} {b0 : State} {s : State} (n : Nat) (hk : Keeps k0 b0 s) : Keeps k0 b0 (State.epochResync s n) := by
  unfold State.epochResync
  repeat' first | with_reducible assumption | intro _ | with_reducible apply State.setPort_keeps | with_reducible apply State.enterResync_keeps | with_reducible rfl | with_reducible apply Keeps.mk1

theorem State.asrcEpoch_keeps {k0 : Bool} {b0 : State} {s : State} (n cause : Nat) (hk : Keeps k0 b0 s) : Keeps k0 b0 (State.asrcEpoch s n cause) := by
  unfold State.asrcEpoch
  repeat' first | with_reducible assumption | intro _ | with_reducible apply State.epochResync_keeps | with_reducible apply State.eachGrp_keeps | with_reducible apply State.put_keeps | with_reducible apply State.setGrp_keeps | with_reducible apply Keeps.ite | with_reducible rfl | split | with_reducible apply Keeps.mk1

theorem State.persEpoch_keeps {k0 : Bool} {b0 : State} {s : State} (n : Nat) (hk : Keeps k0 b0 s) : Keeps k0 b0 (State.persEpoch s n) := by
  unfold State.persEpoch
  repeat' first | with_reducible assumption | intro _ | with_reducible apply State.setPort_keeps | with_reducible apply Keeps.ite | with_reducible rfl | with_reducible apply Keeps.mk1

theorem State.portsEpoch_keeps {k0 : Bool} {b0 : State} {s : State} (cause : Nat) (hk : Keeps k0 b0 s) : Keeps k0 b0 (State.portsEpoch s cause) := by
  unfold State.portsEpoch
  repeat' first | with_reducible assumption | intro _ | with_reducible apply State.persEpoch_keeps | with_reducible apply State.asrcEpoch_keeps | with_reducible apply State.enterRun_keeps | with_reducible apply Keeps.ite | (with_reducible apply Keeps.fold)

theorem State.portsStop_keeps {k0 : Bool} {b0 : State} {s : State} (hk : Keeps k0 b0 s) : Keeps k0 b0 (State.portsStop s) := by
  unfold State.portsStop
  repeat' first | with_reducible assumption | intro _ | with_reducible apply State.setPort_keeps | (with_reducible apply Keeps.fold) | with_reducible rfl | with_reducible apply Keeps.mk1

theorem State.pdmEpoch_keeps {k0 : Bool} {b0 : State} {s : State} (cause : Nat) (hk : Keeps k0 b0 s) : Keeps k0 b0 (State.pdmEpoch s cause) := by
  unfold State.pdmEpoch
  repeat' first | with_reducible assumption | intro _ | with_reducible apply State.put_keeps | with_reducible apply State.pdmRun_keeps | with_reducible apply State.pdmReady_keeps | with_reducible apply State.eachMic_keeps | with_reducible apply State.pdmClockStart_keeps | with_reducible apply Keeps.ite | (with_reducible apply Keeps.fold) | split

theorem execPortEnable_keeps (m : Master) (n : Fin 6) (s : State) {r0 : State} (hr : execPortEnable m n s = .next r0) : Keeps true s r0 := by
  cases hr
  have hk := Keeps.rfl true s
  repeat' first | with_reducible assumption | intro _ | with_reducible apply State.guard_keeps | with_reducible apply State.tpEnable_keeps | with_reducible apply State.settle_keeps

theorem execPortDisable_keeps (m : Master) (n : Fin 6) (s : State) {r0 : State} (hr : execPortDisable m n s = .next r0) : Keeps true s r0 := by
  cases hr
  have hk := Keeps.rfl true s
  repeat' first | with_reducible assumption | intro _ | with_reducible apply State.guard_keeps | with_reducible apply State.tpDisable_keeps | with_reducible apply State.settle_keeps

theorem execPortResyncRequest_keeps (m : Master) (n : Fin 6) (s : State) {r0 : State} (hr : execPortResyncRequest m n s = .next r0) : Keeps true s r0 := by
  cases hr
  have hk := Keeps.rfl true s
  repeat' first | with_reducible assumption | intro _ | with_reducible apply State.guard_keeps | with_reducible apply State.tpResyncReq_keeps | with_reducible apply State.settle_keeps

theorem execPortEnterRun_keeps (n : Fin 6) (s : State) {r0 : State} (hr : execPortEnterRun n s = .next r0) : Keeps true s r0 := by
  cases hr
  have hk := Keeps.rfl true s
  repeat' first | with_reducible assumption | intro _ | with_reducible apply State.portEnterRun_keeps | with_reducible apply State.settle_keeps

theorem execInputFrameComplete_keeps (n : Fin 6) (edges period : Nat) (words : List Word) (s : State) {r0 : State} (hr : execInputFrameComplete n edges period words s = .next r0) : Keeps true s r0 := by
  cases hr
  have hk := Keeps.rfl true s
  repeat' first | with_reducible assumption | intro _ | with_reducible apply State.inputFrame_keeps | with_reducible apply State.settle_keeps

theorem execOutputFrameStart_keeps (n : Fin 6) (s : State) {r0 : State} (hr : execOutputFrameStart n s = .next r0) : Keeps false s r0 := by
  cases hr
  have hk := Keeps.rfl false s
  repeat' first | with_reducible assumption | intro _ | with_reducible apply State.outputFrame_keeps | with_reducible apply State.settle_keeps

theorem execTakePoint_keeps (n : Fin 6) (s : State) {r0 : State} (hr : execTakePoint n s = .next r0) : Keeps false s r0 := by
  cases hr
  have hk := Keeps.rfl false s
  repeat' first | with_reducible assumption | intro _ | with_reducible apply State.atCyc_keeps | with_reducible apply State.takePoint_keeps | with_reducible apply State.settle_keeps

theorem execSlotmaskWrite_keeps (m : Master) (n : Fin 6) (out : Bool) (v : Word) (s : State) {r0 : State} (hr : execSlotmaskWrite m n out v s = .next r0) : Keeps true s r0 := by
  cases hr
  have hk := Keeps.rfl true s
  repeat' first | with_reducible assumption | intro _ | with_reducible apply State.guard_keeps | with_reducible apply State.maskWrite_keeps

theorem execFsyncLoss_keeps (n : Fin 6) (s : State) {r0 : State} (hr : execFsyncLoss n s = .next r0) : Keeps true s r0 := by
  cases hr
  have hk := Keeps.rfl true s
  repeat' first | with_reducible assumption | intro _ | with_reducible apply State.fsyncLoss_keeps | with_reducible apply State.settle_keeps | with_reducible apply Keeps.ite | with_reducible apply Keeps.ite2

theorem execFsyncReturn_keeps (n : Fin 6) (s : State) {r0 : State} (hr : execFsyncReturn n s = .next r0) : Keeps true s r0 := by
  cases hr
  have hk := Keeps.rfl true s
  repeat' first | with_reducible assumption | intro _ | with_reducible apply State.fsyncReturn_keeps | with_reducible apply State.settle_keeps

theorem execAsrcConfig_keeps (m : Master) (g : Fin 8) (which : Fin 3) (v : Word) (s : State) {r0 : State} (hr : execAsrcConfig m g which v s = .next r0) : Keeps true s r0 := by
  cases hr
  have hk := Keeps.rfl true s
  repeat' first | with_reducible assumption | intro _ | with_reducible apply State.guard_keeps | with_reducible apply State.asrcWrite_keeps

theorem execAsrcLoopTimer_keeps (g : Fin 8) (s : State) {r0 : State} (hr : execAsrcLoopTimer g s = .next r0) : Keeps true s r0 := by
  cases hr
  have hk := Keeps.rfl true s
  repeat' first | with_reducible assumption | intro _ | with_reducible apply State.asrcLock_keeps | with_reducible apply State.settle_keeps

theorem execPdmGroupEnable_keeps (m : Master) (k : Fin 3) (v : Word) (s : State) {r0 : State} (hr : execPdmGroupEnable m k v s = .next r0) : Keeps true s r0 := by
  cases hr
  have hk := Keeps.rfl true s
  repeat' first | with_reducible assumption | intro _ | with_reducible apply State.guard_keeps | with_reducible apply State.pdmClkWrite_keeps

theorem execPdmClockStart_keeps (k : Fin 3) (s : State) {r0 : State} (hr : execPdmClockStart k s = .next r0) : Keeps true s r0 := by
  cases hr
  have hk := Keeps.rfl true s
  repeat' first | with_reducible assumption | intro _ | with_reducible apply State.pdmClockStart_keeps

theorem execPdmWakeExpiry_keeps (k : Fin 3) (s : State) {r0 : State} (hr : execPdmWakeExpiry k s = .next r0) : Keeps true s r0 := by
  cases hr
  have hk := Keeps.rfl true s
  repeat' first | with_reducible assumption | intro _ | with_reducible apply State.pdmWake_keeps

theorem execPdmChannelEnable_keeps (m : Master) (c : Fin 24) (v : Word) (s : State) {r0 : State} (hr : execPdmChannelEnable m c v s = .next r0) : Keeps true s r0 := by
  cases hr
  have hk := Keeps.rfl true s
  repeat' first | with_reducible assumption | intro _ | with_reducible apply State.guard_keeps | with_reducible apply State.pdmChWrite_keeps

theorem execMicStuck_keeps (c : Fin 24) (s : State) {r0 : State} (hr : execMicStuck c s = .next r0) : Keeps true s r0 := by
  cases hr
  have hk := Keeps.rfl true s
  repeat' first | with_reducible assumption | intro _ | with_reducible apply State.micStuck_keeps

theorem execMicStuckClear_keeps (c : Fin 24) (s : State) {r0 : State} (hr : execMicStuckClear c s = .next r0) : Keeps true s r0 := by
  cases hr
  have hk := Keeps.rfl true s
  repeat' first | with_reducible assumption | intro _ | with_reducible apply State.micClear_keeps

end Sys2Proof.Machine
end

