-- ==== Sys2Proof/Laws/Keep/Mem.lean ====
section
/-! SUPPORT. What the helpers and meanings of Machine/Mem.lean keep. -/

namespace Sys2Proof.Machine

theorem State.fail_keeps {k0 : Bool} {b0 : State} {s : State} (k : Nat) (hk : Keeps k0 b0 s) : Keeps k0 b0 (State.fail s k) := by
  unfold State.fail
  repeat' first | with_reducible assumption | intro _ | with_reducible apply State.setIf_keeps | with_reducible rfl | with_reducible apply Keeps.mk1

theorem State.ueClear_keeps {k0 : Bool} {b0 : State} {s : State} (a n gran : Nat) (hk : Keeps k0 b0 s) : Keeps k0 b0 (State.ueClear s a n gran) := by
  unfold State.ueClear
  repeat' first | with_reducible assumption | intro _ | with_reducible rfl | with_reducible apply Keeps.mk1

theorem State.ueSeen_keeps {k0 : Bool} {b0 : State} {s : State} (u : Nat) (hk : Keeps k0 b0 s) : Keeps k0 b0 (State.ueSeen s u) := by
  unfold State.ueSeen
  repeat' first | with_reducible assumption | intro _ | with_reducible apply State.wr_keeps | with_reducible apply State.put_keeps | with_reducible apply State.cntInc_keeps | with_reducible apply State.flog_keeps | with_reducible apply State.fail_keeps | with_reducible apply Keeps.ite

theorem State.ceSeen_keeps {k0 : Bool} {b0 : State} {s : State} (a : Nat) (hk : Keeps k0 b0 s) : Keeps k0 b0 (State.ceSeen s a) := by
  unfold State.ceSeen
  repeat' first | with_reducible assumption | intro _ | with_reducible apply State.bump_keeps | with_reducible apply Keeps.ite

theorem State.eccMark_keeps {k0 : Bool} {b0 : State} {s : State} (a gran ecc : Nat) (hk : Keeps k0 b0 s) : Keeps k0 b0 (State.eccMark s a gran ecc) := by
  unfold State.eccMark
  repeat' first | with_reducible assumption | intro _ | with_reducible apply State.ceSeen_keeps | with_reducible apply Keeps.ite | with_reducible rfl | with_reducible apply Keeps.mk1

theorem State.eccRead_keeps {k0 : Bool} {b0 : State} {s : State} (a n gran ecc : Nat) (data : State → List Byte) (hk : Keeps k0 b0 s) :
    Keeps k0 b0 (s.eccRead a n gran ecc data).2 := by
  unfold State.eccRead
  dsimp only
  split
  · exact State.ueSeen_keeps _ (State.eccMark_keeps a gran ecc hk)
  · exact State.ok_keeps (State.eccMark_keeps a gran ecc hk)

theorem State.sharedRead_keeps {k0 : Bool} {b0 : State} {s : State} (a n ecc : Nat) (old : Bool) (hk : Keeps k0 b0 s) : Keeps k0 b0 (State.sharedRead s a n ecc old).2 := by
  unfold State.sharedRead
  repeat' first | with_reducible assumption | intro _ | with_reducible apply State.fail_keeps | with_reducible apply State.eccRead_keeps | with_reducible apply Keeps.ite | with_reducible apply Keeps.ite2

theorem State.sharedLand_keeps {k0 : Bool} {b0 : State} {s : State} (a kind : Nat) (data : List Byte) (hk : Keeps k0 b0 s) : Keeps k0 b0 (State.sharedLand s a kind data) := by
  unfold State.sharedLand
  repeat' first | with_reducible assumption | intro _ | with_reducible apply State.ueClear_keeps | with_reducible apply State.wbs_keeps | with_reducible apply State.ok_keeps | with_reducible apply Keeps.ite

theorem State.sharedWrite_keeps {k0 : Bool} {b0 : State} {s : State} (a kind : Nat) (data : List Byte) (old : Bool) (hk : Keeps k0 b0 s) : Keeps k0 b0 (State.sharedWrite s a kind data old) := by
  unfold State.sharedWrite
  repeat' first | with_reducible assumption | intro _ | with_reducible apply State.fail_keeps | with_reducible apply State.sharedLand_keeps | with_reducible apply Keeps.ite

theorem State.vermRefuse_keeps {k0 : Bool} {b0 : State} {s : State} (m : Master) (hk : Keeps k0 b0 s) : Keeps k0 b0 (State.vermRefuse s m) := by
  unfold State.vermRefuse
  repeat' first | with_reducible assumption | intro _ | with_reducible apply State.bump_keeps | with_reducible apply State.denied_keeps | with_reducible apply State.fail_keeps | with_reducible rfl | split | with_reducible apply Keeps.mk1

theorem State.vermWrite_keeps {k0 : Bool} {b0 : State} {s : State} (m : Master) (a : Nat) (data : List Byte) (hk : Keeps k0 b0 s) : Keeps k0 b0 (State.vermWrite s m a data) := by
  unfold State.vermWrite
  repeat' first | with_reducible assumption | intro _ | with_reducible apply State.vermRefuse_keeps | with_reducible apply State.wbs_keeps | with_reducible apply State.ok_keeps | with_reducible apply Keeps.ite | with_reducible rfl | with_reducible apply Keeps.mk1

theorem State.tokensZero_keeps {k0 : Bool} {b0 : State} {s : State} (hk : Keeps k0 b0 s) : Keeps k0 b0 (State.tokensZero s) := by
  unfold State.tokensZero
  repeat' first | with_reducible assumption | intro _ | with_reducible apply State.wr_keeps | (with_reducible apply Keeps.fold)

theorem State.unlockTry_keeps {k0 : Bool} {b0 : State} {s : State} (hk : Keeps k0 b0 s) : Keeps k0 b0 (State.unlockTry s) := by
  unfold State.unlockTry
  repeat' first | with_reducible assumption | intro _ | with_reducible apply State.tokensZero_keeps | with_reducible apply State.put_keeps | with_reducible apply State.bump_keeps | with_reducible apply State.cntInc_keeps | with_reducible apply State.setIf_keeps | with_reducible apply Keeps.ite | split

theorem State.lockReq_keeps {k0 : Bool} {b0 : State} {s : State} (hk : Keeps k0 b0 s) : Keeps k0 b0 (State.lockReq s) := by
  unfold State.lockReq
  repeat' first | with_reducible assumption | intro _ | with_reducible apply State.put_keeps | with_reducible apply Keeps.ite

theorem State.sealReq_keeps {k0 : Bool} {b0 : State} {s : State} (m : Master) (hk : Keeps k0 b0 s) : Keeps k0 b0 (State.sealReq s m) := by
  unfold State.sealReq
  repeat' first | with_reducible assumption | intro _ | with_reducible apply State.put_keeps | with_reducible apply Keeps.ite | with_reducible rfl | with_reducible apply Keeps.mk1

theorem State.sealEnd_keeps {k0 : Bool} {b0 : State} {s : State} (hk : Keeps k0 b0 s) : Keeps k0 b0 (State.sealEnd s) := by
  unfold State.sealEnd
  repeat' first | with_reducible assumption | intro _ | with_reducible apply State.draw_keeps | with_reducible apply State.put_keeps | with_reducible apply State.wbs_keeps | with_reducible apply Keeps.ite | with_reducible apply Keeps.ite2 | (with_reducible apply Keeps.fold) | with_reducible rfl | with_reducible apply Keeps.mk1

theorem State.wipeStart_keeps {k0 : Bool} {b0 : State} {s : State} (cause : Nat) (hk : Keeps k0 b0 s) : Keeps k0 b0 (State.wipeStart s cause) := by
  unfold State.wipeStart
  repeat' first | with_reducible assumption | intro _ | with_reducible apply State.put_keeps | with_reducible apply Keeps.ite | with_reducible rfl | split | with_reducible apply Keeps.mk1

theorem State.wipeEnd_keeps {k0 : Bool} {b0 : State} {s : State} (ok : Bool) (hk : Keeps k0 b0 s) : Keeps k0 b0 (State.wipeEnd s ok) := by
  unfold State.wipeEnd
  repeat' first | with_reducible assumption | intro _ | with_reducible apply State.ok_keeps | with_reducible apply State.put_keeps | with_reducible apply State.memClear_keeps | with_reducible apply State.cntInc_keeps | with_reducible apply State.flog_keeps | with_reducible apply Keeps.ite | with_reducible rfl | with_reducible apply Keeps.mk1

theorem State.pageUeSeen_keeps {k0 : Bool} {b0 : State} {s : State} (hk : Keeps k0 b0 s) : Keeps k0 b0 (State.pageUeSeen s) := by
  unfold State.pageUeSeen
  repeat' first | with_reducible assumption | intro _ | with_reducible apply State.draw_keeps | with_reducible apply State.wr_keeps | with_reducible apply State.put_keeps | with_reducible apply State.cntInc_keeps | with_reducible apply State.flog_keeps

theorem State.vermRestore_keeps {k0 : Bool} {b0 : State} {s : State} (hk : Keeps k0 b0 s) : Keeps k0 b0 s.vermRestore := by
  unfold State.vermRestore
  have h1 := State.memClear_keeps hk 0x03000000 0x03002000
  split
  · exact State.put_keeps _ _ hk
  · split
    · exact State.wipeStart_keeps _ (State.pageUeSeen_keeps hk)
    · split
      · exact State.put_keeps _ _ ⟨h1.pend, h1.free, h1.regs, fun k => spFoldAt_wf (fun x => 0x03000000 + x) _ (h1.mem k), h1.time⟩
      · exact State.wipeStart_keeps _ hk

theorem State.vermCtrlWrite_keeps {k0 : Bool} {b0 : State} {s : State} (m : Master) (v : Word) (hk : Keeps k0 b0 s) : Keeps k0 b0 (State.vermCtrlWrite s m v) := by
  unfold State.vermCtrlWrite
  repeat' first | with_reducible assumption | intro _ | with_reducible exact ‹Keeps _ _ _› | (change Keeps _ _ _ ; exact ‹Keeps _ _ _›) | with_reducible apply State.guard_keeps | with_reducible apply State.wipeStart_keeps | with_reducible apply State.sealReq_keeps | with_reducible apply State.lockReq_keeps | with_reducible apply State.unlockTry_keeps | with_reducible apply Keeps.ite

theorem State.mramPut_keeps {k0 : Bool} {b0 : State} {s : State} (m : Master) (a : Nat) (data : List Byte) (hk : Keeps k0 b0 s) : Keeps k0 b0 (State.mramPut s m a data) := by
  unfold State.mramPut
  repeat' first | with_reducible assumption | intro _ | with_reducible apply State.ueSeen_keeps | with_reducible apply State.mramPush_keeps | with_reducible apply State.put_keeps | with_reducible apply State.wr_keeps | with_reducible apply State.fail_keeps | with_reducible apply Keeps.ite | with_reducible rfl | split | with_reducible apply Keeps.mk1

theorem State.recordFeed_keeps {k0 : Bool} {b0 : State} {s : State} (hk : Keeps k0 b0 s) : Keeps k0 b0 (State.recordFeed s) := by
  unfold State.recordFeed
  repeat' first | with_reducible assumption | intro _ | with_reducible apply State.mramPush_keeps | with_reducible apply State.setIf_keeps | with_reducible apply Keeps.ite | with_reducible rfl | with_reducible apply Keeps.mk1

theorem State.mramDone_keeps {k0 : Bool} {b0 : State} {s : State} (hk : Keeps k0 b0 s) : Keeps k0 b0 (State.mramDone s) := by
  unfold State.mramDone
  repeat' first | with_reducible assumption | intro _ | with_reducible apply State.ueClear_keeps | with_reducible apply State.wbs_keeps | with_reducible apply State.mramShow_keeps | with_reducible apply State.recordFeed_keeps | with_reducible rfl | split | with_reducible apply Keeps.mk1

theorem State.cntIncWrite_keeps {k0 : Bool} {b0 : State} {s : State} (v : Word) (hk : Keeps k0 b0 s) : Keeps k0 b0 (State.cntIncWrite s v) := by
  unfold State.cntIncWrite
  repeat' first | with_reducible assumption | intro _ | with_reducible apply State.put_keeps | with_reducible apply State.cntInc_keeps | with_reducible apply Keeps.ite

theorem State.byWords_keeps {k0 : Bool} {b0 : State} {s : State} (a : Nat) (data : List Byte) (rd : State → Nat → Word) (wr : State → Nat → Word → State) (hk : Keeps k0 b0 s) (hwr : ∀ t y0 y1, Keeps k0 b0 t → Keeps k0 b0 (wr t y0 y1)) : Keeps k0 b0 (State.byWords s a data rd wr) := by
  unfold State.byWords
  repeat' first | with_reducible assumption | intro _ | with_reducible apply hwr | with_reducible apply State.wr_keeps | with_reducible apply Keeps.ite | (with_reducible apply Keeps.fold)

theorem State.teMemWrite_keeps {k0 : Bool} {b0 : State} {s : State} (m : Master) (a : Nat) (v : Word) (hk : Keeps k0 b0 s) : Keeps k0 b0 (State.teMemWrite s m a v) := by
  unfold State.teMemWrite
  repeat' first | with_reducible assumption | intro _ | with_reducible apply State.ok_keeps | with_reducible apply State.dlyFabWrite_keeps | with_reducible apply State.pmemWrite_keeps | with_reducible apply State.actWrite_keeps | with_reducible apply State.shWrite_keeps | with_reducible apply Keeps.ite

theorem State.localWrite_keeps {k0 : Bool} {b0 : State} {s : State} (a : Nat) (data : List Byte) (same : Bool) (hk : Keeps k0 b0 s) : Keeps k0 b0 (State.localWrite s a data same) := by
  unfold State.localWrite
  repeat' first | with_reducible assumption | intro _ | with_reducible apply State.wbs_keeps | with_reducible apply State.bump_keeps | with_reducible apply State.ok_keeps | with_reducible apply Keeps.ite

theorem State.localRead_keeps {k0 : Bool} {b0 : State} {s : State} (a n : Nat) (same : Bool) (hk : Keeps k0 b0 s) : Keeps k0 b0 (State.localRead s a n same).2 := by
  unfold State.localRead
  repeat' first | with_reducible assumption | intro _ | with_reducible apply State.ok_keeps | with_reducible apply Keeps.ite | with_reducible apply Keeps.ite2

theorem State.sameCycle_keeps {k0 : Bool} {b0 : State} {s : State} (a n : Nat) (hk : Keeps k0 b0 s) : Keeps k0 b0 (State.sameCycle s a n).2 := by
  unfold State.sameCycle
  repeat' first | with_reducible assumption | intro _ | with_reducible apply State.draw_keeps | with_reducible apply Keeps.ite | with_reducible apply Keeps.ite2 | split

theorem State.memRead_keeps {k0 : Bool} {b0 : State} {s : State} (m : Master) (a n ecc : Nat) (old : Bool) (hk : Keeps k0 b0 s) : Keeps k0 b0 (State.memRead s m a n ecc old).2 := by
  unfold State.memRead
  repeat' first | with_reducible assumption | intro _ | with_reducible apply State.fail_keeps | with_reducible apply State.sharedRead_keeps | with_reducible apply State.ok_keeps | with_reducible apply State.vermRefuse_keeps | with_reducible apply State.sameCycle_keeps | with_reducible apply State.localRead_keeps | with_reducible apply State.eccRead_keeps | with_reducible apply Keeps.ite | with_reducible apply Keeps.ite2 | with_reducible rfl | with_reducible apply Keeps.mk1

theorem State.memWrite_keeps {k0 : Bool} {b0 : State} {s : State} (m : Master) (a : Nat) (data : List Byte) (old : Bool) (hk : Keeps k0 b0 s) : Keeps k0 b0 (State.memWrite s m a data old) := by
  unfold State.memWrite
  repeat' first | with_reducible assumption | intro _ | with_reducible apply State.fail_keeps | with_reducible apply State.sharedWrite_keeps | with_reducible apply State.vermWrite_keeps | with_reducible apply State.sameCycle_keeps | with_reducible apply State.localWrite_keeps | with_reducible apply State.mramPut_keeps | with_reducible apply State.byWords_keeps | with_reducible apply State.teMemWrite_keeps | with_reducible apply Keeps.ite | with_reducible apply Keeps.ite2 | with_reducible rfl | with_reducible apply Keeps.mk1

theorem State.answer_keeps {k0 : Bool} {b0 : State} {r : List Byte × State} (hk : Keeps k0 b0 r.2) : Keeps k0 b0 (State.answer r) :=
  Keeps.mk1 hk rfl rfl

theorem State.memAccess_keeps {k0 : Bool} {b0 : State} {s : State} (m : Master) (a : Nat) (wr : Bool) (n : Nat) (data : List Byte)
    (ecc : Nat) (old : Bool) (hk : Keeps k0 b0 s) : Keeps k0 b0 (s.memAccess m a wr n data ecc old) := by
  unfold State.memAccess
  exact Keeps.ite (State.memWrite_keeps _ _ _ _ hk) (State.answer_keeps (State.memRead_keeps _ _ _ _ _ hk))

theorem State.waited_keeps {k0 : Bool} {b0 : State} {s : State} (k : Option Nat) (a n : Nat) (hk : Keeps k0 b0 s) : Keeps k0 b0 (State.waited s k a n) := by
  unfold State.waited
  repeat' first | with_reducible assumption | intro _ | with_reducible apply State.conflict_keeps | with_reducible apply Keeps.ite | with_reducible rfl | split | with_reducible apply Keeps.mk1

theorem State.waitedFree_keeps {k0 : Bool} {b0 : State} {s : State} (k : Option Nat) (a : Nat) (hk : Keeps k0 b0 s) : Keeps k0 b0 (State.waitedFree s k a) := by
  unfold State.waitedFree
  repeat' first | with_reducible assumption | intro _ | with_reducible apply State.draw_keeps | with_reducible apply State.waited_keeps | with_reducible apply Keeps.ite | with_reducible apply Keeps.ite2

theorem State.fabRead_keeps {k0 : Bool} {b0 : State} {s : State} (m : Master) (a n : Nat) (old : Bool) (hk : Keeps k0 b0 s) : Keeps k0 b0 (State.fabRead s m a n old).2 := by
  unfold State.fabRead
  repeat' first | with_reducible assumption | intro _ | with_reducible apply State.waitedFree_keeps | with_reducible apply State.memRead_keeps

theorem State.fabWrite_keeps {k0 : Bool} {b0 : State} {s : State} (m : Master) (a : Nat) (data : List Byte) (old : Bool) (hk : Keeps k0 b0 s) : Keeps k0 b0 (State.fabWrite s m a data old) := by
  unfold State.fabWrite
  repeat' first | with_reducible assumption | intro _ | with_reducible apply State.waitedFree_keeps | with_reducible apply State.memWrite_keeps

theorem State.setGrpState_keeps {k0 : Bool} {b0 : State} {s : State} (g v : Nat) (hk : Keeps k0 b0 s) : Keeps k0 b0 (State.setGrpState s g v) := by
  unfold State.setGrpState
  repeat' first | with_reducible assumption | intro _ | with_reducible apply State.put_keeps

theorem State.missesOld_keeps {k0 : Bool} {b0 : State} {s : State} (g : Nat) (hk : Keeps k0 b0 s) : Keeps k0 b0 (State.missesOld s g) := by
  unfold State.missesOld
  repeat' first | with_reducible assumption | intro _ | with_reducible apply State.setCore_keeps | with_reducible apply Keeps.ite | (with_reducible apply Keeps.fold) | with_reducible rfl | split | with_reducible apply Keeps.mk1

theorem State.retBit_keeps {k0 : Bool} {b0 : State} {s : State} (g : Nat) (on : Bool) (hk : Keeps k0 b0 s) : Keeps k0 b0 (State.retBit s g on) := by
  unfold State.retBit
  repeat' first | with_reducible assumption | intro _ | with_reducible apply State.put_keeps | with_reducible apply State.missesOld_keeps | with_reducible apply State.setGrpState_keeps | with_reducible apply Keeps.ite

theorem State.retWrite_keeps {k0 : Bool} {b0 : State} {s : State} (v : Word) (hk : Keeps k0 b0 s) : Keeps k0 b0 (State.retWrite s v) := by
  unfold State.retWrite
  repeat' first | with_reducible assumption | intro _ | with_reducible apply State.retBit_keeps | with_reducible apply Keeps.ite | (with_reducible apply Keeps.fold)

theorem State.retEntered_keeps {k0 : Bool} {b0 : State} {s : State} (g : Nat) (hk : Keeps k0 b0 s) : Keeps k0 b0 (State.retEntered s g) := by
  unfold State.retEntered
  repeat' first | with_reducible assumption | intro _ | with_reducible apply State.setGrpState_keeps | with_reducible apply Keeps.ite

theorem State.runWait_keeps {k0 : Bool} {b0 : State} {s : State} (x : MemWait) (hk : Keeps k0 b0 s) : Keeps k0 b0 (State.runWait s x) := by
  unfold State.runWait
  repeat' first | with_reducible assumption | intro _ | with_reducible apply State.memAccess_keeps | with_reducible apply State.sharedLand_keeps | with_reducible rfl | split | with_reducible apply Keeps.mk1

theorem State.wakeDone_keeps {k0 : Bool} {b0 : State} {s : State} (g : Nat) (hk : Keeps k0 b0 s) : Keeps k0 b0 (State.wakeDone s g) := by
  unfold State.wakeDone
  repeat' first | with_reducible assumption | intro _ | with_reducible apply State.setGrpState_keeps | with_reducible apply State.runWait_keeps | with_reducible apply State.missesOld_keeps | with_reducible apply Keeps.ite | (with_reducible apply Keeps.fold) | with_reducible rfl | with_reducible apply Keeps.mk1

theorem wordRead_keeps {k0 : Bool} {b0 : State} {r : List Byte × State} (h : Keeps k0 b0 r.2) : Keeps k0 b0 (wordRead r).2 := h

theorem State.fbLocal_keeps {k0 : Bool} {b0 : State} {s : State} (a : Nat) (hk : Keeps k0 b0 s) : Keeps k0 b0 (s.fbLocal a).2 :=
  wordRead_keeps (State.localRead_keeps _ _ _ (State.sameCycle_keeps _ _ hk))

theorem State.fbRead_keeps {k0 : Bool} {b0 : State} {s : State} (a : Nat) (hk : Keeps k0 b0 s) : Keeps k0 b0 (s.fbRead a).2 := by
  have h1 := State.waitedFree_keeps (some 5) a hk
  have hf : ∀ t : State, Keeps k0 b0 t → ∀ e, Keeps k0 b0 ((t.fail e).put F.smemErrBuf 1) :=
    fun t h e => State.put_keeps _ _ (State.fail_keeps _ h)
  have hu : ∀ t : State, Keeps k0 b0 t → ∀ w, Keeps k0 b0 ((t.ueSeen w).put F.smemErrBuf 1) :=
    fun t h w => State.put_keeps _ _ (State.ueSeen_keeps _ h)
  unfold State.fbRead
  split
  · split
    · refine hf _ ?_ _
      exact h1
    · split <;> dsimp only
      · split
        · refine hu _ ?_ _
          exact h1
        · exact h1
      · split
        · refine hu _ ?_ _
          exact h1
        · exact h1
  · split
    · refine State.fbLocal_keeps a ?_
      exact h1
    · refine hf _ ?_ _
      exact h1

theorem State.fbWrite_keeps {k0 : Bool} {b0 : State} {s : State} (a : Nat) (v : Word) (hk : Keeps k0 b0 s) : Keeps k0 b0 (State.fbWrite s a v) := by
  unfold State.fbWrite
  repeat' first | with_reducible assumption | intro _ | with_reducible apply State.waitedFree_keeps | with_reducible apply State.fail_keeps | with_reducible apply State.put_keeps | with_reducible apply State.sharedLand_keeps | with_reducible apply State.sameCycle_keeps | with_reducible apply State.localWrite_keeps | with_reducible apply Keeps.ite | with_reducible apply Keeps.ite2 | with_reducible rfl | with_reducible apply Keeps.mk1

theorem execSharedMemoryAccess_keeps (m : Master) (a : Word) (wr : Bool) (data : List Byte) (ecc lost : Nat) (s : State) {r0 : State} (hr : execSharedMemoryAccess m a wr data ecc lost s = .next r0) : Keeps true s r0 := by
  cases hr
  have hk := Keeps.rfl true s
  repeat' first | with_reducible assumption | intro _ | with_reducible apply State.waited_keeps | with_reducible apply State.memAccess_keeps | with_reducible apply State.wr_keeps | with_reducible apply Keeps.ite | with_reducible apply Keeps.ite2

theorem execDelayStoreFabricAccess_keeps (m : Master) (e : Fin 8) (off : Nat) (wr : Bool) (x : Payload) (s : State) {r0 : State} (hr : execDelayStoreFabricAccess m e off wr x s = .next r0) : Keeps true s r0 := by
  cases hr
  have hk := Keeps.rfl true s
  repeat' first | with_reducible assumption | intro _ | with_reducible apply State.waited_keeps | with_reducible apply State.memAccess_keeps | with_reducible apply State.wr_keeps

theorem execBitSetWrite_keeps (m : Master) (a : Word) (data : List Byte) (lost : Nat) (s : State) {r0 : State} (hr : execBitSetWrite m a data lost s = .next r0) : Keeps true s r0 := by
  cases hr
  have hk := Keeps.rfl true s
  repeat' first | with_reducible assumption | intro _ | with_reducible apply State.waited_keeps | with_reducible apply State.memWrite_keeps | with_reducible apply Keeps.ite | with_reducible apply Keeps.ite2

theorem execBitClearWrite_keeps (m : Master) (a : Word) (data : List Byte) (lost : Nat) (s : State) {r0 : State} (hr : execBitClearWrite m a data lost s = .next r0) : Keeps true s r0 := by
  cases hr
  have hk := Keeps.rfl true s
  repeat' first | with_reducible assumption | intro _ | with_reducible apply State.waited_keeps | with_reducible apply State.memWrite_keeps | with_reducible apply Keeps.ite | with_reducible apply Keeps.ite2

theorem execRetentionRequest_keeps (m : Master) (g : Fin 12) (s : State) {r0 : State} (hr : execRetentionRequest m g s = .next r0) : Keeps true s r0 := by
  cases hr
  have hk := Keeps.rfl true s
  repeat' first | with_reducible assumption | intro _ | with_reducible apply State.guard_keeps | with_reducible apply State.retBit_keeps | with_reducible apply Keeps.ite | with_reducible apply Keeps.ite2

theorem execRetentionEntered_keeps (g : Fin 12) (s : State) {r0 : State} (hr : execRetentionEntered g s = .next r0) : Keeps true s r0 := by
  cases hr
  have hk := Keeps.rfl true s
  repeat' first | with_reducible assumption | intro _ | with_reducible apply State.retEntered_keeps

theorem execWakeRequest_keeps (m : Master) (g : Fin 12) (s : State) {r0 : State} (hr : execWakeRequest m g s = .next r0) : Keeps true s r0 := by
  cases hr
  have hk := Keeps.rfl true s
  repeat' first | with_reducible assumption | intro _ | with_reducible apply State.guard_keeps | with_reducible apply State.retBit_keeps | with_reducible apply Keeps.ite | with_reducible apply Keeps.ite2

theorem execGroupWakeDone_keeps (g : Fin 12) (s : State) {r0 : State} (hr : execGroupWakeDone g s = .next r0) : Keeps true s r0 := by
  cases hr
  have hk := Keeps.rfl true s
  repeat' first | with_reducible assumption | intro _ | with_reducible apply State.wakeDone_keeps

theorem execUnlock_keeps (m : Master) (s : State) {r0 : State} (hr : execUnlock m s = .next r0) : Keeps true s r0 := by
  cases hr
  have hk := Keeps.rfl true s
  repeat' first | with_reducible assumption | intro _ | with_reducible apply State.guard_keeps | with_reducible apply State.unlockTry_keeps

theorem execLock_keeps (m : Master) (s : State) {r0 : State} (hr : execLock m s = .next r0) : Keeps true s r0 := by
  cases hr
  have hk := Keeps.rfl true s
  repeat' first | with_reducible assumption | intro _ | with_reducible apply State.guard_keeps | with_reducible apply State.lockReq_keeps

theorem execVermSeal_keeps (m : Master) (s : State) {r0 : State} (hr : execVermSeal m s = .next r0) : Keeps true s r0 := by
  cases hr
  have hk := Keeps.rfl true s
  repeat' first | with_reducible assumption | intro _ | with_reducible apply State.guard_keeps | with_reducible apply State.sealReq_keeps

theorem execSealDone_keeps (s : State) {r0 : State} (hr : execSealDone s = .next r0) : Keeps true s r0 := by
  cases hr
  have hk := Keeps.rfl true s
  repeat' first | with_reducible assumption | intro _ | with_reducible apply State.sealEnd_keeps

theorem execWipe_keeps (m : Master) (s : State) {r0 : State} (hr : execWipe m s = .next r0) : Keeps true s r0 := by
  cases hr
  have hk := Keeps.rfl true s
  repeat' first | with_reducible assumption | intro _ | with_reducible apply State.guard_keeps | with_reducible apply State.wipeStart_keeps

theorem execWipeDone_keeps (ok : Bool) (s : State) {r0 : State} (hr : execWipeDone ok s = .next r0) : Keeps true s r0 := by
  cases hr
  have hk := Keeps.rfl true s
  repeat' first | with_reducible assumption | intro _ | with_reducible apply State.wipeEnd_keeps | with_reducible apply State.ok_keeps

theorem execTamper_keeps (s : State) {r0 : State} (hr : execTamper s = .next r0) : Keeps true s r0 := by
  cases hr
  have hk := Keeps.rfl true s
  repeat' first | with_reducible assumption | intro _ | with_reducible apply State.wipeStart_keeps

theorem execVoltageGlitch_keeps (s : State) {r0 : State} (hr : execVoltageGlitch s = .next r0) : Keeps true s r0 := by
  cases hr
  have hk := Keeps.rfl true s
  repeat' first | with_reducible assumption | intro _ | with_reducible apply State.wipeStart_keeps

theorem execClockGlitch_keeps (s : State) {r0 : State} (hr : execClockGlitch s = .next r0) : Keeps true s r0 := by
  cases hr
  have hk := Keeps.rfl true s
  repeat' first | with_reducible assumption | intro _ | with_reducible apply State.wipeStart_keeps

theorem execMramWrite_keeps (m : Master) (a : Word) (size : Nat) (data : List Byte) (s : State) {r0 : State} (hr : execMramWrite m a size data s = .next r0) : Keeps true s r0 := by
  cases hr
  have hk := Keeps.rfl true s
  repeat' first | with_reducible assumption | intro _ | with_reducible apply State.memWrite_keeps | with_reducible apply Keeps.ite | with_reducible apply Keeps.ite2

theorem execMramWordWriteDone_keeps (s : State) {r0 : State} (hr : execMramWordWriteDone s = .next r0) : Keeps true s r0 := by
  cases hr
  have hk := Keeps.rfl true s
  repeat' first | with_reducible assumption | intro _ | with_reducible apply State.mramDone_keeps

theorem execCounterIncrement_keeps (m : Master) (v : Word) (s : State) {r0 : State} (hr : execCounterIncrement m v s = .next r0) : Keeps true s r0 := by
  cases hr
  have hk := Keeps.rfl true s
  repeat' first | with_reducible assumption | intro _ | with_reducible apply State.guard_keeps | with_reducible apply State.cntIncWrite_keeps

theorem execLocalMemoryFabricAccess_keeps (m : Master) (c : Fin 16) (off : Nat) (wr : Bool) (x : Payload) (same : Bool) (s : State)
    {r0 : State} (hr : execLocalMemoryFabricAccess m c off wr x same s = .next r0) : Keeps true s r0 := by
  cases hr
  have h1 := State.waited_keeps (masterNo m) (lmBase c + off % 0x40000) x.lost (Keeps.rfl true s)
  exact Keeps.ite (State.fail_keeps _ h1) (Keeps.ite (State.localWrite_keeps _ _ _ h1)
    (State.answer_keeps (State.localRead_keeps _ _ _ h1)))

end Sys2Proof.Machine
end

