-- ==== Sys2Proof/Laws/Keep/Vat.lean ====
section
/-! SUPPORT. What the helpers and meanings of Machine/Vat.lean keep. -/

namespace Sys2Proof.Machine

theorem State.setVat_keeps {k0 : Bool} {b0 : State} {s : State} (g : VatS → VatS) (hk : Keeps k0 b0 s) : Keeps k0 b0 (State.setVat s g) := by
  unfold State.setVat
  repeat' first | with_reducible assumption | intro _ | with_reducible rfl | with_reducible apply Keeps.mk1

theorem State.setFclk_keeps {k0 : Bool} {b0 : State} {s : State} (c : Nat) (g : FClk → FClk) (hk : Keeps k0 b0 s) : Keeps k0 b0 (State.setFclk s c g) := by
  unfold State.setFclk
  repeat' first | with_reducible assumption | intro _ | with_reducible apply State.setVat_keeps | with_reducible rfl | with_reducible apply Keeps.mk1

theorem State.setPbuf_keeps {k0 : Bool} {b0 : State} {s : State} (b : Nat) (x : PBuf) (hk : Keeps k0 b0 s) : Keeps k0 b0 (State.setPbuf s b x) := by
  unfold State.setPbuf
  repeat' first | with_reducible assumption | intro _ | with_reducible apply State.setVat_keeps | with_reducible rfl | with_reducible apply Keeps.mk1

theorem State.refused_keeps {k0 : Bool} {b0 : State} {s : State} (p : VatPath) (hk : Keeps k0 b0 s) : Keeps k0 b0 (State.refused s p) := by
  unfold State.refused
  repeat' first | with_reducible assumption | intro _ | with_reducible apply State.bump_keeps | with_reducible rfl | split | with_reducible apply Keeps.mk1

theorem State.vatOffer_keeps {k0 : Bool} {b0 : State} {s : State} (d : List Word) (p : VatPath) (host : Option Nat) (hk : Keeps k0 b0 s) : Keeps k0 b0 (State.vatOffer s d p host).2 := by
  unfold State.vatOffer
  repeat' first | with_reducible assumption | intro _ | with_reducible apply State.setVat_keeps | with_reducible apply State.refused_keeps | with_reducible apply Keeps.ite | with_reducible apply Keeps.ite2 | with_reducible rfl | with_reducible apply Keeps.mk1

theorem State.vatStage_keeps {k0 : Bool} {b0 : State} {s : State} (m : Master) (w : Nat) (v : Word) (hk : Keeps k0 b0 s) : Keeps k0 b0 (State.vatStage s m w v) := by
  unfold State.vatStage
  repeat' first | with_reducible assumption | intro _ | with_reducible apply State.setVat_keeps | with_reducible apply State.vatOffer_keeps | with_reducible apply Keeps.ite | with_reducible apply Keeps.ite2 | with_reducible rfl | with_reducible apply Keeps.mk1

theorem State.partWrite_keeps {k0 : Bool} {b0 : State} {s : State} (p : Nat) (v : Word) (hk : Keeps k0 b0 s) : Keeps k0 b0 (State.partWrite s p v) := by
  unfold State.partWrite
  repeat' first | with_reducible assumption | intro _ | with_reducible apply State.put_keeps | with_reducible apply State.wr_keeps | with_reducible apply Keeps.ite

theorem State.fclkWrite_keeps {k0 : Bool} {b0 : State} {s : State} (c : Nat) (v : Word) (hk : Keeps k0 b0 s) : Keeps k0 b0 (State.fclkWrite s c v) := by
  unfold State.fclkWrite
  repeat' first | with_reducible assumption | intro _ | with_reducible apply State.put_keeps | with_reducible apply State.setIf_keeps | with_reducible apply State.setFclk_keeps | with_reducible apply Keeps.ite | with_reducible rfl | split | with_reducible apply Keeps.mk1

theorem State.bufAddrWrite_keeps {k0 : Bool} {b0 : State} {s : State} (b : Nat) (v : Word) (hk : Keeps k0 b0 s) : Keeps k0 b0 (State.bufAddrWrite s b v) := by
  unfold State.bufAddrWrite
  repeat' first | with_reducible assumption | intro _ | with_reducible apply State.put_keeps | with_reducible apply State.wr_keeps | with_reducible apply Keeps.ite | split

theorem State.bufCfgWrite_keeps {k0 : Bool} {b0 : State} {s : State} (b : Nat) (v : Word) (hk : Keeps k0 b0 s) : Keeps k0 b0 (State.bufCfgWrite s b v) := by
  unfold State.bufCfgWrite
  repeat' first | with_reducible assumption | intro _ | with_reducible apply State.put_keeps | with_reducible apply State.wr_keeps | with_reducible apply State.setPbuf_keeps | with_reducible apply Keeps.ite | split

theorem State.affNote_keeps {k0 : Bool} {b0 : State} {s : State} (c : Nat) (it : Item) (hk : Keeps k0 b0 s) : Keeps k0 b0 (State.affNote s c it) := by
  unfold State.affNote
  repeat' first | with_reducible assumption | intro _ | with_reducible apply State.setVat_keeps | with_reducible apply Keeps.ite | with_reducible rfl | with_reducible apply Keeps.mk1

theorem State.itemStart_keeps {k0 : Bool} {b0 : State} {s : State} (c : Nat) (it : Item) (hk : Keeps k0 b0 s) : Keeps k0 b0 (State.itemStart s c it) := by
  unfold State.itemStart
  repeat' first | with_reducible assumption | intro _ | with_reducible apply State.put_keeps | with_reducible apply State.setCore_keeps | with_reducible apply Keeps.ite | with_reducible rfl | with_reducible apply Keeps.mk1

theorem State.dispatch_keeps {k0 : Bool} {b0 : State} {s : State} (c : Nat) (hk : Keeps k0 b0 s) : Keeps k0 b0 (State.dispatch s c) := by
  unfold State.dispatch
  repeat' first | with_reducible assumption | intro _ | with_reducible apply State.setVat_keeps | with_reducible apply State.affNote_keeps | with_reducible apply State.itemStart_keeps | with_reducible apply Keeps.ite | with_reducible rfl | split | with_reducible apply Keeps.mk1

theorem State.affExpire_keeps {k0 : Bool} {b0 : State} {s : State} (id : Nat) (hk : Keeps k0 b0 s) : Keeps k0 b0 (State.affExpire s id) := by
  unfold State.affExpire
  repeat' first | with_reducible assumption | intro _ | with_reducible apply State.setVat_keeps | with_reducible apply Keeps.ite | with_reducible rfl | with_reducible apply Keeps.mk1

theorem State.cplShow_keeps {k0 : Bool} {b0 : State} {s : State} (h : Nat) (hk : Keeps k0 b0 s) : Keeps k0 b0 (State.cplShow s h) := by
  unfold State.cplShow
  repeat' first | with_reducible assumption | intro _ | with_reducible apply State.put_keeps | with_reducible rfl | split | with_reducible apply Keeps.mk1

theorem State.cplPush_keeps {k0 : Bool} {b0 : State} {s : State} (h : Nat) (tag : Word) (status : Nat) (hk : Keeps k0 b0 s) : Keeps k0 b0 (State.cplPush s h tag status) := by
  unfold State.cplPush
  repeat' first | with_reducible assumption | intro _ | with_reducible apply State.put_keeps | with_reducible apply State.setVat_keeps | with_reducible apply State.cplShow_keeps | with_reducible apply Keeps.ite | with_reducible rfl | with_reducible apply Keeps.mk1

theorem State.cplPop_keeps {k0 : Bool} {b0 : State} {s : State} (m : Master) (h : Nat) (hk : Keeps k0 b0 s) : Keeps k0 b0 (State.cplPop s m h) := by
  unfold State.cplPop
  repeat' first | with_reducible assumption | intro _ | with_reducible apply State.ok_keeps | with_reducible apply State.setVat_keeps | with_reducible apply State.cplShow_keeps | with_reducible apply Keeps.ite | with_reducible rfl | split | with_reducible apply Keeps.mk1

theorem State.playRelease_keeps {k0 : Bool} {b0 : State} {s : State} (it : Item) (hk : Keeps k0 b0 s) : Keeps k0 b0 (State.playRelease s it) := by
  unfold State.playRelease
  repeat' first | with_reducible assumption | intro _ | with_reducible apply State.put_keeps | with_reducible apply State.setPbuf_keeps | with_reducible apply Keeps.ite | with_reducible rfl | with_reducible apply Keeps.mk1

theorem State.mapBufs_keeps {k0 : Bool} {b0 : State} {s : State} (c : Nat) (g : PBuf → PBuf) (hk : Keeps k0 b0 s) : Keeps k0 b0 (State.mapBufs s c g) := by
  unfold State.mapBufs
  repeat' first | with_reducible assumption | intro _ | with_reducible apply State.setPbuf_keeps | (with_reducible apply Keeps.fold)

theorem State.firstFrame_keeps {k0 : Bool} {b0 : State} {s : State} (c : Nat) (hk : Keeps k0 b0 s) : Keeps k0 b0 (State.firstFrame s c) := by
  unfold State.firstFrame
  repeat' first | with_reducible assumption | intro _ | with_reducible apply State.put_keeps | with_reducible apply State.setFclk_keeps | with_reducible apply State.mapBufs_keeps | with_reducible rfl | with_reducible apply Keeps.mk1

theorem State.fclkStart_keeps {k0 : Bool} {b0 : State} {s : State} (c : Nat) (hk : Keeps k0 b0 s) : Keeps k0 b0 (State.fclkStart s c) := by
  unfold State.fclkStart
  repeat' first | with_reducible assumption | intro _ | with_reducible apply State.firstFrame_keeps | with_reducible apply Keeps.ite | with_reducible rfl | split | with_reducible apply Keeps.mk1

theorem State.frameFence_keeps {k0 : Bool} {b0 : State} {s : State} (c : Nat) (hk : Keeps k0 b0 s) : Keeps k0 b0 (State.frameFence s c) := by
  unfold State.frameFence
  repeat' first | with_reducible assumption | intro _ | with_reducible apply State.mapBufs_keeps | with_reducible apply State.put_keeps | with_reducible apply State.useSync_keeps | with_reducible apply State.setFclk_keeps | with_reducible apply Keeps.ite | with_reducible rfl | with_reducible apply Keeps.mk1

theorem State.windowOpens_keeps {k0 : Bool} {b0 : State} {s : State} (c : Nat) (hk : Keeps k0 b0 s) : Keeps k0 b0 (State.windowOpens s c) := by
  unfold State.windowOpens
  repeat' first | with_reducible assumption | intro _ | with_reducible apply State.setFclk_keeps | with_reducible apply Keeps.ite | with_reducible rfl | with_reducible apply Keeps.mk1

theorem State.fenceCutoff_keeps {k0 : Bool} {b0 : State} {s : State} (c : Nat) (hk : Keeps k0 b0 s) : Keeps k0 b0 (State.fenceCutoff s c) := by
  unfold State.fenceCutoff
  repeat' first | with_reducible assumption | intro _ | with_reducible apply State.setFclk_keeps | with_reducible apply State.wr_keeps | with_reducible apply State.bump_keeps | with_reducible apply State.fire_keeps | with_reducible apply Keeps.ite | (with_reducible apply Keeps.fold) | with_reducible rfl | split | with_reducible apply Keeps.mk1

theorem State.bufsQuiet_keeps {k0 : Bool} {b0 : State} {s : State} (hk : Keeps k0 b0 s) : Keeps k0 b0 (State.bufsQuiet s) := by
  unfold State.bufsQuiet
  repeat' first | with_reducible assumption | intro _ | with_reducible rfl | split | with_reducible apply Keeps.mk1

theorem State.playTick_keeps {k0 : Bool} {b0 : State} {s : State} (d : RDom) (hk : Keeps k0 b0 s) : Keeps k0 b0 (State.playTick s d) := by
  unfold State.playTick
  repeat' first | with_reducible assumption | intro _ | with_reducible apply State.fbRead_keeps | with_reducible apply State.setPbuf_keeps | with_reducible apply State.inject_keeps | with_reducible apply State.bufsQuiet_keeps | with_reducible apply Keeps.ite | with_reducible apply Keeps.ite2 | (with_reducible apply Keeps.fold) | with_reducible rfl | split | with_reducible apply Keeps.mk1

theorem State.captureTick_keeps {k0 : Bool} {b0 : State} {s : State} (d : RDom) (hk : Keeps k0 b0 s) : Keeps k0 b0 (State.captureTick s d) := by
  unfold State.captureTick
  repeat' first | with_reducible assumption | intro _ | with_reducible apply State.fbWrite_keeps | with_reducible apply Keeps.ite | (with_reducible apply Keeps.fold)

theorem State.vatDrain_keeps {k0 : Bool} {b0 : State} {s : State} (hk : Keeps k0 b0 s) : Keeps k0 b0 (State.vatDrain s) := by
  unfold State.vatDrain
  repeat' first | with_reducible assumption | intro _ | with_reducible apply State.setFclk_keeps | with_reducible apply State.setVat_keeps | (with_reducible apply Keeps.fold) | with_reducible rfl | with_reducible apply Keeps.mk1

theorem State.vatEpoch_keeps {k0 : Bool} {b0 : State} {s : State} (hk : Keeps k0 b0 s) : Keeps k0 b0 (State.vatEpoch s) := by
  unfold State.vatEpoch
  repeat' first | with_reducible assumption | intro _ | with_reducible apply State.firstFrame_keeps | with_reducible apply State.put_keeps | with_reducible apply Keeps.ite | (with_reducible apply Keeps.fold)

theorem execVatDispatch_keeps (c : Fin 16) (s : State) {r0 : State} (hr : execVatDispatch c s = .next r0) : Keeps true s r0 := by
  cases hr
  have hk := Keeps.rfl true s
  repeat' first | with_reducible assumption | intro _ | with_reducible apply State.dispatch_keeps

theorem execAffinityWaitExpiry_keeps (id : Nat) (s : State) {r0 : State} (hr : execAffinityWaitExpiry id s = .next r0) : Keeps true s r0 := by
  cases hr
  have hk := Keeps.rfl true s
  repeat' first | with_reducible assumption | intro _ | with_reducible apply State.affExpire_keeps

theorem execVatSubmit_keeps (m : Master) (w7 : Word) (s : State) {r0 : State} (hr : execVatSubmit m w7 s = .next r0) : Keeps true s r0 := by
  cases hr
  have hk := Keeps.rfl true s
  repeat' first | with_reducible assumption | intro _ | with_reducible apply State.ok_keeps | with_reducible apply State.vatStage_keeps

theorem execCompletionRecordRead_keeps (m : Master) (h : Fin 4) (s : State) {r0 : State} (hr : execCompletionRecordRead m h s = .next r0) : Keeps true s r0 := by
  cases hr
  have hk := Keeps.rfl true s
  repeat' first | with_reducible assumption | intro _ | with_reducible apply State.cplPop_keeps

theorem execPartitionConfig_keeps (m : Master) (p : Fin 4) (v : Word) (s : State) {r0 : State} (hr : execPartitionConfig m p v s = .next r0) : Keeps true s r0 := by
  cases hr
  have hk := Keeps.rfl true s
  repeat' first | with_reducible assumption | intro _ | with_reducible apply State.guard_keeps | with_reducible apply State.partWrite_keeps

theorem execFrameClockEnable_keeps (m : Master) (c : Fin 8) (v : Word) (s : State) {r0 : State} (hr : execFrameClockEnable m c v s = .next r0) : Keeps true s r0 := by
  cases hr
  have hk := Keeps.rfl true s
  repeat' first | with_reducible assumption | intro _ | with_reducible apply State.guard_keeps | with_reducible apply State.fclkWrite_keeps

theorem execFrameClockStart_keeps (c : Fin 8) (s : State) {r0 : State} (hr : execFrameClockStart c s = .next r0) : Keeps true s r0 := by
  cases hr
  have hk := Keeps.rfl true s
  repeat' first | with_reducible assumption | intro _ | with_reducible apply State.fclkStart_keeps

theorem execFrameFence_keeps (c : Fin 8) (s : State) {r0 : State} (hr : execFrameFence c s = .next r0) : Keeps true s r0 := by
  cases hr
  have hk := Keeps.rfl true s
  repeat' first | with_reducible assumption | intro _ | with_reducible apply State.frameFence_keeps

theorem execCaptureWindowOpen_keeps (c : Fin 8) (s : State) {r0 : State} (hr : execCaptureWindowOpen c s = .next r0) : Keeps true s r0 := by
  cases hr
  have hk := Keeps.rfl true s
  repeat' first | with_reducible assumption | intro _ | with_reducible apply State.windowOpens_keeps

theorem execFenceCutoff_keeps (c : Fin 8) (s : State) {r0 : State} (hr : execFenceCutoff c s = .next r0) : Keeps true s r0 := by
  cases hr
  have hk := Keeps.rfl true s
  repeat' first | with_reducible assumption | intro _ | with_reducible apply State.fenceCutoff_keeps | with_reducible apply State.settle_keeps

end Sys2Proof.Machine
end

