-- ==== Sys2Proof/Laws/Keep/IgIsa.lean ====
section
/-! SUPPORT. What the helpers and meanings of Machine/IgIsa.lean keep. -/

namespace Sys2Proof.Machine

theorem State.igPut_keeps {k0 : Bool} {b0 : State} {s : State} (c o : Nat) (v : Word) (hk : Keeps k0 b0 s) : Keeps k0 b0 (State.igPut s c o v) := by
  unfold State.igPut
  repeat' first | with_reducible assumption | intro _ | with_reducible apply State.ww_keeps | with_reducible apply State.setCore_keeps | with_reducible rfl | with_reducible apply Keeps.mk1

theorem State.igStores_keeps {k0 : Bool} {b0 : State} {s : State} (c : Nat) (a : MemAct) (hk : Keeps k0 b0 s) : Keeps k0 b0 (State.igStores s c a) := by
  unfold State.igStores
  repeat' first | with_reducible assumption | intro _ | with_reducible apply State.igPut_keeps | with_reducible apply Keeps.ite | with_reducible apply Keeps.ite2 | (with_reducible apply Keeps.fold) | split

end Sys2Proof.Machine
end

