-- ==== Sys2Proof/Laws/Keep/Indigo.lean ====
section
/-! SUPPORT. What the helpers and meanings of Machine/Indigo.lean keep. -/

namespace Sys2Proof.Machine

theorem State.lineFetch_keeps {k0 : Bool} {b0 : State} {s : State} (c line : Nat) (lock old : Bool) (hk : Keeps k0 b0 s) : Keeps k0 b0 (State.lineFetch s c line lock old) := by
  unfold State.lineFetch
  repeat' first | with_reducible assumption | intro _ | with_reducible apply State.waitedFree_keeps | with_reducible apply State.setCore_keeps | with_reducible apply State.sharedRead_keeps | with_reducible apply Keeps.ite | with_reducible apply Keeps.ite2

theorem State.igAbort_keeps {k0 : Bool} {b0 : State} {s : State} (c : Nat) (hk : Keeps k0 b0 s) : Keeps k0 b0 (State.igAbort s c) := by
  unfold State.igAbort
  repeat' first | with_reducible assumption | intro _ | with_reducible apply State.setCore_keeps | with_reducible rfl | with_reducible apply Keeps.mk1

theorem State.igRte_keeps {k0 : Bool} {b0 : State} {s : State} (c : Nat) (hk : Keeps k0 b0 s) : Keeps k0 b0 (State.igRte s c) := by
  unfold State.igRte
  repeat' first | with_reducible assumption | intro _ | with_reducible apply State.igAbort_keeps | with_reducible apply State.put_keeps | with_reducible apply State.setCore_keeps | with_reducible apply Keeps.ite | with_reducible rfl | with_reducible apply Keeps.mk1

theorem State.igStep_keeps {k0 : Bool} {b0 : State} {s : State} (c : Nat) (hk : Keeps k0 b0 s) : Keeps k0 b0 (State.igStep s c) := by
  unfold State.igStep
  repeat' first | with_reducible assumption | intro _ | with_reducible apply State.setCore_keeps | with_reducible apply State.igRte_keeps | with_reducible apply Keeps.ite | with_reducible rfl | split | with_reducible apply Keeps.mk1

theorem State.igCycles_keeps {k0 : Bool} {b0 : State} {s : State} (c n : Nat) (hk : Keeps k0 b0 s) : Keeps k0 b0 (State.igCycles s c n) := by
  unfold State.igCycles
  repeat' first | with_reducible assumption | intro _ | with_reducible apply State.setCore_keeps | with_reducible rfl | with_reducible apply Keeps.mk1

theorem State.igRep_keeps {k0 : Bool} {b0 : State} {s : State} (c : Nat) (x : DWord) (n : Nat) (hk : Keeps k0 b0 s) : Keeps k0 b0 (State.igRep s c x n) := by
  unfold State.igRep
  repeat' first | with_reducible assumption | intro _ | with_reducible apply State.igCycles_keeps | with_reducible apply State.setCore_keeps | with_reducible apply Keeps.ite | with_reducible rfl | with_reducible apply Keeps.mk1

theorem State.igEnd_keeps {k0 : Bool} {b0 : State} {s : State} (c : Nat) (k : Core) (x : DWord) (w ld : List (Nat × Word)) (hk : Keeps k0 b0 s) : Keeps k0 b0 (State.igEnd s c k x w ld) := by
  unfold State.igEnd
  repeat' first | with_reducible assumption | intro _ | with_reducible apply State.setCore_keeps | with_reducible apply State.igRep_keeps | with_reducible apply State.igStep_keeps | with_reducible apply Keeps.ite | with_reducible rfl | with_reducible apply Keeps.mk1

theorem State.igReport_keeps {k0 : Bool} {b0 : State} {s : State} (c : Nat) (ovf : Bool) (clips : Nat) (forced stall : Bool) (hk : Keeps k0 b0 s) : Keeps k0 b0 (State.igReport s c ovf clips forced stall) := by
  unfold State.igReport
  repeat' first | with_reducible assumption | intro _ | with_reducible apply State.setIf_keeps | with_reducible apply State.setCore_keeps | with_reducible apply State.bump_keeps | with_reducible apply State.igCycles_keeps | with_reducible apply Keeps.ite | with_reducible rfl | split | with_reducible apply Keeps.mk1

theorem State.igBundle_keeps {k0 : Bool} {b0 : State} {s : State} (c : Nat) (x : DWord) (hk : Keeps k0 b0 s) : Keeps k0 b0 (State.igBundle s c x) := by
  unfold State.igBundle
  repeat' first | with_reducible assumption | intro _ | with_reducible apply State.igStores_keeps | with_reducible apply State.setCore_keeps | with_reducible apply State.igReport_keeps | with_reducible apply State.put_keeps | with_reducible apply State.igEnd_keeps | with_reducible apply Keeps.ite | with_reducible apply Keeps.ite2 | with_reducible rfl | split | with_reducible apply Keeps.mk1

theorem State.igFld_keeps {k0 : Bool} {b0 : State} {s : State} (c : Nat) (x : DWord) (hk : Keeps k0 b0 s) : Keeps k0 b0 (State.igFld s c x) := by
  unfold State.igFld
  repeat' first | with_reducible assumption | intro _ | with_reducible apply State.setCore_keeps | with_reducible rfl | with_reducible apply Keeps.mk1

theorem State.igFst_keeps {k0 : Bool} {b0 : State} {s : State} (c : Nat) (x : DWord) (hk : Keeps k0 b0 s) : Keeps k0 b0 (State.igFst s c x) := by
  unfold State.igFst
  repeat' first | with_reducible assumption | intro _ | with_reducible apply State.setCore_keeps | with_reducible apply State.igEnd_keeps | with_reducible apply Keeps.ite | with_reducible rfl | with_reducible apply Keeps.mk1

theorem State.igFence_keeps {k0 : Bool} {b0 : State} {s : State} (c : Nat) (x : DWord) (hk : Keeps k0 b0 s) : Keeps k0 b0 (State.igFence s c x) := by
  unfold State.igFence
  repeat' first | with_reducible assumption | intro _ | with_reducible apply State.setCore_keeps | with_reducible apply State.igEnd_keeps | with_reducible apply Keeps.ite | with_reducible rfl | with_reducible apply Keeps.mk1

theorem State.igGoOn_keeps {k0 : Bool} {b0 : State} {s : State} (c : Nat) (hk : Keeps k0 b0 s) : Keeps k0 b0 (State.igGoOn s c) := by
  unfold State.igGoOn
  repeat' first | with_reducible assumption | intro _ | with_reducible apply State.igFence_keeps | with_reducible apply State.igFst_keeps | with_reducible apply State.setCore_keeps | with_reducible apply Keeps.ite | with_reducible rfl | split | with_reducible apply Keeps.mk1

theorem State.igSubmit_keeps {k0 : Bool} {b0 : State} {s : State} (c n : Nat) (x : DWord) (hk : Keeps k0 b0 s) : Keeps k0 b0 (State.igSubmit s c n x) := by
  unfold State.igSubmit
  repeat' first | with_reducible assumption | intro _ | with_reducible apply State.vatOffer_keeps | with_reducible apply State.igCycles_keeps | with_reducible apply State.setCore_keeps | with_reducible apply State.igEnd_keeps | with_reducible rfl | with_reducible apply Keeps.mk1

theorem State.igExec_keeps {k0 : Bool} {b0 : State} {s : State} (c n : Nat) (x : DWord) (hk : Keeps k0 b0 s) : Keeps k0 b0 (State.igExec s c n x) := by
  unfold State.igExec
  repeat' first | with_reducible assumption | intro _ | with_reducible apply State.setCore_keeps | with_reducible apply State.igCycles_keeps | with_reducible apply State.igFld_keeps | with_reducible apply State.igFst_keeps | with_reducible apply State.igFence_keeps | with_reducible apply State.igSubmit_keeps | with_reducible apply State.igBundle_keeps | with_reducible apply Keeps.ite | with_reducible rfl | with_reducible apply Keeps.mk1

theorem State.igIssue_keeps {k0 : Bool} {b0 : State} {s : State} (c n : Nat) (p : DWord → Bool) (hk : Keeps k0 b0 s) : Keeps k0 b0 (State.igIssue s c n p) := by
  unfold State.igIssue
  repeat' first | with_reducible assumption | intro _ | with_reducible apply State.igExec_keeps | with_reducible apply Keeps.ite | with_reducible rfl | split | with_reducible apply Keeps.mk1

theorem State.igWaiter_keeps {k0 : Bool} {b0 : State} {s : State} (c w : Nat) (p : DWord → Bool) (hk : Keeps k0 b0 s) : Keeps k0 b0 (State.igWaiter s c w p) := by
  unfold State.igWaiter
  repeat' first | with_reducible assumption | intro _ | with_reducible apply State.igGoOn_keeps | with_reducible apply State.igIssue_keeps | with_reducible apply Keeps.ite

theorem State.igIll_keeps {k0 : Bool} {b0 : State} {s : State} (c : Nat) (fetch inH : Bool) (hk : Keeps k0 b0 s) : Keeps k0 b0 (State.igIll s c fetch inH) := by
  unfold State.igIll
  repeat' first | with_reducible assumption | intro _ | with_reducible apply State.igAbort_keeps | with_reducible apply State.setCore_keeps | with_reducible apply Keeps.ite | with_reducible rfl | split | with_reducible apply Keeps.mk1

theorem State.igNop_keeps {k0 : Bool} {b0 : State} {s : State} (c : Nat) (hk : Keeps k0 b0 s) : Keeps k0 b0 (State.igNop s c) := by
  unfold State.igNop
  repeat' first | with_reducible assumption | intro _ | with_reducible apply State.setCore_keeps | with_reducible apply State.igCycles_keeps | with_reducible apply State.igEnd_keeps | with_reducible rfl | with_reducible apply Keeps.mk1

theorem State.igIllegal_keeps {k0 : Bool} {b0 : State} {s : State} (c : Nat) (hk : Keeps k0 b0 s) : Keeps k0 b0 (State.igIllegal s c) := by
  unfold State.igIllegal
  repeat' first | with_reducible assumption | intro _ | with_reducible apply State.igNop_keeps | with_reducible apply State.setCore_keeps | with_reducible apply State.put_keeps | with_reducible apply State.igIll_keeps | with_reducible apply Keeps.ite | with_reducible rfl | split | with_reducible apply Keeps.mk1

theorem State.igFill_keeps {k0 : Bool} {b0 : State} {s : State} (c cyc : Nat) (hk : Keeps k0 b0 s) : Keeps k0 b0 (State.igFill s c cyc) := by
  unfold State.igFill
  repeat' first | with_reducible assumption | intro _ | with_reducible apply State.bump_keeps | with_reducible apply State.igCycles_keeps | with_reducible apply State.setCore_keeps | with_reducible apply State.lineFetch_keeps | with_reducible apply State.waitedFree_keeps | with_reducible apply State.sharedRead_keeps | with_reducible apply State.fail_keeps | with_reducible apply State.put_keeps | with_reducible apply State.igIll_keeps | with_reducible apply Keeps.ite | with_reducible apply Keeps.ite2 | with_reducible rfl | split | with_reducible apply Keeps.mk1

theorem State.igIterate_keeps {k0 : Bool} {b0 : State} {s : State} (c : Nat) (hk : Keeps k0 b0 s) : Keeps k0 b0 (State.igIterate s c) := by
  unfold State.igIterate
  repeat' first | with_reducible assumption | intro _ | with_reducible apply State.setCore_keeps | with_reducible apply Keeps.ite

theorem State.igVector_keeps {k0 : Bool} {b0 : State} {s : State} (c cause off : Nat) (fetch : Bool) (hk : Keeps k0 b0 s) : Keeps k0 b0 (State.igVector s c cause off fetch) := by
  unfold State.igVector
  repeat' first | with_reducible assumption | intro _ | with_reducible apply State.put_keeps | with_reducible apply State.setCore_keeps | with_reducible apply State.igCycles_keeps | with_reducible rfl | with_reducible apply Keeps.mk1

theorem State.igTake_keeps {k0 : Bool} {b0 : State} {s : State} (c : Nat) (hk : Keeps k0 b0 s) : Keeps k0 b0 (State.igTake s c) := by
  unfold State.igTake
  repeat' first | with_reducible assumption | intro _ | with_reducible apply State.put_keeps | with_reducible apply State.setCore_keeps | with_reducible apply State.igVector_keeps | with_reducible apply Keeps.ite | with_reducible rfl | with_reducible apply Keeps.mk1

theorem State.igWatchdog_keeps {k0 : Bool} {b0 : State} {s : State} (c : Nat) (hk : Keeps k0 b0 s) : Keeps k0 b0 (State.igWatchdog s c) := by
  unfold State.igWatchdog
  repeat' first | with_reducible assumption | intro _ | with_reducible apply State.igCycles_keeps | with_reducible apply State.igAbort_keeps | with_reducible apply State.setCore_keeps | with_reducible apply Keeps.ite | with_reducible rfl | with_reducible apply Keeps.mk1

theorem State.igComplete_keeps {k0 : Bool} {b0 : State} {s : State} (c n : Nat) (hk : Keeps k0 b0 s) : Keeps k0 b0 (State.igComplete s c n) := by
  unfold State.igComplete
  repeat' first | with_reducible assumption | intro _ | with_reducible apply State.igCycles_keeps | with_reducible apply State.setCore_keeps | with_reducible apply State.setVat_keeps | with_reducible apply State.setIf_keeps | with_reducible apply State.put_keeps | with_reducible apply Keeps.ite | with_reducible rfl | split | with_reducible apply Keeps.mk1

theorem State.igGuard_keeps {k0 : Bool} {b0 : State} {s : State} (m : Master) (c : Nat) (f : State → State) (hk : Keeps k0 b0 s) (hf : ∀ t, Keeps k0 b0 t → Keeps k0 b0 (f t)) : Keeps k0 b0 (State.igGuard s m c f) := by
  unfold State.igGuard
  repeat' first | with_reducible assumption | intro _ | with_reducible apply hf | with_reducible apply State.guard_keeps | with_reducible apply Keeps.ite

theorem State.igHalt_keeps {k0 : Bool} {b0 : State} {s : State} (c : Nat) (hk : Keeps k0 b0 s) : Keeps k0 b0 (State.igHalt s c) := by
  unfold State.igHalt
  repeat' first | with_reducible assumption | intro _ | with_reducible apply State.setCore_keeps | with_reducible rfl | with_reducible apply Keeps.mk1

theorem State.igLeave_keeps {k0 : Bool} {b0 : State} {s : State} (c : Nat) (hk : Keeps k0 b0 s) : Keeps k0 b0 (State.igLeave s c) := by
  unfold State.igLeave
  repeat' first | with_reducible assumption | intro _ | with_reducible apply State.put_keeps | with_reducible apply Keeps.ite

theorem State.igGo_keeps {k0 : Bool} {b0 : State} {s : State} (c r : Nat) (hk : Keeps k0 b0 s) : Keeps k0 b0 (State.igGo s c r) := by
  unfold State.igGo
  repeat' first | with_reducible assumption | intro _ | with_reducible apply State.igLeave_keeps | with_reducible apply State.setCore_keeps | with_reducible apply Keeps.ite | with_reducible rfl | with_reducible apply Keeps.mk1

theorem State.igDbgReq_keeps {k0 : Bool} {b0 : State} {s : State} (c r : Nat) (hk : Keeps k0 b0 s) : Keeps k0 b0 (State.igDbgReq s c r) := by
  unfold State.igDbgReq
  repeat' first | with_reducible assumption | intro _ | with_reducible apply State.igGo_keeps | with_reducible apply State.setCore_keeps | with_reducible apply Keeps.ite | with_reducible rfl | with_reducible apply Keeps.mk1

theorem State.igStepReq_keeps {k0 : Bool} {b0 : State} {s : State} (c : Nat) (hk : Keeps k0 b0 s) : Keeps k0 b0 (State.igStepReq s c) := by
  unfold State.igStepReq
  repeat' first | with_reducible assumption | intro _ | with_reducible apply State.igDbgReq_keeps

theorem State.igResume_keeps {k0 : Bool} {b0 : State} {s : State} (c : Nat) (hk : Keeps k0 b0 s) : Keeps k0 b0 (State.igResume s c) := by
  unfold State.igResume
  repeat' first | with_reducible assumption | intro _ | with_reducible apply State.igDbgReq_keeps

theorem State.igClkBack_keeps {k0 : Bool} {b0 : State} {s : State} (hk : Keeps k0 b0 s) : Keeps k0 b0 (State.igClkBack s) := by
  unfold State.igClkBack
  repeat' first | with_reducible assumption | intro _ | with_reducible apply State.igGo_keeps | with_reducible apply Keeps.ite | (with_reducible apply Keeps.fold)

theorem State.igDbgWrite_keeps {k0 : Bool} {b0 : State} {s : State} (c : Nat) (v : Word) (hk : Keeps k0 b0 s) : Keeps k0 b0 (State.igDbgWrite s c v) := by
  unfold State.igDbgWrite
  repeat' first | with_reducible assumption | intro _ | with_reducible apply State.igHalt_keeps | with_reducible apply State.igStepReq_keeps | with_reducible apply State.igResume_keeps | with_reducible apply Keeps.ite

theorem State.igIcinv_keeps {k0 : Bool} {b0 : State} {s : State} (c : Nat) (hk : Keeps k0 b0 s) : Keeps k0 b0 (State.igIcinv s c) := by
  unfold State.igIcinv
  repeat' first | with_reducible assumption | intro _ | with_reducible apply State.setCore_keeps | with_reducible apply State.put_keeps | with_reducible apply Keeps.ite | with_reducible rfl | with_reducible apply Keeps.mk1

theorem State.igCtrlWrite_keeps {k0 : Bool} {b0 : State} {s : State} (c : Nat) (v : Word) (hk : Keeps k0 b0 s) : Keeps k0 b0 (State.igCtrlWrite s c v) := by
  unfold State.igCtrlWrite
  repeat' first | with_reducible assumption | intro _ | with_reducible apply State.wr_keeps | with_reducible apply State.setCore_keeps | with_reducible apply State.igIcinv_keeps | with_reducible apply Keeps.ite | with_reducible rfl | with_reducible apply Keeps.mk1

theorem execIgNop_keeps (c : Fin 16) (s : State) {r0 : State} (hr : execIgNop c s = .next r0) : Keeps true s r0 := by
  cases hr
  have hk := Keeps.rfl true s
  repeat' first | with_reducible assumption | intro _ | with_reducible apply State.igIssue_keeps

theorem execIgMac_keeps (c : Fin 16) (s : State) {r0 : State} (hr : execIgMac c s = .next r0) : Keeps true s r0 := by
  cases hr
  have hk := Keeps.rfl true s
  repeat' first | with_reducible assumption | intro _ | with_reducible apply State.igIssue_keeps

theorem execIgMacp_keeps (c : Fin 16) (s : State) {r0 : State} (hr : execIgMacp c s = .next r0) : Keeps true s r0 := by
  cases hr
  have hk := Keeps.rfl true s
  repeat' first | with_reducible assumption | intro _ | with_reducible apply State.igIssue_keeps

theorem execIgMac2_keeps (c : Fin 16) (s : State) {r0 : State} (hr : execIgMac2 c s = .next r0) : Keeps true s r0 := by
  cases hr
  have hk := Keeps.rfl true s
  repeat' first | with_reducible assumption | intro _ | with_reducible apply State.igIssue_keeps

theorem execIgMacq_keeps (c : Fin 16) (s : State) {r0 : State} (hr : execIgMacq c s = .next r0) : Keeps true s r0 := by
  cases hr
  have hk := Keeps.rfl true s
  repeat' first | with_reducible assumption | intro _ | with_reducible apply State.igIssue_keeps

theorem execIgMpy_keeps (c : Fin 16) (s : State) {r0 : State} (hr : execIgMpy c s = .next r0) : Keeps true s r0 := by
  cases hr
  have hk := Keeps.rfl true s
  repeat' first | with_reducible assumption | intro _ | with_reducible apply State.igIssue_keeps

theorem execIgClr_keeps (c : Fin 16) (s : State) {r0 : State} (hr : execIgClr c s = .next r0) : Keeps true s r0 := by
  cases hr
  have hk := Keeps.rfl true s
  repeat' first | with_reducible assumption | intro _ | with_reducible apply State.igIssue_keeps

theorem execIgMova_keeps (c : Fin 16) (s : State) {r0 : State} (hr : execIgMova c s = .next r0) : Keeps true s r0 := by
  cases hr
  have hk := Keeps.rfl true s
  repeat' first | with_reducible assumption | intro _ | with_reducible apply State.igIssue_keeps

theorem execIgMovac_keeps (c : Fin 16) (s : State) {r0 : State} (hr : execIgMovac c s = .next r0) : Keeps true s r0 := by
  cases hr
  have hk := Keeps.rfl true s
  repeat' first | with_reducible assumption | intro _ | with_reducible apply State.igIssue_keeps

theorem execIgAdd_keeps (c : Fin 16) (s : State) {r0 : State} (hr : execIgAdd c s = .next r0) : Keeps true s r0 := by
  cases hr
  have hk := Keeps.rfl true s
  repeat' first | with_reducible assumption | intro _ | with_reducible apply State.igIssue_keeps

theorem execIgSub_keeps (c : Fin 16) (s : State) {r0 : State} (hr : execIgSub c s = .next r0) : Keeps true s r0 := by
  cases hr
  have hk := Keeps.rfl true s
  repeat' first | with_reducible assumption | intro _ | with_reducible apply State.igIssue_keeps

theorem execIgAdds_keeps (c : Fin 16) (s : State) {r0 : State} (hr : execIgAdds c s = .next r0) : Keeps true s r0 := by
  cases hr
  have hk := Keeps.rfl true s
  repeat' first | with_reducible assumption | intro _ | with_reducible apply State.igIssue_keeps

theorem execIgSubs_keeps (c : Fin 16) (s : State) {r0 : State} (hr : execIgSubs c s = .next r0) : Keeps true s r0 := by
  cases hr
  have hk := Keeps.rfl true s
  repeat' first | with_reducible assumption | intro _ | with_reducible apply State.igIssue_keeps

theorem execIgAnd_keeps (c : Fin 16) (s : State) {r0 : State} (hr : execIgAnd c s = .next r0) : Keeps true s r0 := by
  cases hr
  have hk := Keeps.rfl true s
  repeat' first | with_reducible assumption | intro _ | with_reducible apply State.igIssue_keeps

theorem execIgOr_keeps (c : Fin 16) (s : State) {r0 : State} (hr : execIgOr c s = .next r0) : Keeps true s r0 := by
  cases hr
  have hk := Keeps.rfl true s
  repeat' first | with_reducible assumption | intro _ | with_reducible apply State.igIssue_keeps

theorem execIgXor_keeps (c : Fin 16) (s : State) {r0 : State} (hr : execIgXor c s = .next r0) : Keeps true s r0 := by
  cases hr
  have hk := Keeps.rfl true s
  repeat' first | with_reducible assumption | intro _ | with_reducible apply State.igIssue_keeps

theorem execIgMin_keeps (c : Fin 16) (s : State) {r0 : State} (hr : execIgMin c s = .next r0) : Keeps true s r0 := by
  cases hr
  have hk := Keeps.rfl true s
  repeat' first | with_reducible assumption | intro _ | with_reducible apply State.igIssue_keeps

theorem execIgMax_keeps (c : Fin 16) (s : State) {r0 : State} (hr : execIgMax c s = .next r0) : Keeps true s r0 := by
  cases hr
  have hk := Keeps.rfl true s
  repeat' first | with_reducible assumption | intro _ | with_reducible apply State.igIssue_keeps

theorem execIgMov_keeps (c : Fin 16) (s : State) {r0 : State} (hr : execIgMov c s = .next r0) : Keeps true s r0 := by
  cases hr
  have hk := Keeps.rfl true s
  repeat' first | with_reducible assumption | intro _ | with_reducible apply State.igIssue_keeps

theorem execIgCmp_keeps (c : Fin 16) (s : State) {r0 : State} (hr : execIgCmp c s = .next r0) : Keeps true s r0 := by
  cases hr
  have hk := Keeps.rfl true s
  repeat' first | with_reducible assumption | intro _ | with_reducible apply State.igIssue_keeps

theorem execIgAddi_keeps (c : Fin 16) (s : State) {r0 : State} (hr : execIgAddi c s = .next r0) : Keeps true s r0 := by
  cases hr
  have hk := Keeps.rfl true s
  repeat' first | with_reducible assumption | intro _ | with_reducible apply State.igIssue_keeps

theorem execIgAsr_keeps (c : Fin 16) (s : State) {r0 : State} (hr : execIgAsr c s = .next r0) : Keeps true s r0 := by
  cases hr
  have hk := Keeps.rfl true s
  repeat' first | with_reducible assumption | intro _ | with_reducible apply State.igIssue_keeps

theorem execIgLsr_keeps (c : Fin 16) (s : State) {r0 : State} (hr : execIgLsr c s = .next r0) : Keeps true s r0 := by
  cases hr
  have hk := Keeps.rfl true s
  repeat' first | with_reducible assumption | intro _ | with_reducible apply State.igIssue_keeps

theorem execIgLsl_keeps (c : Fin 16) (s : State) {r0 : State} (hr : execIgLsl c s = .next r0) : Keeps true s r0 := by
  cases hr
  have hk := Keeps.rfl true s
  repeat' first | with_reducible assumption | intro _ | with_reducible apply State.igIssue_keeps

theorem execIgNsb_keeps (c : Fin 16) (s : State) {r0 : State} (hr : execIgNsb c s = .next r0) : Keeps true s r0 := by
  cases hr
  have hk := Keeps.rfl true s
  repeat' first | with_reducible assumption | intro _ | with_reducible apply State.igIssue_keeps

theorem execIgAgset_keeps (c : Fin 16) (s : State) {r0 : State} (hr : execIgAgset c s = .next r0) : Keeps true s r0 := by
  cases hr
  have hk := Keeps.rfl true s
  repeat' first | with_reducible assumption | intro _ | with_reducible apply State.igIssue_keeps

theorem execIgAgadd_keeps (c : Fin 16) (s : State) {r0 : State} (hr : execIgAgadd c s = .next r0) : Keeps true s r0 := by
  cases hr
  have hk := Keeps.rfl true s
  repeat' first | with_reducible assumption | intro _ | with_reducible apply State.igIssue_keeps

theorem execIgMts_keeps (c : Fin 16) (s : State) {r0 : State} (hr : execIgMts c s = .next r0) : Keeps true s r0 := by
  cases hr
  have hk := Keeps.rfl true s
  repeat' first | with_reducible assumption | intro _ | with_reducible apply State.igIssue_keeps

theorem execIgMfs_keeps (c : Fin 16) (s : State) {r0 : State} (hr : execIgMfs c s = .next r0) : Keeps true s r0 := by
  cases hr
  have hk := Keeps.rfl true s
  repeat' first | with_reducible assumption | intro _ | with_reducible apply State.igIssue_keeps

theorem execIgLdiw_keeps (c : Fin 16) (s : State) {r0 : State} (hr : execIgLdiw c s = .next r0) : Keeps true s r0 := by
  cases hr
  have hk := Keeps.rfl true s
  repeat' first | with_reducible assumption | intro _ | with_reducible apply State.igIssue_keeps

theorem execIgBr_keeps (c : Fin 16) (s : State) {r0 : State} (hr : execIgBr c s = .next r0) : Keeps true s r0 := by
  cases hr
  have hk := Keeps.rfl true s
  repeat' first | with_reducible assumption | intro _ | with_reducible apply State.igIssue_keeps

theorem execIgCall_keeps (c : Fin 16) (s : State) {r0 : State} (hr : execIgCall c s = .next r0) : Keeps true s r0 := by
  cases hr
  have hk := Keeps.rfl true s
  repeat' first | with_reducible assumption | intro _ | with_reducible apply State.igIssue_keeps

theorem execIgRet_keeps (c : Fin 16) (s : State) {r0 : State} (hr : execIgRet c s = .next r0) : Keeps true s r0 := by
  cases hr
  have hk := Keeps.rfl true s
  repeat' first | with_reducible assumption | intro _ | with_reducible apply State.igIssue_keeps

theorem execIgRte_keeps (c : Fin 16) (s : State) {r0 : State} (hr : execIgRte c s = .next r0) : Keeps true s r0 := by
  cases hr
  have hk := Keeps.rfl true s
  repeat' first | with_reducible assumption | intro _ | with_reducible apply State.igIssue_keeps

theorem execIgRep_keeps (c : Fin 16) (s : State) {r0 : State} (hr : execIgRep c s = .next r0) : Keeps true s r0 := by
  cases hr
  have hk := Keeps.rfl true s
  repeat' first | with_reducible assumption | intro _ | with_reducible apply State.igIssue_keeps

theorem execIgDone_keeps (c : Fin 16) (s : State) {r0 : State} (hr : execIgDone c s = .next r0) : Keeps true s r0 := by
  cases hr
  have hk := Keeps.rfl true s
  repeat' first | with_reducible assumption | intro _ | with_reducible apply State.igIssue_keeps

theorem execIgFld_keeps (c : Fin 16) (s : State) {r0 : State} (hr : execIgFld c s = .next r0) : Keeps true s r0 := by
  cases hr
  have hk := Keeps.rfl true s
  repeat' first | with_reducible assumption | intro _ | with_reducible apply State.igIssue_keeps

theorem execIgFst_keeps (c : Fin 16) (s : State) {r0 : State} (hr : execIgFst c s = .next r0) : Keeps true s r0 := by
  cases hr
  have hk := Keeps.rfl true s
  repeat' first | with_reducible assumption | intro _ | with_reducible apply State.igWaiter_keeps

theorem execIgFence_keeps (c : Fin 16) (s : State) {r0 : State} (hr : execIgFence c s = .next r0) : Keeps true s r0 := by
  cases hr
  have hk := Keeps.rfl true s
  repeat' first | with_reducible assumption | intro _ | with_reducible apply State.igWaiter_keeps

theorem execIgSubmit_keeps (c : Timed (Fin 16)) (s : State) {r0 : State} (hr : execIgSubmit c s = .next r0) : Keeps true s r0 := by
  cases hr
  have hk := Keeps.rfl true s
  repeat' first | with_reducible assumption | intro _ | with_reducible apply State.igIssue_keeps

theorem execIgBkpt_keeps (c : Fin 16) (s : State) {r0 : State} (hr : execIgBkpt c s = .next r0) : Keeps true s r0 := by
  cases hr
  have hk := Keeps.rfl true s
  repeat' first | with_reducible assumption | intro _ | with_reducible apply State.igIssue_keeps

theorem execIgLoad_keeps (c : Fin 16) (s : State) {r0 : State} (hr : execIgLoad c s = .next r0) : Keeps true s r0 := by
  cases hr
  have hk := Keeps.rfl true s
  repeat' first | with_reducible assumption | intro _ | with_reducible apply State.igIssue_keeps

theorem execIgStore_keeps (c : Fin 16) (s : State) {r0 : State} (hr : execIgStore c s = .next r0) : Keeps true s r0 := by
  cases hr
  have hk := Keeps.rfl true s
  repeat' first | with_reducible assumption | intro _ | with_reducible apply State.igIssue_keeps

theorem execIgScaledStore_keeps (c : Fin 16) (s : State) {r0 : State} (hr : execIgScaledStore c s = .next r0) : Keeps true s r0 := by
  cases hr
  have hk := Keeps.rfl true s
  repeat' first | with_reducible assumption | intro _ | with_reducible apply State.igIssue_keeps

theorem execIgIllegalBundle_keeps (c : Fin 16) (s : State) {r0 : State} (hr : execIgIllegalBundle c s = .next r0) : Keeps true s r0 := by
  cases hr
  have hk := Keeps.rfl true s
  repeat' first | with_reducible assumption | intro _ | with_reducible apply State.igIllegal_keeps

theorem execRepeatIterationEnd_keeps (c : Fin 16) (s : State) {r0 : State} (hr : execRepeatIterationEnd c s = .next r0) : Keeps true s r0 := by
  cases hr
  have hk := Keeps.rfl true s
  repeat' first | with_reducible assumption | intro _ | with_reducible apply State.igIterate_keeps

theorem execExceptionTake_keeps (c : Fin 16) (s : State) {r0 : State} (hr : execExceptionTake c s = .next r0) : Keeps true s r0 := by
  cases hr
  have hk := Keeps.rfl true s
  repeat' first | with_reducible assumption | intro _ | with_reducible apply State.igTake_keeps

theorem execWatchdogExpiry_keeps (c : Fin 16) (s : State) {r0 : State} (hr : execWatchdogExpiry c s = .next r0) : Keeps true s r0 := by
  cases hr
  have hk := Keeps.rfl true s
  repeat' first | with_reducible assumption | intro _ | with_reducible apply State.igWatchdog_keeps

theorem execItemCompletion_keeps (c : Timed (Fin 16)) (s : State) {r0 : State} (hr : execItemCompletion c s = .next r0) : Keeps true s r0 := by
  cases hr
  have hk := Keeps.rfl true s
  repeat' first | with_reducible assumption | intro _ | with_reducible apply State.igComplete_keeps

theorem execDebugHalt_keeps (m : Master) (c : Fin 16) (s : State) {r0 : State} (hr : execDebugHalt m c s = .next r0) : Keeps true s r0 := by
  cases hr
  have hk := Keeps.rfl true s
  repeat' first | with_reducible assumption | intro _ | with_reducible apply State.igGuard_keeps | with_reducible apply State.igHalt_keeps

theorem execDebugStep_keeps (m : Master) (c : Fin 16) (s : State) {r0 : State} (hr : execDebugStep m c s = .next r0) : Keeps true s r0 := by
  cases hr
  have hk := Keeps.rfl true s
  repeat' first | with_reducible assumption | intro _ | with_reducible apply State.igGuard_keeps | with_reducible apply State.igStepReq_keeps

theorem execDebugResume_keeps (m : Master) (c : Fin 16) (s : State) {r0 : State} (hr : execDebugResume m c s = .next r0) : Keeps true s r0 := by
  cases hr
  have hk := Keeps.rfl true s
  repeat' first | with_reducible assumption | intro _ | with_reducible apply State.igGuard_keeps | with_reducible apply State.igResume_keeps

theorem execDoorbellWrite_keeps (_m : Master) (c : Fin 16) (v : Word) (s : State) {r0 : State} (hr : execDoorbellWrite _m c v s = .next r0) : Keeps true s r0 := by
  cases hr
  have hk := Keeps.rfl true s
  repeat' first | with_reducible assumption | intro _ | with_reducible apply State.ok_keeps | with_reducible apply State.dbellSet_keeps | with_reducible apply Keeps.ite | with_reducible apply Keeps.ite2

theorem execIcinv_keeps (m : Master) (c : Fin 16) (s : State) {r0 : State} (hr : execIcinv m c s = .next r0) : Keeps true s r0 := by
  cases hr
  have hk := Keeps.rfl true s
  repeat' first | with_reducible assumption | intro _ | with_reducible apply State.igGuard_keeps | with_reducible apply State.igIcinv_keeps

theorem execIcacheFillDone_keeps (c : Fin 16) (cyc : Nat) (s : State) {r0 : State} (hr : execIcacheFillDone c cyc s = .next r0) : Keeps true s r0 := by
  cases hr
  have hk := Keeps.rfl true s
  repeat' first | with_reducible assumption | intro _ | with_reducible apply State.igFill_keeps

end Sys2Proof.Machine
end

