-- ==== Sys2Proof/Laws/Keep/Dma.lean ====
section
/-! SUPPORT. What the helpers and meanings of Machine/Dma.lean keep. -/

namespace Sys2Proof.Machine

theorem State.setDch_keeps {k0 : Bool} {b0 : State} {s : State} (n : Nat) (g : DmaCh → DmaCh) (hk : Keeps k0 b0 s) : Keeps k0 b0 (State.setDch s n g) := by
  unfold State.setDch
  repeat' first | with_reducible assumption | intro _ | with_reducible rfl | with_reducible apply Keeps.mk1

theorem State.dmaEvt_keeps {k0 : Bool} {b0 : State} {s : State} (n : Nat) (hk : Keeps k0 b0 s) : Keeps k0 b0 (State.dmaEvt s n) := by
  unfold State.dmaEvt
  repeat' first | with_reducible assumption | intro _ | with_reducible apply State.wr_keeps | split

theorem State.dmaRest_keeps {k0 : Bool} {b0 : State} {s : State} (n st : Nat) (hk : Keeps k0 b0 s) : Keeps k0 b0 (State.dmaRest s n st) := by
  unfold State.dmaRest
  repeat' first | with_reducible assumption | intro _ | with_reducible apply State.put_keeps | with_reducible apply State.setDch_keeps

theorem State.dmaErr_keeps {k0 : Bool} {b0 : State} {s : State} (n kind addr : Nat) (hk : Keeps k0 b0 s) : Keeps k0 b0 (State.dmaErr s n kind addr) := by
  unfold State.dmaErr
  repeat' first | with_reducible assumption | intro _ | with_reducible apply State.put_keeps | with_reducible apply State.dmaRest_keeps | with_reducible apply State.dmaEvt_keeps

theorem State.dmaPush_keeps {k0 : Bool} {b0 : State} {s : State} (n : Nat) (wr : Bool) (a z : Nat) (data : List Byte) (hk : Keeps k0 b0 s) : Keeps k0 b0 (State.dmaPush s n wr a z data) := by
  unfold State.dmaPush
  repeat' first | with_reducible assumption | intro _ | with_reducible apply State.wr_keeps | with_reducible apply State.setDch_keeps | with_reducible rfl | with_reducible apply Keeps.mk1

theorem State.dmaIssue_keeps {k0 : Bool} {b0 : State} {s : State} (n : Nat) (hk : Keeps k0 b0 s) : Keeps k0 b0 (State.dmaIssue s n) := by
  unfold State.dmaIssue
  repeat' first | with_reducible assumption | intro _ | with_reducible apply State.put_keeps | with_reducible apply State.dmaPush_keeps | with_reducible apply State.setDch_keeps | with_reducible apply Keeps.ite | with_reducible rfl | split | with_reducible apply Keeps.mk1

theorem State.dmaPump_keeps {k0 : Bool} {b0 : State} {s : State} (f : Nat) (hk : Keeps k0 b0 s) : Keeps k0 b0 (s.dmaPump f) := by
  induction f generalizing s with
  | zero => exact hk
  | succ f ih =>
    unfold State.dmaPump
    split
    · exact hk
    · exact ih (Keeps.mk1 (State.dmaIssue_keeps _ hk) rfl rfl)

theorem State.dmaGo_keeps {k0 : Bool} {b0 : State} {s : State} (hk : Keeps k0 b0 s) : Keeps k0 b0 (State.dmaGo s) := by
  unfold State.dmaGo
  repeat' first | with_reducible assumption | intro _ | with_reducible apply State.dmaPump_keeps

theorem State.dmaFetch_keeps {k0 : Bool} {b0 : State} {s : State} (n : Nat) (x : DmaAcc) (hk : Keeps k0 b0 s) :
    Keeps k0 b0 (s.dmaFetch n x).2.2 := by
  have h1 := fun m => State.fabRead_keeps m x.addr (min x.size 16) x.ok hk
  have h2 : ∀ m, Keeps k0 b0 (if x.size = 32 then (s.fabRead m x.addr (min x.size 16) x.ok).2.fabRead m (x.addr + 16) 16 x.ok
      else ([], (s.fabRead m x.addr (min x.size 16) x.ok).2)).2 := fun m =>
    Keeps.ite2 (State.fabRead_keeps _ _ _ _ (h1 m)) (h1 m)
  unfold State.dmaFetch
  dsimp only
  split
  · exact hk
  · split
    · exact h2 _
    · exact h2 _
    · exact h2 _

theorem State.dmaTurn_keeps {k0 : Bool} {b0 : State} {s : State} (n ph : Nat) (hk : Keeps k0 b0 s) : Keeps k0 b0 (State.dmaTurn s n ph) := by
  unfold State.dmaTurn
  repeat' first | with_reducible assumption | intro _ | with_reducible apply State.setDch_keeps | with_reducible apply State.dmaGo_keeps | with_reducible rfl | with_reducible apply Keeps.mk1

theorem State.dmaChain_keeps {k0 : Bool} {b0 : State} {s : State} (n : Nat) (hk : Keeps k0 b0 s) : Keeps k0 b0 (State.dmaChain s n) := by
  unfold State.dmaChain
  repeat' first | with_reducible assumption | intro _ | with_reducible apply State.dmaTurn_keeps | with_reducible apply State.dmaRest_keeps | with_reducible apply Keeps.ite

theorem State.dmaSetDone_keeps {k0 : Bool} {b0 : State} {s : State} (n : Nat) (hk : Keeps k0 b0 s) : Keeps k0 b0 (State.dmaSetDone s n) := by
  unfold State.dmaSetDone
  repeat' first | with_reducible assumption | intro _ | with_reducible apply State.dmaEvt_keeps | with_reducible apply State.dmaTurn_keeps | with_reducible apply State.dmaChain_keeps | with_reducible apply Keeps.ite

theorem State.dmaSubmit_keeps {k0 : Bool} {b0 : State} {s : State} (n : Nat) (b : List Byte) (hk : Keeps k0 b0 s) : Keeps k0 b0 (State.dmaSubmit s n b) := by
  unfold State.dmaSubmit
  repeat' first | with_reducible assumption | intro _ | with_reducible apply State.vatOffer_keeps | with_reducible apply State.setIf_keeps | with_reducible apply State.dmaChain_keeps

theorem State.dmaRunSet_keeps {k0 : Bool} {b0 : State} {s : State} (n : Nat) (hk : Keeps k0 b0 s) : Keeps k0 b0 (State.dmaRunSet s n) := by
  unfold State.dmaRunSet
  repeat' first | with_reducible assumption | intro _ | with_reducible apply State.put_keeps | with_reducible apply State.setDch_keeps | with_reducible apply State.dmaSetDone_keeps | with_reducible apply State.dmaGo_keeps | with_reducible apply Keeps.ite | with_reducible rfl | with_reducible apply Keeps.mk1

theorem State.dmaBegin_keeps {k0 : Bool} {b0 : State} {s : State} (n : Nat) (hk : Keeps k0 b0 s) : Keeps k0 b0 (State.dmaBegin s n) := by
  unfold State.dmaBegin
  repeat' first | with_reducible assumption | intro _ | with_reducible apply State.put_keeps | with_reducible apply State.dmaTurn_keeps | with_reducible apply State.dmaRunSet_keeps | with_reducible apply Keeps.ite | split

theorem State.dmaStartReq_keeps {k0 : Bool} {b0 : State} {s : State} (n : Nat) (hk : Keeps k0 b0 s) : Keeps k0 b0 (State.dmaStartReq s n) := by
  unfold State.dmaStartReq
  repeat' first | with_reducible assumption | intro _ | with_reducible apply State.put_keeps | with_reducible apply State.dmaBegin_keeps | with_reducible apply Keeps.ite

theorem State.dmaVatStart_keeps {k0 : Bool} {b0 : State} {s : State} (n : Nat) (hk : Keeps k0 b0 s) : Keeps k0 b0 (State.dmaVatStart s n) := by
  unfold State.dmaVatStart
  repeat' first | with_reducible assumption | intro _ | with_reducible apply State.put_keeps | with_reducible apply State.dmaBegin_keeps | with_reducible apply Keeps.ite

theorem State.dmaAbortReq_keeps {k0 : Bool} {b0 : State} {s : State} (n : Nat) (hk : Keeps k0 b0 s) : Keeps k0 b0 (State.dmaAbortReq s n) := by
  unfold State.dmaAbortReq
  repeat' first | with_reducible assumption | intro _ | with_reducible apply State.put_keeps | with_reducible apply State.dmaRest_keeps | with_reducible apply State.dmaEvt_keeps | with_reducible apply State.setDch_keeps | with_reducible apply Keeps.ite | with_reducible rfl | with_reducible apply Keeps.mk1

theorem State.dmaResumeReq_keeps {k0 : Bool} {b0 : State} {s : State} (n : Nat) (hk : Keeps k0 b0 s) : Keeps k0 b0 (State.dmaResumeReq s n) := by
  unfold State.dmaResumeReq
  repeat' first | with_reducible assumption | intro _ | with_reducible apply State.setDch_keeps | with_reducible apply State.dmaTurn_keeps | with_reducible apply State.put_keeps | with_reducible apply Keeps.ite | with_reducible rfl | with_reducible apply Keeps.mk1

theorem State.dmaCtrlWrite_keeps {k0 : Bool} {b0 : State} {s : State} (n : Nat) (v : Word) (hk : Keeps k0 b0 s) : Keeps k0 b0 (State.dmaCtrlWrite s n v) := by
  unfold State.dmaCtrlWrite
  repeat' first | with_reducible assumption | intro _ | with_reducible apply State.wr_keeps | with_reducible apply State.setIf_keeps | with_reducible apply State.dmaAbortReq_keeps | with_reducible apply State.dmaResumeReq_keeps | with_reducible apply State.dmaStartReq_keeps | with_reducible apply Keeps.ite

theorem State.dmaParamWrite_keeps {k0 : Bool} {b0 : State} {s : State} (n a : Nat) (v : Word) (hk : Keeps k0 b0 s) : Keeps k0 b0 (State.dmaParamWrite s n a v) := by
  unfold State.dmaParamWrite
  repeat' first | with_reducible assumption | intro _ | with_reducible apply State.put_keeps | with_reducible apply State.wr_keeps | with_reducible apply Keeps.ite

theorem State.dmaOwnWrite_keeps {k0 : Bool} {b0 : State} {s : State} (n : Nat) (v : Word) (hk : Keeps k0 b0 s) : Keeps k0 b0 (State.dmaOwnWrite s n v) := by
  unfold State.dmaOwnWrite
  repeat' first | with_reducible assumption | intro _ | with_reducible apply State.put_keeps | with_reducible apply Keeps.ite | split

theorem State.dmaEvtWrite_keeps {k0 : Bool} {b0 : State} {s : State} (m : Master) (v : Word) (hk : Keeps k0 b0 s) : Keeps k0 b0 (State.dmaEvtWrite s m v) := by
  unfold State.dmaEvtWrite
  repeat' first | with_reducible assumption | intro _ | with_reducible exact ‹Keeps _ _ _› | (change Keeps _ _ _ ; exact ‹Keeps _ _ _›) | with_reducible apply State.wr_keeps | with_reducible apply State.dmaEvt_keeps | with_reducible apply State.denied_keeps | with_reducible apply State.guard_keeps | with_reducible apply Keeps.ite | (with_reducible apply Keeps.fold)

theorem execDmaStart_keeps (m : Master) (n : Fin 32) (v : Word) (s : State) {r0 : State} (hr : execDmaStart m n v s = .next r0) : Keeps true s r0 := by
  cases hr
  have hk := Keeps.rfl true s
  repeat' first | with_reducible assumption | intro _ | with_reducible apply State.guard_keeps | with_reducible apply State.dmaCtrlWrite_keeps | split

theorem execDmaAbort_keeps (m : Master) (n : Fin 32) (v : Word) (s : State) {r0 : State} (hr : execDmaAbort m n v s = .next r0) : Keeps true s r0 := by
  cases hr
  have hk := Keeps.rfl true s
  repeat' first | with_reducible assumption | intro _ | with_reducible apply State.guard_keeps | with_reducible apply State.dmaCtrlWrite_keeps | split

theorem execDmaResume_keeps (m : Master) (n : Fin 32) (v : Word) (s : State) {r0 : State} (hr : execDmaResume m n v s = .next r0) : Keeps true s r0 := by
  cases hr
  have hk := Keeps.rfl true s
  repeat' first | with_reducible assumption | intro _ | with_reducible apply State.guard_keeps | with_reducible apply State.dmaCtrlWrite_keeps | split

end Sys2Proof.Machine
end

