-- ==== Sys2Proof/Laws/Keep/Release.lean ====
section
/-! SUPPORT. What the helpers and meanings of Machine/Release.lean keep. -/

namespace Sys2Proof.Machine

theorem State.vatAction_keeps {k0 : Bool} {b0 : State} {s : State} (it : Item) (status : Nat) (hk : Keeps k0 b0 s) : Keeps k0 b0 (State.vatAction s it status) := by
  unfold State.vatAction
  repeat' first | with_reducible assumption | intro _ | with_reducible apply State.setIf_keeps | with_reducible apply State.dbellSet_keeps | with_reducible apply State.cplPush_keeps | with_reducible apply State.dmaVatStart_keeps | with_reducible apply State.playRelease_keeps | with_reducible apply Keeps.ite | with_reducible rfl | split | with_reducible apply Keeps.mk1

theorem State.releaseOne_keeps {k0 : Bool} {b0 : State} {s : State} (p : Item × Nat) (hk : Keeps k0 b0 s) : Keeps k0 b0 (State.releaseOne s p) := by
  unfold State.releaseOne
  repeat' first | with_reducible assumption | intro _ | with_reducible apply State.setVat_keeps | with_reducible apply State.vatAction_keeps | with_reducible rfl | with_reducible apply Keeps.mk1

theorem State.releaseFrom_keeps {k0 : Bool} {b0 : State} {s : State} (f n : Nat) (hk : Keeps k0 b0 s) : Keeps k0 b0 (s.releaseFrom f n) := by
  induction n generalizing s with
  | zero => exact hk
  | succ n ih =>
    unfold State.releaseFrom
    split
    · exact ih (State.releaseOne_keeps _ hk)
    · exact hk

theorem State.itemRelease_keeps {k0 : Bool} {b0 : State} {s : State} (f : Nat) (hk : Keeps k0 b0 s) : Keeps k0 b0 (State.itemRelease s f) := by
  unfold State.itemRelease
  repeat' first | with_reducible assumption | intro _ | with_reducible apply State.releaseFrom_keeps | with_reducible apply Keeps.ite

theorem execItemRelease_keeps (flow : Nat) (s : State) {r0 : State} (hr : execItemRelease flow s = .next r0) : Keeps true s r0 := by
  cases hr
  have hk := Keeps.rfl true s
  repeat' first | with_reducible assumption | intro _ | with_reducible apply State.itemRelease_keeps

end Sys2Proof.Machine
end

