-- ==== Sys2Proof/Laws/Keep/Chime.lean ====
section
/-! SUPPORT. What the helpers and meanings of Machine/Chime.lean keep. -/

namespace Sys2Proof.Machine

theorem State.setChime_keeps {k0 : Bool} {b0 : State} {s : State} (g : Chime → Chime) (hk : Keeps k0 b0 s) : Keeps k0 b0 (State.setChime s g) := by
  unfold State.setChime
  repeat' first | with_reducible assumption | intro _ | with_reducible rfl | with_reducible apply Keeps.mk1

theorem State.mramBytes_keeps {k0 : Bool} {b0 : State} {s : State} (a n : Nat) (hk : Keeps k0 b0 s) : Keeps k0 b0 (State.mramBytes s a n).2 := by
  unfold State.mramBytes
  repeat' first | with_reducible assumption | intro _ | with_reducible apply State.ueSeen_keeps | with_reducible rfl | split | with_reducible apply Keeps.mk1

theorem State.chimePat_keeps {k0 : Bool} {b0 : State} {s : State} (q : Nat) (hk : Keeps k0 b0 s) : Keeps k0 b0 (s.chimePat q).2 := by
  have h1 := State.mramBytes_keeps (0x07076000 + 0x400 * q) 8 hk
  unfold State.chimePat
  dsimp only
  split
  · rename_i he
    rw [he] at h1
    exact h1
  · rename_i he
    rw [he] at h1
    split
    · exact h1
    · have h2 := fun a n => State.mramBytes_keeps a n h1
      split
      · rename_i he
        have h3 := congrArg Prod.snd he
        exact h3 ▸ h2 _ _
      · rename_i he
        have h3 := congrArg Prod.snd he
        split
        · exact h3 ▸ h2 _ _
        · exact h3 ▸ h2 _ _

theorem State.chimeCopy_keeps {k0 : Bool} {b0 : State} {s : State} (hk : Keeps k0 b0 s) : Keeps k0 b0 (State.chimeCopy s) := by
  unfold State.chimeCopy
  repeat' first | with_reducible assumption | intro _ | with_reducible apply State.chimePat_keeps | with_reducible apply State.setChime_keeps | with_reducible apply State.put_keeps | (with_reducible apply Keeps.fold) | with_reducible rfl | with_reducible apply Keeps.mk1

theorem State.chimePlay_keeps {k0 : Bool} {b0 : State} {s : State} (r : ChimeReq) (hk : Keeps k0 b0 s) : Keeps k0 b0 (State.chimePlay s r) := by
  unfold State.chimePlay
  repeat' first | with_reducible assumption | intro _ | with_reducible apply State.setChime_keeps | with_reducible apply State.put_keeps | with_reducible rfl | with_reducible apply Keeps.mk1

theorem State.chimeIdle_keeps {k0 : Bool} {b0 : State} {s : State} (hk : Keeps k0 b0 s) : Keeps k0 b0 (State.chimeIdle s) := by
  unfold State.chimeIdle
  repeat' first | with_reducible assumption | intro _ | with_reducible apply State.setChime_keeps | with_reducible apply State.put_keeps | with_reducible rfl | with_reducible apply Keeps.mk1

theorem State.chimeRecopy_keeps {k0 : Bool} {b0 : State} {s : State} (hk : Keeps k0 b0 s) : Keeps k0 b0 (State.chimeRecopy s) := by
  unfold State.chimeRecopy
  repeat' first | with_reducible assumption | intro _ | with_reducible apply State.setChime_keeps | with_reducible apply State.chimeCopy_keeps | with_reducible apply Keeps.ite | with_reducible rfl | with_reducible apply Keeps.mk1

theorem State.chimeSync_keeps {k0 : Bool} {b0 : State} {s : State} (hk : Keeps k0 b0 s) : Keeps k0 b0 (State.chimeSync s) := by
  unfold State.chimeSync
  repeat' first | with_reducible assumption | intro _ | with_reducible apply State.chimeRecopy_keeps | with_reducible apply State.chimeIdle_keeps | with_reducible apply State.chimePlay_keeps | with_reducible apply State.put_keeps | with_reducible apply Keeps.ite | with_reducible rfl | split | with_reducible apply Keeps.mk1

theorem State.chimeTone_keeps {k0 : Bool} {b0 : State} {s : State} (hk : Keeps k0 b0 s) : Keeps k0 b0 (State.chimeTone s) := by
  unfold State.chimeTone
  repeat' first | with_reducible assumption | intro _ | with_reducible apply State.setChime_keeps | with_reducible apply State.chimeRecopy_keeps | with_reducible apply State.chimeIdle_keeps | with_reducible apply State.chimePlay_keeps | with_reducible apply Keeps.ite | with_reducible rfl | split | with_reducible apply Keeps.mk1

theorem State.chimeStepEnd_keeps {k0 : Bool} {b0 : State} {s : State} (hk : Keeps k0 b0 s) : Keeps k0 b0 (State.chimeStepEnd s) := by
  unfold State.chimeStepEnd
  repeat' first | with_reducible assumption | intro _ | with_reducible apply State.chimeTone_keeps | with_reducible apply State.setChime_keeps | with_reducible apply Keeps.ite | with_reducible rfl | with_reducible apply Keeps.mk1

theorem State.chimeReload_keeps {k0 : Bool} {b0 : State} {s : State} (hk : Keeps k0 b0 s) : Keeps k0 b0 (State.chimeReload s) := by
  unfold State.chimeReload
  repeat' first | with_reducible assumption | intro _ | with_reducible apply State.setChime_keeps | with_reducible apply State.chimeCopy_keeps | with_reducible apply Keeps.ite | with_reducible rfl | with_reducible apply Keeps.mk1

theorem State.chimeCtrlWrite_keeps {k0 : Bool} {b0 : State} {s : State} (v : Word) (hk : Keeps k0 b0 s) : Keeps k0 b0 (State.chimeCtrlWrite s v) := by
  unfold State.chimeCtrlWrite
  repeat' first | with_reducible assumption | intro _ | with_reducible apply State.chimeReload_keeps | with_reducible apply State.setChime_keeps | with_reducible apply State.chimeSync_keeps | with_reducible apply Keeps.ite | with_reducible rfl | with_reducible apply Keeps.mk1

theorem State.chimeCfgWrite_keeps {k0 : Bool} {b0 : State} {s : State} (v : Word) (hk : Keeps k0 b0 s) : Keeps k0 b0 (State.chimeCfgWrite s v) := by
  unfold State.chimeCfgWrite
  repeat' first | with_reducible assumption | intro _ | with_reducible apply State.wr_keeps | with_reducible apply State.chimeSync_keeps

theorem execChimeTonePeriod_keeps (s : State) {r0 : State} (hr : execChimeTonePeriod s = .next r0) : Keeps true s r0 := by
  cases hr
  have hk := Keeps.rfl true s
  repeat' first | with_reducible assumption | intro _ | with_reducible apply State.chimeTone_keeps

theorem execChimeStepEnd_keeps (s : State) {r0 : State} (hr : execChimeStepEnd s = .next r0) : Keeps true s r0 := by
  cases hr
  have hk := Keeps.rfl true s
  repeat' first | with_reducible assumption | intro _ | with_reducible apply State.chimeStepEnd_keeps

theorem execTest_keeps (m : Master) (pat : Fin 4) (s : State) {r0 : State} (hr : execTest m pat s = .next r0) : Keeps true s r0 := by
  cases hr
  have hk := Keeps.rfl true s
  repeat' first | with_reducible assumption | intro _ | with_reducible apply State.guard_keeps | with_reducible apply State.setChime_keeps | with_reducible apply State.chimeSync_keeps | with_reducible rfl | with_reducible apply Keeps.mk1

theorem execTestStop_keeps (m : Master) (s : State) {r0 : State} (hr : execTestStop m s = .next r0) : Keeps true s r0 := by
  cases hr
  have hk := Keeps.rfl true s
  repeat' first | with_reducible assumption | intro _ | with_reducible apply State.guard_keeps | with_reducible apply State.setChime_keeps | with_reducible rfl | with_reducible apply Keeps.mk1

theorem execReload_keeps (m : Master) (s : State) {r0 : State} (hr : execReload m s = .next r0) : Keeps true s r0 := by
  cases hr
  have hk := Keeps.rfl true s
  repeat' first | with_reducible assumption | intro _ | with_reducible apply State.guard_keeps | with_reducible apply State.chimeReload_keeps

theorem execChimeOvercurrent_keeps (s : State) {r0 : State} (hr : execChimeOvercurrent s = .next r0) : Keeps true s r0 := by
  cases hr
  have hk := Keeps.rfl true s
  repeat' first | with_reducible assumption | intro _ | with_reducible apply State.setChime_keeps | with_reducible apply Keeps.ite | with_reducible apply Keeps.ite2 | with_reducible rfl | with_reducible apply Keeps.mk1

end Sys2Proof.Machine
end

