-- ==== Sys2Proof/Laws/Keep/Vehicle.lean ====
section
/-! SUPPORT. What the helpers and meanings of Machine/Vehicle.lean keep. -/

namespace Sys2Proof.Machine

theorem State.wake_keeps {k0 : Bool} {b0 : State} {s : State} (hk : Keeps k0 b0 s) : Keeps k0 b0 (State.wake s) := by
  unfold State.wake
  repeat' first | with_reducible assumption | intro _ | with_reducible apply State.put_keeps | with_reducible apply Keeps.ite | with_reducible rfl | with_reducible apply Keeps.mk1

theorem State.vehLive_keeps {k0 : Bool} {b0 : State} {s : State} (k e w : Nat) (v : Word) (hk : Keeps k0 b0 s) : Keeps k0 b0 (State.vehLive s k e w v) := by
  unfold State.vehLive
  repeat' first | with_reducible assumption | intro _ | with_reducible apply State.liveWrite_keeps | with_reducible apply Keeps.ite

theorem State.vehOvr_keeps {k0 : Bool} {b0 : State} {s : State} (k i : Nat) (v : Word) (hk : Keeps k0 b0 s) : Keeps k0 b0 (State.vehOvr s k i v) := by
  unfold State.vehOvr
  repeat' first | with_reducible assumption | intro _ | with_reducible apply State.ovrPut_keeps | with_reducible apply Keeps.ite

theorem State.vehCount_keeps {k0 : Bool} {b0 : State} {s : State} (k : Nat) (hk : Keeps k0 b0 s) : Keeps k0 b0 (State.vehCount s k) := by
  unfold State.vehCount
  repeat' first | with_reducible assumption | intro _ | with_reducible apply State.bump_keeps

theorem State.sigApply_keeps {k0 : Bool} {b0 : State} {s : State} (i : Nat) (hk : Keeps k0 b0 s) : Keeps k0 b0 (State.sigApply s i) := by
  unfold State.sigApply
  repeat' first | with_reducible assumption | intro _ | with_reducible apply State.vehLive_keeps | with_reducible apply State.vehOvr_keeps | with_reducible apply State.vehCount_keeps | with_reducible apply Keeps.ite | with_reducible rfl | with_reducible apply Keeps.mk1

theorem State.sigStale_keeps {k0 : Bool} {b0 : State} {s : State} (i : Nat) (hk : Keeps k0 b0 s) : Keeps k0 b0 (State.sigStale s i) := by
  unfold State.sigStale
  repeat' first | with_reducible assumption | intro _ | with_reducible apply State.put_keeps | with_reducible apply State.wr_keeps

theorem State.canOn_keeps {k0 : Bool} {b0 : State} {s : State} (hk : Keeps k0 b0 s) : Keeps k0 b0 (State.canOn s) := by
  unfold State.canOn
  repeat' first | with_reducible assumption | intro _ | with_reducible apply State.put_keeps | with_reducible apply State.sigStale_keeps | with_reducible apply State.sigApply_keeps | with_reducible apply Keeps.ite | (with_reducible apply Keeps.fold) | with_reducible rfl | with_reducible apply Keeps.mk1

theorem State.canCtrlWrite_keeps {k0 : Bool} {b0 : State} {s : State} (v : Word) (hk : Keeps k0 b0 s) : Keeps k0 b0 (State.canCtrlWrite s v) := by
  unfold State.canCtrlWrite
  repeat' first | with_reducible assumption | intro _ | with_reducible apply State.setIf_keeps | with_reducible apply State.put_keeps | with_reducible apply State.wr_keeps | with_reducible apply State.canOn_keeps | with_reducible apply Keeps.ite

theorem State.canMemWrite_keeps {k0 : Bool} {b0 : State} {s : State} (a : Nat) (v : Word) (hk : Keeps k0 b0 s) : Keeps k0 b0 (State.canMemWrite s a v) := by
  unfold State.canMemWrite
  repeat' first | with_reducible assumption | intro _ | with_reducible apply State.put_keeps | with_reducible apply State.wr_keeps | with_reducible apply Keeps.ite | with_reducible rfl | split | with_reducible apply Keeps.mk1

theorem State.sigUntime_keeps {k0 : Bool} {b0 : State} {s : State} (i : Nat) (hk : Keeps k0 b0 s) : Keeps k0 b0 (State.sigUntime s i) := by
  unfold State.sigUntime
  repeat' first | with_reducible assumption | intro _ | with_reducible apply State.wr_keeps | with_reducible apply State.put_keeps | with_reducible apply State.noteWriter_keeps | with_reducible apply Keeps.ite | with_reducible rfl | with_reducible apply Keeps.mk1

theorem State.sigUpdate_keeps {k0 : Bool} {b0 : State} {s : State} (i : Nat) (d : List Byte) (hk : Keeps k0 b0 s) : Keeps k0 b0 (State.sigUpdate s i d) := by
  unfold State.sigUpdate
  repeat' first | with_reducible assumption | intro _ | with_reducible apply State.put_keeps | with_reducible apply State.sigUntime_keeps | with_reducible apply State.noteWriter_keeps | with_reducible apply State.wr_keeps | with_reducible apply State.sigApply_keeps | with_reducible rfl | split | with_reducible apply Keeps.mk1

theorem State.canTake_keeps {k0 : Bool} {b0 : State} {s : State} (f : Nat) (d : List Byte) (hk : Keeps k0 b0 s) : Keeps k0 b0 (State.canTake s f d) := by
  unfold State.canTake
  repeat' first | with_reducible assumption | intro _ | with_reducible apply State.bump_keeps | with_reducible apply State.sigUpdate_keeps | with_reducible apply State.wake_keeps | with_reducible apply Keeps.ite | (with_reducible apply Keeps.fold)

theorem State.canFrame_keeps {k0 : Bool} {b0 : State} {s : State} (x : CanFrame) (hk : Keeps k0 b0 s) : Keeps k0 b0 (State.canFrame s x) := by
  unfold State.canFrame
  repeat' first | with_reducible assumption | intro _ | with_reducible apply State.bump_keeps | with_reducible apply State.setIf_keeps | with_reducible apply State.canTake_keeps | with_reducible apply Keeps.ite | with_reducible rfl | split | with_reducible apply Keeps.mk1

theorem State.sigTimeout_keeps {k0 : Bool} {b0 : State} {s : State} (i : Nat) (hk : Keeps k0 b0 s) : Keeps k0 b0 (State.sigTimeout s i) := by
  unfold State.sigTimeout
  repeat' first | with_reducible assumption | intro _ | with_reducible apply State.wr_keeps | with_reducible apply State.sigStale_keeps | with_reducible apply State.sigApply_keeps | with_reducible apply State.noteWriter_keeps | with_reducible apply Keeps.ite | split

theorem State.setEvt_keeps {k0 : Bool} {b0 : State} {s : State} (i : Nat) (g : Evt → Evt) (hk : Keeps k0 b0 s) : Keeps k0 b0 (State.setEvt s i g) := by
  unfold State.setEvt
  repeat' first | with_reducible assumption | intro _ | with_reducible rfl | with_reducible apply Keeps.mk1

theorem State.evtAct_keeps {k0 : Bool} {b0 : State} {s : State} (i : Nat) (on : Bool) (hk : Keeps k0 b0 s) : Keeps k0 b0 (State.evtAct s i on) := by
  unfold State.evtAct
  repeat' first | with_reducible assumption | intro _ | with_reducible apply State.vehOvr_keeps | with_reducible apply State.vehLive_keeps | with_reducible apply State.vehCount_keeps | with_reducible apply State.fire_keeps | with_reducible apply State.settle_keeps | with_reducible apply State.wake_keeps | with_reducible apply Keeps.ite

theorem State.evtSync_keeps {k0 : Bool} {b0 : State} {s : State} (i : Nat) (hk : Keeps k0 b0 s) : Keeps k0 b0 (State.evtSync s i) := by
  unfold State.evtSync
  repeat' first | with_reducible assumption | intro _ | with_reducible apply State.put_keeps | with_reducible apply State.evtAct_keeps | with_reducible apply Keeps.ite

theorem State.evtDebounced_keeps {k0 : Bool} {b0 : State} {s : State} (i : Nat) (hk : Keeps k0 b0 s) : Keeps k0 b0 (State.evtDebounced s i) := by
  unfold State.evtDebounced
  repeat' first | with_reducible assumption | intro _ | with_reducible apply State.setEvt_keeps | with_reducible rfl | with_reducible apply Keeps.mk1

theorem State.evtFreeze_keeps {k0 : Bool} {b0 : State} {s : State} (i : Nat) (hk : Keeps k0 b0 s) : Keeps k0 b0 (State.evtFreeze s i) := by
  unfold State.evtFreeze
  repeat' first | with_reducible assumption | intro _ | with_reducible apply State.setEvt_keeps | with_reducible apply State.put_keeps | with_reducible rfl | with_reducible apply Keeps.mk1

theorem State.evtPin_keeps {k0 : Bool} {b0 : State} {s : State} (i : Nat) (level : Bool) (hk : Keeps k0 b0 s) : Keeps k0 b0 (State.evtPin s i level) := by
  unfold State.evtPin
  repeat' first | with_reducible assumption | intro _ | with_reducible apply State.setEvt_keeps | with_reducible apply State.evtFreeze_keeps | with_reducible apply State.evtDebounced_keeps | with_reducible apply State.evtSync_keeps | with_reducible apply Keeps.ite | with_reducible rfl | with_reducible apply Keeps.mk1

theorem State.evtChatter_keeps {k0 : Bool} {b0 : State} {s : State} (i : Nat) (hk : Keeps k0 b0 s) : Keeps k0 b0 (State.evtChatter s i) := by
  unfold State.evtChatter
  repeat' first | with_reducible assumption | intro _ | with_reducible apply State.evtFreeze_keeps | with_reducible apply State.setEvt_keeps | with_reducible apply State.evtSync_keeps | with_reducible apply Keeps.ite | with_reducible rfl | with_reducible apply Keeps.mk1

theorem State.evtStuck_keeps {k0 : Bool} {b0 : State} {s : State} (i : Nat) (hk : Keeps k0 b0 s) : Keeps k0 b0 (State.evtStuck s i) := by
  unfold State.evtStuck
  repeat' first | with_reducible assumption | intro _ | with_reducible apply State.put_keeps | with_reducible apply State.setEvt_keeps | with_reducible apply State.evtSync_keeps | with_reducible apply Keeps.ite | with_reducible rfl | with_reducible apply Keeps.mk1

theorem State.evtCfgWrite_keeps {k0 : Bool} {b0 : State} {s : State} (i : Nat) (v : Word) (hk : Keeps k0 b0 s) : Keeps k0 b0 (State.evtCfgWrite s i v) := by
  unfold State.evtCfgWrite
  repeat' first | with_reducible assumption | intro _ | with_reducible apply State.wr_keeps | with_reducible apply State.setEvt_keeps | with_reducible apply State.evtDebounced_keeps | with_reducible apply State.evtSync_keeps | with_reducible apply Keeps.ite | with_reducible rfl | with_reducible apply Keeps.mk1

theorem execCanEnable_keeps (m : Master) (v : Word) (s : State) {r0 : State} (hr : execCanEnable m v s = .next r0) : Keeps true s r0 := by
  cases hr
  have hk := Keeps.rfl true s
  repeat' first | with_reducible assumption | intro _ | with_reducible apply State.guard_keeps | with_reducible apply State.canCtrlWrite_keeps | with_reducible apply Keeps.ite | with_reducible apply Keeps.ite2

theorem execCanIntegrationDone_keeps (s : State) {r0 : State} (hr : execCanIntegrationDone s = .next r0) : Keeps true s r0 := by
  cases hr
  have hk := Keeps.rfl true s
  repeat' first | with_reducible assumption | intro _ | with_reducible apply State.put_keeps | with_reducible apply Keeps.ite | with_reducible apply Keeps.ite2

theorem execCanFrameReceived_keeps (f : CanFrame) (cyc : Nat) (s : State) {r0 : State} (hr : execCanFrameReceived f cyc s = .next r0) : Keeps false s r0 := by
  cases hr
  have hk := Keeps.rfl false s
  repeat' first | with_reducible assumption | intro _ | with_reducible apply State.atCyc_keeps | with_reducible apply State.canFrame_keeps

theorem execSignalTimeout_keeps (sg : Fin 48) (cyc : Nat) (s : State) {r0 : State} (hr : execSignalTimeout sg cyc s = .next r0) : Keeps false s r0 := by
  cases hr
  have hk := Keeps.rfl false s
  repeat' first | with_reducible assumption | intro _ | with_reducible apply State.atCyc_keeps | with_reducible apply State.sigTimeout_keeps

theorem execEventPinChange_keeps (i : Timed (Fin 8)) (level : Bool) (s : State) {r0 : State} (hr : execEventPinChange i level s = .next r0) : Keeps false s r0 := by
  cases hr
  have hk := Keeps.rfl false s
  repeat' first | with_reducible assumption | intro _ | with_reducible apply State.atCyc_keeps | with_reducible apply State.evtPin_keeps

theorem execDebounceExpiry_keeps (i : Fin 8) (cyc : Nat) (s : State) {r0 : State} (hr : execDebounceExpiry i cyc s = .next r0) : Keeps false s r0 := by
  cases hr
  have hk := Keeps.rfl false s
  repeat' first | with_reducible assumption | intro _ | with_reducible apply State.atCyc_keeps | with_reducible apply State.evtDebounced_keeps | with_reducible apply State.evtSync_keeps | with_reducible apply Keeps.ite | with_reducible apply Keeps.ite2

theorem execChatterWindow_keeps (i : Fin 8) (cyc : Nat) (s : State) {r0 : State} (hr : execChatterWindow i cyc s = .next r0) : Keeps false s r0 := by
  cases hr
  have hk := Keeps.rfl false s
  repeat' first | with_reducible assumption | intro _ | with_reducible apply State.atCyc_keeps | with_reducible apply State.evtChatter_keeps

theorem execStuckTimeout_keeps (i : Fin 8) (cyc : Nat) (s : State) {r0 : State} (hr : execStuckTimeout i cyc s = .next r0) : Keeps false s r0 := by
  cases hr
  have hk := Keeps.rfl false s
  repeat' first | with_reducible assumption | intro _ | with_reducible apply State.atCyc_keeps | with_reducible apply State.evtStuck_keeps

end Sys2Proof.Machine
end

