-- ==== Sys2Proof/Laws/Keep/Handover.lean ====
section
/-! SUPPORT. What the helpers and meanings of Machine/Handover.lean keep. -/

namespace Sys2Proof.Machine

theorem State.engineStop_keeps {k0 : Bool} {b0 : State} {s : State} (e : Nat) (hk : Keeps k0 b0 s) : Keeps k0 b0 (State.engineStop s e) := by
  unfold State.engineStop
  repeat' first | with_reducible assumption | intro _ | with_reducible apply State.stopNow_keeps | with_reducible apply State.migAbandon_keeps | with_reducible apply State.useSync_keeps | with_reducible apply Keeps.ite | split

theorem State.retarget_keeps {k0 : Bool} {b0 : State} {s : State} (x y : Nat) (hk : Keeps k0 b0 s) : Keeps k0 b0 (State.retarget s x y) := by
  unfold State.retarget
  repeat' first | with_reducible assumption | intro _ | with_reducible apply State.wr_keeps | with_reducible apply State.put_keeps | with_reducible apply Keeps.ite | (with_reducible apply Keeps.fold)

theorem State.verifyFail_keeps {k0 : Bool} {b0 : State} {s : State} (hk : Keeps k0 b0 s) : Keeps k0 b0 (State.verifyFail s) := by
  unfold State.verifyFail
  repeat' first | with_reducible assumption | intro _ | with_reducible apply State.put_keeps | with_reducible apply State.fire_keeps | with_reducible apply State.flog_keeps | with_reducible apply Keeps.ite | with_reducible rfl | with_reducible apply Keeps.mk1

theorem State.handoverVerify_keeps {k0 : Bool} {b0 : State} {s : State} (hk : Keeps k0 b0 s) : Keeps k0 b0 (State.handoverVerify s) := by
  unfold State.handoverVerify
  repeat' first | with_reducible assumption | intro _ | with_reducible apply State.verifyFail_keeps | with_reducible apply State.stopNow_keeps | with_reducible apply State.retarget_keeps | with_reducible apply State.migIdle_keeps | with_reducible apply State.put_keeps | with_reducible apply State.useSync_keeps | with_reducible apply Keeps.ite | with_reducible rfl | split | with_reducible apply Keeps.mk1

theorem execEngineStop_keeps (e : Fin 8) (s : State) {r0 : State} (hr : execEngineStop e s = .next r0) : Keeps true s r0 := by
  cases hr
  have hk := Keeps.rfl true s
  repeat' first | with_reducible assumption | intro _ | with_reducible apply State.engineStop_keeps

theorem execHandoverVerify_keeps (s : State) {r0 : State} (hr : execHandoverVerify s = .next r0) : Keeps true s r0 := by
  cases hr
  have hk := Keeps.rfl true s
  repeat' first | with_reducible assumption | intro _ | with_reducible apply State.handoverVerify_keeps | with_reducible apply State.settle_keeps

end Sys2Proof.Machine
end

