-- ==== Sys2Proof/Laws/Keep/Pll.lean ====
section
/-! SUPPORT. What the helpers and meanings of Machine/Pll.lean keep. -/

namespace Sys2Proof.Machine

theorem State.pllRestart_keeps {k0 : Bool} {b0 : State} {s : State} (p : Nat) (hk : Keeps k0 b0 s) : Keeps k0 b0 (State.pllRestart s p) := by
  unfold State.pllRestart
  repeat' first | with_reducible assumption | intro _ | with_reducible apply State.put_keeps | with_reducible apply State.ocProgress_keeps | with_reducible apply State.setOc_keeps | with_reducible apply Keeps.ite | (with_reducible apply Keeps.fold) | with_reducible rfl | with_reducible apply Keeps.mk1

theorem State.pllSeek_keeps {k0 : Bool} {b0 : State} {s : State} (p : Nat) (hk : Keeps k0 b0 s) : Keeps k0 b0 (State.pllSeek s p) := by
  unfold State.pllSeek
  repeat' first | with_reducible assumption | intro _ | with_reducible apply State.pllWander_keeps | with_reducible apply State.pllRestart_keeps

theorem State.pllHold_keeps {k0 : Bool} {b0 : State} {s : State} (p st : Nat) (hk : Keeps k0 b0 s) : Keeps k0 b0 (State.pllHold s p st) := by
  unfold State.pllHold
  repeat' first | with_reducible assumption | intro _ | with_reducible apply State.pllSeek_keeps | with_reducible apply State.put_keeps

theorem State.pllDeclare_keeps {k0 : Bool} {b0 : State} {s : State} (p : Nat) (hk : Keeps k0 b0 s) : Keeps k0 b0 (State.pllDeclare s p) := by
  unfold State.pllDeclare
  repeat' first | with_reducible assumption | intro _ | with_reducible apply State.pllWander_keeps | with_reducible apply State.bandUse_keeps | with_reducible apply State.put_keeps | with_reducible apply State.igClkBack_keeps | with_reducible apply State.setClk_keeps | with_reducible apply State.clampSync_keeps | with_reducible apply Keeps.ite | (with_reducible apply Keeps.fold) | with_reducible rfl | with_reducible apply Keeps.mk1

theorem State.pllLoad_keeps {k0 : Bool} {b0 : State} {s : State} (fam : Bool) (hk : Keeps k0 b0 s) : Keeps k0 b0 (State.pllLoad s fam) := by
  unfold State.pllLoad
  repeat' first | with_reducible assumption | intro _ | with_reducible apply State.pllWander_keeps | with_reducible apply State.put_keeps | with_reducible apply State.setClk_keeps | with_reducible rfl | with_reducible apply Keeps.mk1

theorem State.mclkEn_keeps {k0 : Bool} {b0 : State} {s : State} (k : Nat) (on : Bool) (hk : Keeps k0 b0 s) : Keeps k0 b0 (State.mclkEn s k on) := by
  unfold State.mclkEn
  repeat' first | with_reducible assumption | intro _ | with_reducible apply State.put_keeps | with_reducible apply Keeps.ite

theorem State.outCfgWrite_keeps {k0 : Bool} {b0 : State} {s : State} (p k : Nat) (v : Word) (hk : Keeps k0 b0 s) : Keeps k0 b0 (State.outCfgWrite s p k v) := by
  unfold State.outCfgWrite
  repeat' first | with_reducible assumption | intro _ | with_reducible apply State.put_keeps | with_reducible apply State.mclkEn_keeps | with_reducible apply State.clampSync_keeps | with_reducible apply State.setClk_keeps | with_reducible apply Keeps.ite | with_reducible rfl | split | with_reducible apply Keeps.mk1

theorem State.pllApply_keeps {k0 : Bool} {b0 : State} {s : State} (hk : Keeps k0 b0 s) : Keeps k0 b0 (State.pllApply s) := by
  unfold State.pllApply
  repeat' first | with_reducible assumption | intro _ | with_reducible apply State.put_keeps | with_reducible apply State.setClk_keeps | with_reducible apply Keeps.ite | with_reducible rfl | with_reducible apply Keeps.mk1

theorem State.pllCtrlWrite_keeps {k0 : Bool} {b0 : State} {s : State} (p : Nat) (v : Word) (hk : Keeps k0 b0 s) : Keeps k0 b0 (State.pllCtrlWrite s p v) := by
  unfold State.pllCtrlWrite
  repeat' first | with_reducible assumption | intro _ | with_reducible apply State.put_keeps | with_reducible apply State.pllApply_keeps | with_reducible apply Keeps.ite

theorem State.mclkBoundary_keeps {k0 : Bool} {b0 : State} {s : State} (hk : Keeps k0 b0 s) : Keeps k0 b0 (State.mclkBoundary s) := by
  unfold State.mclkBoundary
  repeat' first | with_reducible assumption | intro _ | with_reducible apply State.put_keeps | with_reducible apply State.setClk_keeps | with_reducible apply State.clampSync_keeps | with_reducible apply Keeps.ite | (with_reducible apply Keeps.fold) | with_reducible rfl | split | with_reducible apply Keeps.mk1

theorem State.mclkRestart_keeps {k0 : Bool} {b0 : State} {s : State} (hk : Keeps k0 b0 s) : Keeps k0 b0 (State.mclkRestart s) := by
  unfold State.mclkRestart
  repeat' first | with_reducible assumption | intro _ | with_reducible apply State.put_keeps | with_reducible apply State.setClk_keeps | with_reducible apply Keeps.ite | (with_reducible apply Keeps.fold) | with_reducible rfl | split | with_reducible apply Keeps.mk1

theorem State.mclkStart_keeps {k0 : Bool} {b0 : State} {s : State} (k : Nat) (hk : Keeps k0 b0 s) : Keeps k0 b0 (State.mclkStart s k) := by
  unfold State.mclkStart
  repeat' first | with_reducible assumption | intro _ | with_reducible apply State.put_keeps | with_reducible apply Keeps.ite

theorem State.mclkEnable_keeps {k0 : Bool} {b0 : State} {s : State} (k : Nat) (on : Bool) (hk : Keeps k0 b0 s) : Keeps k0 b0 (State.mclkEnable s k on) := by
  unfold State.mclkEnable
  repeat' first | with_reducible assumption | intro _ | with_reducible apply State.mclkEn_keeps | with_reducible apply State.put_keeps | with_reducible apply State.clampSync_keeps | with_reducible apply Keeps.ite

theorem State.multWrite_keeps {k0 : Bool} {b0 : State} {s : State} (v : Word) (hk : Keeps k0 b0 s) : Keeps k0 b0 (State.multWrite s v) := by
  unfold State.multWrite
  repeat' first | with_reducible assumption | intro _ | with_reducible apply State.put_keeps | with_reducible apply State.pllWander_keeps | with_reducible apply State.wr_keeps | with_reducible apply State.setClk_keeps | with_reducible apply State.pllRestart_keeps | with_reducible apply Keeps.ite | with_reducible rfl | split | with_reducible apply Keeps.mk1

theorem State.mdenWrite_keeps {k0 : Bool} {b0 : State} {s : State} (v : Word) (hk : Keeps k0 b0 s) : Keeps k0 b0 (State.mdenWrite s v) := by
  unfold State.mdenWrite
  repeat' first | with_reducible assumption | intro _ | with_reducible apply State.put_keeps | with_reducible apply Keeps.ite

theorem State.retuneStep_keeps {k0 : Bool} {b0 : State} {s : State} (hk : Keeps k0 b0 s) : Keeps k0 b0 (State.retuneStep s) := by
  unfold State.retuneStep
  repeat' first | with_reducible assumption | intro _ | with_reducible apply State.setClk_keeps | with_reducible apply State.put_keeps | with_reducible apply State.clampSync_keeps | with_reducible apply Keeps.ite | with_reducible rfl | with_reducible apply Keeps.mk1

theorem State.dlyWrite_keeps {k0 : Bool} {b0 : State} {s : State} (p k : Nat) (v : Word) (hk : Keeps k0 b0 s) : Keeps k0 b0 (State.dlyWrite s p k v) := by
  unfold State.dlyWrite
  repeat' first | with_reducible assumption | intro _ | with_reducible apply State.put_keeps | with_reducible apply State.setClk_keeps | with_reducible apply Keeps.ite | with_reducible apply Keeps.ite2 | with_reducible rfl | split | with_reducible apply Keeps.mk1

theorem State.dlyArrive_keeps {k0 : Bool} {b0 : State} {s : State} (p k : Nat) (hk : Keeps k0 b0 s) : Keeps k0 b0 (State.dlyArrive s p k) := by
  unfold State.dlyArrive
  repeat' first | with_reducible assumption | intro _ | with_reducible apply State.put_keeps | with_reducible apply State.setClk_keeps | with_reducible apply Keeps.ite | with_reducible rfl | split | with_reducible apply Keeps.mk1

theorem execPllDividerWrite_keeps (m : Master) (p : Fin 2) (k : Fin 14) (v : Word) (s : State) {r0 : State} (hr : execPllDividerWrite m p k v s = .next r0) : Keeps true s r0 := by
  cases hr
  have hk := Keeps.rfl true s
  repeat' first | with_reducible assumption | intro _ | with_reducible apply State.guard_keeps | with_reducible apply State.outCfgWrite_keeps

theorem execPllMultiplierWrite_keeps (m : Master) (v : Word) (s : State) {r0 : State} (hr : execPllMultiplierWrite m v s = .next r0) : Keeps true s r0 := by
  cases hr
  have hk := Keeps.rfl true s
  repeat' first | with_reducible assumption | intro _ | with_reducible apply State.guard_keeps | with_reducible apply State.multWrite_keeps

theorem execRetuneStep_keeps (s : State) {r0 : State} (hr : execRetuneStep s = .next r0) : Keeps true s r0 := by
  cases hr
  have hk := Keeps.rfl true s
  repeat' first | with_reducible assumption | intro _ | with_reducible apply State.retuneStep_keeps

theorem execPllApply_keeps (m : Master) (s : State) {r0 : State} (hr : execPllApply m s = .next r0) : Keeps true s r0 := by
  cases hr
  have hk := Keeps.rfl true s
  repeat' first | with_reducible assumption | intro _ | with_reducible apply State.guard_keeps | with_reducible apply State.pllApply_keeps

theorem execMclkDividerBoundary_keeps (s : State) {r0 : State} (hr : execMclkDividerBoundary s = .next r0) : Keeps true s r0 := by
  cases hr
  have hk := Keeps.rfl true s
  repeat' first | with_reducible assumption | intro _ | with_reducible apply State.mclkBoundary_keeps

theorem execMclkRestart_keeps (s : State) {r0 : State} (hr : execMclkRestart s = .next r0) : Keeps true s r0 := by
  cases hr
  have hk := Keeps.rfl true s
  repeat' first | with_reducible assumption | intro _ | with_reducible apply State.mclkRestart_keeps

theorem execOutputDelayWrite_keeps (m : Master) (p : Fin 2) (k : Fin 14) (v : Word) (s : State) {r0 : State} (hr : execOutputDelayWrite m p k v s = .next r0) : Keeps true s r0 := by
  cases hr
  have hk := Keeps.rfl true s
  repeat' first | with_reducible assumption | intro _ | with_reducible apply State.guard_keeps | with_reducible apply State.dlyWrite_keeps

theorem execOutputDelayArrival_keeps (p : Fin 2) (k : Fin 14) (s : State) {r0 : State} (hr : execOutputDelayArrival p k s = .next r0) : Keeps true s r0 := by
  cases hr
  have hk := Keeps.rfl true s
  repeat' first | with_reducible assumption | intro _ | with_reducible apply State.dlyArrive_keeps

theorem execMclkEnable_keeps (m : Master) (k : Fin 4) (on : Bool) (s : State) {r0 : State} (hr : execMclkEnable m k on s = .next r0) : Keeps true s r0 := by
  cases hr
  have hk := Keeps.rfl true s
  repeat' first | with_reducible assumption | intro _ | with_reducible apply State.guard_keeps | with_reducible apply State.mclkEnable_keeps

theorem execMclkOutputStart_keeps (k : Fin 4) (s : State) {r0 : State} (hr : execMclkOutputStart k s = .next r0) : Keeps true s r0 := by
  cases hr
  have hk := Keeps.rfl true s
  repeat' first | with_reducible assumption | intro _ | with_reducible apply State.mclkStart_keeps

theorem execOchreWindowEnd_keeps (offs : List Int) (s : State) {r0 : State} (hr : execOchreWindowEnd offs s = .next r0) : Keeps true s r0 := by
  cases hr
  have hk := Keeps.rfl true s
  repeat' first | with_reducible assumption | intro _ | with_reducible apply State.ocWindow_keeps | with_reducible apply State.clampSync_keeps | with_reducible apply State.settle_keeps

theorem execReferenceLos_keeps (r : Fin 9) (s : State) {r0 : State} (hr : execReferenceLos r s = .next r0) : Keeps true s r0 := by
  cases hr
  have hk := Keeps.rfl true s
  repeat' first | with_reducible assumption | intro _ | with_reducible apply State.ocLos_keeps | with_reducible apply State.clampSync_keeps | with_reducible apply State.settle_keeps

theorem execReferenceEdgeReturn_keeps (r : Fin 9) (s : State) {r0 : State} (hr : execReferenceEdgeReturn r s = .next r0) : Keeps true s r0 := by
  cases hr
  have hk := Keeps.rfl true s
  repeat' first | with_reducible assumption | intro _ | with_reducible apply State.refEdge_keeps

theorem execOchreSecond_keeps (s : State) {r0 : State} (hr : execOchreSecond s = .next r0) : Keeps true s r0 := by
  cases hr
  have hk := Keeps.rfl true s
  repeat' first | with_reducible assumption | intro _ | with_reducible apply State.ocSecond_keeps | with_reducible apply Keeps.ite | with_reducible apply Keeps.ite2

theorem execSlewEnd_keeps (s : State) {r0 : State} (hr : execSlewEnd s = .next r0) : Keeps true s r0 := by
  cases hr
  have hk := Keeps.rfl true s
  repeat' first | with_reducible assumption | intro _ | with_reducible apply State.slewEnd_keeps | with_reducible apply State.clampSync_keeps

theorem execPhaseStep_keeps (m : Master) (v : Word) (s : State) {r0 : State} (hr : execPhaseStep m v s = .next r0) : Keeps true s r0 := by
  cases hr
  have hk := Keeps.rfl true s
  repeat' first | with_reducible assumption | intro _ | with_reducible apply State.guard_keeps | with_reducible apply State.phaseStep_keeps | with_reducible apply State.clampSync_keeps

end Sys2Proof.Machine
end

