-- ==== Sys2Proof/Laws/Keep/Epoch.lean ====
section
/-! SUPPORT. What the helpers and meanings of Machine/Epoch.lean keep. -/

namespace Sys2Proof.Machine

theorem State.setSys_keeps {k0 : Bool} {b0 : State} {s : State} (g : Sys → Sys) (hk : Keeps k0 b0 s)
    (hg : ∀ y : Sys, (g y).qt = y.qt ∧ (g y).cyc = y.cyc) : Keeps k0 b0 (s.setSys g) :=
  Keeps.mk1 hk (hg _).1 (hg _).2

theorem State.setSys_keepsF {b0 : State} {s : State} (g : Sys → Sys) (hk : Keeps false b0 s) : Keeps false b0 (s.setSys g) :=
  Keeps.mk0 hk

theorem State.famLoad_keeps {k0 : Bool} {b0 : State} {s : State} (old : Word) (hk : Keeps k0 b0 s) : Keeps k0 b0 (State.famLoad s old) := by
  unfold State.famLoad
  repeat' first | with_reducible assumption | intro _ | with_reducible apply State.pllLoad_keeps | with_reducible apply State.pllRestart_keeps | with_reducible apply State.setSys_keeps | with_reducible apply Keeps.ite | with_reducible rfl | exact ⟨rfl, rfl⟩ | split | with_reducible apply Keeps.mk1

theorem State.applyNow_keeps {k0 : Bool} {b0 : State} {s : State} (hk : Keeps k0 b0 s) : Keeps k0 b0 (State.applyNow s) := by
  unfold State.applyNow
  repeat' first | with_reducible assumption | intro _ | with_reducible apply State.applyReq_keeps | with_reducible apply State.pllLoad_keeps | with_reducible apply State.setSys_keeps | with_reducible apply State.pllRestart_keeps | with_reducible apply Keeps.ite | with_reducible rfl | exact ⟨rfl, rfl⟩ | split | with_reducible apply Keeps.mk1

theorem State.stopEngine_keeps {k0 : Bool} {b0 : State} {s : State} (e : Nat) (hk : Keeps k0 b0 s) : Keeps k0 b0 (State.stopEngine s e) := by
  unfold State.stopEngine
  repeat' first | with_reducible assumption | intro _ | with_reducible apply State.stopNow_keeps | with_reducible apply State.setEng_keeps | with_reducible apply Keeps.ite | with_reducible rfl | with_reducible apply Keeps.mk1

theorem State.causesDone_keeps {k0 : Bool} {b0 : State} {s : State} (hk : Keeps k0 b0 s) : Keeps k0 b0 (State.causesDone s) := by
  unfold State.causesDone
  repeat' first | with_reducible assumption | intro _ | with_reducible apply State.setSys_keeps | with_reducible rfl | exact ⟨rfl, rfl⟩ | with_reducible apply Keeps.mk1

theorem State.stopData_keeps {k0 : Bool} {b0 : State} {s : State} (st cause : Nat) (hk : Keeps k0 b0 s) : Keeps k0 b0 (State.stopData s st cause) := by
  unfold State.stopData
  repeat' first | with_reducible assumption | intro _ | with_reducible apply State.stopEngine_keeps | with_reducible apply State.migDrain_keeps | with_reducible apply State.portsStop_keeps | with_reducible apply State.brDrain_keeps | with_reducible apply State.vatDrain_keeps | with_reducible apply State.useSync_keeps | with_reducible apply State.takeApply_keeps | with_reducible apply State.causesDone_keeps | with_reducible apply State.setSys_keeps | with_reducible apply State.put_keeps | with_reducible apply State.famLoad_keeps | (with_reducible apply Keeps.fold) | with_reducible rfl | exact ⟨rfl, rfl⟩ | split | with_reducible apply Keeps.mk1

theorem State.reloadBoot_keeps {k0 : Bool} {b0 : State} {s : State} (hk : Keeps k0 b0 s) : Keeps k0 b0 (State.reloadBoot s) := by
  unfold State.reloadBoot
  repeat' first | with_reducible assumption | intro _ | with_reducible apply State.put_keeps | with_reducible rfl | with_reducible apply Keeps.mk1

theorem State.drainBegin_keeps {k0 : Bool} {b0 : State} {s : State} (hk : Keeps k0 b0 s) : Keeps k0 b0 (State.drainBegin s) := by
  unfold State.drainBegin
  repeat' first | with_reducible assumption | intro _ | with_reducible apply State.handoverVerify_keeps | with_reducible apply State.stopData_keeps | with_reducible apply State.reloadBoot_keeps | with_reducible apply Keeps.ite

theorem State.haltEnter_keeps {k0 : Bool} {b0 : State} {s : State} (hk : Keeps k0 b0 s) : Keeps k0 b0 (State.haltEnter s) := by
  unfold State.haltEnter
  repeat' first | with_reducible assumption | intro _ | with_reducible apply State.setSys_keeps | with_reducible apply State.stopData_keeps | with_reducible apply State.reloadBoot_keeps | with_reducible apply State.put_keeps | with_reducible apply Keeps.ite | with_reducible rfl | exact ⟨rfl, rfl⟩ | with_reducible apply Keeps.mk1

theorem State.drainCleared_keeps {k0 : Bool} {b0 : State} {s : State} (hk : Keeps k0 b0 s) : Keeps k0 b0 (State.drainCleared s) := by
  unfold State.drainCleared
  repeat' first | with_reducible assumption | intro _ | with_reducible apply State.clearEngine_keeps | with_reducible apply State.fabricZero_keeps | with_reducible apply State.setSys_keeps | with_reducible apply Keeps.ite | (with_reducible apply Keeps.fold) | with_reducible rfl | exact ⟨rfl, rfl⟩ | with_reducible apply Keeps.mk1

theorem State.epochRefuse_keeps {k0 : Bool} {b0 : State} {s : State} (e : Nat) (hk : Keeps k0 b0 s) : Keeps k0 b0 (State.epochRefuse s e) := by
  unfold State.epochRefuse
  repeat' first | with_reducible assumption | intro _ | with_reducible apply State.stopNow_keeps | with_reducible apply State.put_keeps | with_reducible apply Keeps.ite | split

theorem State.epochEngine_keeps {k0 : Bool} {b0 : State} {s : State} (e : Nat) (hk : Keeps k0 b0 s) : Keeps k0 b0 (State.epochEngine s e) := by
  unfold State.epochEngine
  repeat' first | with_reducible assumption | intro _ | with_reducible apply State.beginRun_keeps | with_reducible apply State.startNow_keeps | with_reducible apply Keeps.ite

theorem State.epochItems_keeps {k0 : Bool} {b0 : State} {s : State} (hk : Keeps k0 b0 s) : Keeps k0 b0 (State.epochItems s) := by
  unfold State.epochItems
  repeat' first | with_reducible assumption | intro _ | with_reducible apply State.brEpoch_keeps | with_reducible apply State.epochRefuse_keeps | (with_reducible apply Keeps.fold)

theorem State.epochLive_keeps {k0 : Bool} {b0 : State} {s : State} (e : Nat) (hk : Keeps k0 b0 s) : Keeps k0 b0 (State.epochLive s e) := by
  unfold State.epochLive
  repeat' first | with_reducible assumption | intro _ | with_reducible apply State.setEng_keeps | with_reducible apply State.liveLoad_keeps | with_reducible apply Keeps.ite | with_reducible rfl | with_reducible apply Keeps.mk1

theorem State.bootCommit_keeps {k0 : Bool} {b0 : State} {s : State} (hk : Keeps k0 b0 s) : Keeps k0 b0 (State.bootCommit s) := by
  unfold State.bootCommit
  repeat' first | with_reducible assumption | intro _ | with_reducible apply State.acceptReq_keeps | with_reducible apply Keeps.ite | (with_reducible apply Keeps.fold)

theorem State.bootCutoff_keeps {b0 : State} {s : State} (hk : Keeps false b0 s) : Keeps false b0 (State.bootCutoff s) := by
  unfold State.bootCutoff
  repeat' first | with_reducible assumption | intro _ | with_reducible apply State.commitCutoff_keeps | with_reducible apply Keeps.ite | with_reducible rfl | split | with_reducible apply Keeps.mk0

theorem State.bootEnd_keeps {b0 : State} {s : State} (hk : Keeps false b0 s) : Keeps false b0 (State.bootEnd s) := by
  unfold State.bootEnd
  repeat' first | with_reducible assumption | intro _ | with_reducible apply State.put_keeps | with_reducible apply State.bootCutoff_keeps | with_reducible apply Keeps.ite | (with_reducible apply Keeps.fold) | with_reducible rfl | with_reducible apply Keeps.mk0

theorem State.epochHead_keeps {b0 : State} {s : State} (hk : Keeps false b0 s) : Keeps false b0 (State.epochHead s) := by
  unfold State.epochHead
  repeat' first | with_reducible assumption | intro _ | with_reducible apply State.bootEnd_keeps | with_reducible apply State.setSys_keepsF | with_reducible apply State.put_keeps | with_reducible apply Keeps.ite | with_reducible rfl | exact ⟨rfl, rfl⟩ | with_reducible apply Keeps.mk0

theorem State.glidesEnd_keeps {k0 : Bool} {b0 : State} {s : State} (hk : Keeps k0 b0 s) : Keeps k0 b0 (State.glidesEnd s) := by
  unfold State.glidesEnd
  repeat' first | with_reducible assumption | intro _ | with_reducible rfl | with_reducible apply Keeps.mk1

theorem State.epochRoutes_keeps {k0 : Bool} {b0 : State} {s : State} (hk : Keeps k0 b0 s) : Keeps k0 b0 (State.epochRoutes s) := by
  unfold State.epochRoutes
  repeat' first | with_reducible assumption | intro _ | with_reducible apply State.epochCheck_keeps | with_reducible apply State.check_keeps | with_reducible apply Keeps.ite | with_reducible apply Keeps.ite2 | with_reducible rfl | with_reducible apply Keeps.mk1

theorem State.nbClear_keeps {k0 : Bool} {b0 : State} {s : State} (hk : Keeps k0 b0 s) : Keeps k0 b0 (State.nbClear s) := by
  unfold State.nbClear
  repeat' first | with_reducible assumption | intro _ | with_reducible apply State.setEng_keeps | with_reducible apply State.setTg_keeps | with_reducible apply State.setGrp_keeps | with_reducible apply State.setFclk_keeps | with_reducible apply State.setMic_keeps | (with_reducible apply Keeps.fold) | with_reducible rfl | with_reducible apply Keeps.mk1

theorem State.epochStart_keeps {b0 : State} {s : State} (hk : Keeps false b0 s) : Keeps false b0 (State.epochStart s) := by
  unfold State.epochStart
  repeat' first | with_reducible assumption | intro _ | with_reducible apply State.epochHead_keeps | with_reducible apply State.nbClear_keeps | with_reducible apply State.pdmTake_keeps | with_reducible apply State.setOc_keeps | with_reducible apply State.epochItems_keeps | with_reducible apply State.recomputeUse_keeps | with_reducible apply State.fabricZero_keeps | with_reducible apply State.glidesEnd_keeps | with_reducible apply State.epochRoutes_keeps | with_reducible apply State.tgEpoch_keeps | with_reducible apply State.portsEpoch_keeps | with_reducible apply State.pdmEpoch_keeps | with_reducible apply State.vatEpoch_keeps | with_reducible apply State.epochLive_keeps | with_reducible apply State.epochEngine_keeps | with_reducible apply State.clampSync_keeps | with_reducible apply State.setChime_keeps | with_reducible apply State.chimeSync_keeps | with_reducible apply State.settle_keeps | with_reducible apply Keeps.ite | (with_reducible apply Keeps.fold) | with_reducible rfl | with_reducible apply Keeps.mk0

theorem State.reepoch_keeps {k0 : Bool} {b0 : State} {s : State} (hk : Keeps k0 b0 s) : Keeps k0 b0 (State.reepoch s) := by
  unfold State.reepoch
  repeat' first | with_reducible assumption | intro _ | with_reducible apply State.setSys_keeps | with_reducible apply Keeps.ite | with_reducible rfl | exact ⟨rfl, rfl⟩ | with_reducible apply Keeps.mk1

theorem execDomainApply_keeps (m : Master) (s : State) {r0 : State} (hr : execDomainApply m s = .next r0) : Keeps true s r0 := by
  cases hr
  have hk := Keeps.rfl true s
  repeat' first | with_reducible assumption | intro _ | with_reducible apply State.guard_keeps | with_reducible apply State.applyNow_keeps

theorem execReepoch_keeps (m : Master) (s : State) {r0 : State} (hr : execReepoch m s = .next r0) : Keeps true s r0 := by
  cases hr
  have hk := Keeps.rfl true s
  repeat' first | with_reducible assumption | intro _ | with_reducible apply State.guard_keeps | with_reducible apply State.reepoch_keeps

theorem execDrainBegin_keeps (s : State) {r0 : State} (hr : execDrainBegin s = .next r0) : Keeps true s r0 := by
  cases hr
  have hk := Keeps.rfl true s
  repeat' first | with_reducible assumption | intro _ | with_reducible apply State.drainBegin_keeps

theorem execDrainClearDone_keeps (s : State) {r0 : State} (hr : execDrainClearDone s = .next r0) : Keeps true s r0 := by
  cases hr
  have hk := Keeps.rfl true s
  repeat' first | with_reducible assumption | intro _ | with_reducible apply State.drainCleared_keeps

theorem execEpochStart_keeps (s : State) {r0 : State} (hr : execEpochStart s = .next r0) : Keeps false s r0 := by
  cases hr
  have hk := Keeps.rfl false s
  repeat' first | with_reducible assumption | intro _ | with_reducible apply State.epochStart_keeps

end Sys2Proof.Machine
end

