-- ==== Sys2Proof/Laws/Keep/Clk.lean ====
section
/-! SUPPORT. What the helpers and meanings of Machine/Clk.lean keep. -/

namespace Sys2Proof.Machine

theorem State.setBoot_keeps {k0 : Bool} {b0 : State} {s : State} (g : Boot → Boot) (hk : Keeps k0 b0 s) : Keeps k0 b0 (State.setBoot s g) := by
  unfold State.setBoot
  repeat' first | with_reducible assumption | intro _ | with_reducible rfl | with_reducible apply Keeps.mk1

theorem State.bootStep_keeps {k0 : Bool} {b0 : State} {s : State} (k : Nat) (hk : Keeps k0 b0 s) : Keeps k0 b0 (State.bootStep s k) := by
  unfold State.bootStep
  repeat' first | with_reducible assumption | intro _ | with_reducible apply State.setBoot_keeps | with_reducible apply State.put_keeps | with_reducible rfl | with_reducible apply Keeps.mk1

theorem State.bootTen_keeps {k0 : Bool} {b0 : State} {s : State} (hk : Keeps k0 b0 s) : Keeps k0 b0 (State.bootTen s) := by
  unfold State.bootTen
  repeat' first | with_reducible assumption | intro _ | with_reducible apply State.bootStep_keeps | with_reducible apply State.bootCommit_keeps

theorem State.fillGroup_keeps {k0 : Bool} {b0 : State} {s : State} (ret : Bool) (g : Nat) (hk : Keeps k0 b0 s) : Keeps k0 b0 (State.fillGroup s ret g) := by
  unfold State.fillGroup
  repeat' first | with_reducible assumption | intro _ | with_reducible apply State.setGrpState_keeps | with_reducible apply State.memClear_keeps | with_reducible apply Keeps.ite | with_reducible rfl | with_reducible apply Keeps.mk1

theorem State.bootFill_keeps {k0 : Bool} {b0 : State} {s : State} (hk : Keeps k0 b0 s) : Keeps k0 b0 (State.bootFill s) := by
  unfold State.bootFill
  repeat' first | with_reducible assumption | intro _ | with_reducible apply State.fillGroup_keeps | with_reducible apply State.memClear_keeps | with_reducible apply State.vermRestore_keeps | with_reducible apply State.setBoot_keeps | with_reducible apply State.bootStep_keeps | with_reducible apply Keeps.ite | (with_reducible apply Keeps.fold) | with_reducible rfl | with_reducible apply Keeps.mk1

theorem State.spllLock_keeps {k0 : Bool} {b0 : State} {s : State} (hk : Keeps k0 b0 s) : Keeps k0 b0 (State.spllLock s) := by
  unfold State.spllLock
  repeat' first | with_reducible assumption | intro _ | with_reducible apply State.pllDeclare_keeps | with_reducible apply State.put_keeps | with_reducible apply State.pllSeek_keeps | with_reducible apply State.bootFill_keeps | with_reducible apply Keeps.ite | split

theorem State.apllLock_keeps {k0 : Bool} {b0 : State} {s : State} (hk : Keeps k0 b0 s) : Keeps k0 b0 (State.apllLock s) := by
  unfold State.apllLock
  repeat' first | with_reducible assumption | intro _ | with_reducible apply State.pllDeclare_keeps | with_reducible apply State.setSys_keeps | with_reducible apply State.ocStart_keeps | with_reducible apply State.put_keeps | with_reducible apply State.bootTen_keeps | with_reducible apply Keeps.ite | with_reducible rfl | exact ⟨rfl, rfl⟩ | with_reducible apply Keeps.mk1

theorem State.apllLoss_keeps {k0 : Bool} {b0 : State} {s : State} (hk : Keeps k0 b0 s) : Keeps k0 b0 (State.apllLoss s) := by
  unfold State.apllLoss
  repeat' first | with_reducible assumption | intro _ | with_reducible apply State.pllSeek_keeps | with_reducible apply State.put_keeps | with_reducible apply State.flog_keeps | with_reducible apply State.haltEnter_keeps | with_reducible apply Keeps.ite

theorem State.spllLoss_keeps {k0 : Bool} {b0 : State} {s : State} (hk : Keeps k0 b0 s) : Keeps k0 b0 (State.spllLoss s) := by
  unfold State.spllLoss
  repeat' first | with_reducible assumption | intro _ | with_reducible apply State.pllSeek_keeps | with_reducible apply State.put_keeps | with_reducible apply State.flog_keeps | with_reducible apply State.pllHold_keeps | with_reducible apply State.haltEnter_keeps | with_reducible apply Keeps.ite

theorem State.pllXtal_keeps {k0 : Bool} {b0 : State} {s : State} (p : Nat) (hk : Keeps k0 b0 s) : Keeps k0 b0 (State.pllXtal s p) := by
  unfold State.pllXtal
  repeat' first | with_reducible assumption | intro _ | with_reducible apply State.setIf_keeps | with_reducible apply State.pllHold_keeps | with_reducible apply Keeps.ite

theorem State.bootXtal_keeps {k0 : Bool} {b0 : State} {s : State} (hk : Keeps k0 b0 s) : Keeps k0 b0 (State.bootXtal s) := by
  unfold State.bootXtal
  repeat' first | with_reducible assumption | intro _ | with_reducible apply State.setBoot_keeps | with_reducible apply State.bootStep_keeps | with_reducible apply Keeps.ite | with_reducible rfl | with_reducible apply Keeps.mk1

theorem State.xtalLoss_keeps {k0 : Bool} {b0 : State} {s : State} (hk : Keeps k0 b0 s) : Keeps k0 b0 (State.xtalLoss s) := by
  unfold State.xtalLoss
  repeat' first | with_reducible assumption | intro _ | with_reducible apply State.put_keeps | with_reducible apply State.flog_keeps | with_reducible apply State.cntInc_keeps | with_reducible apply State.pllXtal_keeps | with_reducible apply State.haltEnter_keeps | with_reducible apply State.ocHaltNow_keeps | with_reducible apply State.bootXtal_keeps | with_reducible apply State.setChime_keeps | with_reducible apply State.chimeSync_keeps | with_reducible apply Keeps.ite | with_reducible rfl | with_reducible apply Keeps.mk1

theorem State.otpRead_keeps {k0 : Bool} {b0 : State} {s : State} (hk : Keeps k0 b0 s) : Keeps k0 b0 (State.otpRead s) := by
  unfold State.otpRead
  repeat' first | with_reducible assumption | intro _ | with_reducible apply State.put_keeps | with_reducible apply State.cntInc_keeps | with_reducible apply State.flog_keeps | with_reducible apply State.setBoot_keeps | with_reducible apply Keeps.ite | with_reducible rfl | with_reducible apply Keeps.mk1

theorem State.xtalStart_keeps {k0 : Bool} {b0 : State} {s : State} (hk : Keeps k0 b0 s) : Keeps k0 b0 (State.xtalStart s) := by
  unfold State.xtalStart
  repeat' first | with_reducible assumption | intro _ | with_reducible apply State.otpRead_keeps | with_reducible apply State.put_keeps | with_reducible apply State.flog_keeps | with_reducible apply State.setChime_keeps | with_reducible apply State.chimeSync_keeps | with_reducible apply Keeps.ite | with_reducible rfl | split | with_reducible apply Keeps.mk1

theorem State.xtalGood_keeps {k0 : Bool} {b0 : State} {s : State} (hk : Keeps k0 b0 s) : Keeps k0 b0 (State.xtalGood s) := by
  unfold State.xtalGood
  repeat' first | with_reducible assumption | intro _ | with_reducible apply State.put_keeps | with_reducible apply State.pllSeek_keeps | with_reducible apply Keeps.ite

theorem execPllLock_keeps (p : Fin 2) (s : State) {r0 : State} (hr : execPllLock p s = .next r0) : Keeps true s r0 := by
  cases hr
  have hk := Keeps.rfl true s
  repeat' first | with_reducible assumption | intro _ | with_reducible apply State.spllLock_keeps | with_reducible apply State.apllLock_keeps | with_reducible apply Keeps.ite | with_reducible apply Keeps.ite2

theorem execPllLossOfLock_keeps (p : Fin 2) (s : State) {r0 : State} (hr : execPllLossOfLock p s = .next r0) : Keeps true s r0 := by
  cases hr
  have hk := Keeps.rfl true s
  repeat' first | with_reducible assumption | intro _ | with_reducible apply State.spllLoss_keeps | with_reducible apply State.apllLoss_keeps | with_reducible apply Keeps.ite | with_reducible apply Keeps.ite2

theorem execCrystalLoss_keeps (s : State) {r0 : State} (hr : execCrystalLoss s = .next r0) : Keeps true s r0 := by
  cases hr
  have hk := Keeps.rfl true s
  repeat' first | with_reducible assumption | intro _ | with_reducible apply State.xtalLoss_keeps

theorem execCrystalGood_keeps (s : State) {r0 : State} (hr : execCrystalGood s = .next r0) : Keeps true s r0 := by
  cases hr
  have hk := Keeps.rfl true s
  repeat' first | with_reducible assumption | intro _ | with_reducible apply State.xtalGood_keeps

theorem execCrystalStartTimeout_keeps (s : State) {r0 : State} (hr : execCrystalStartTimeout s = .next r0) : Keeps true s r0 := by
  cases hr
  have hk := Keeps.rfl true s
  repeat' first | with_reducible assumption | intro _ | with_reducible apply State.xtalStart_keeps

end Sys2Proof.Machine
end

