-- ==== Sys2Proof/Laws/Keep/Power.lean ====
section
/-! SUPPORT. What the helpers and meanings of Machine/Power.lean keep. -/

namespace Sys2Proof.Machine

theorem State.setPwr_keeps {k0 : Bool} {b0 : State} {s : State} (d v : Nat) (hk : Keeps k0 b0 s) : Keeps k0 b0 (State.setPwr s d v) := by
  unfold State.setPwr
  repeat' first | with_reducible assumption | intro _ | with_reducible apply State.put_keeps

theorem State.goDown_keeps {k0 : Bool} {b0 : State} {s : State} (d : Nat) (hk : Keeps k0 b0 s) : Keeps k0 b0 (State.goDown s d) := by
  unfold State.goDown
  repeat' first | with_reducible assumption | intro _ | with_reducible apply State.setPwr_keeps | with_reducible apply State.setIf_keeps

theorem State.goUp_keeps {k0 : Bool} {b0 : State} {s : State} (d : Nat) (hk : Keeps k0 b0 s) : Keeps k0 b0 (State.goUp s d) := by
  unfold State.goUp
  repeat' first | with_reducible assumption | intro _ | with_reducible apply State.setBoot_keeps | with_reducible apply State.setPwr_keeps | with_reducible apply State.put_keeps | with_reducible apply Keeps.ite | (with_reducible apply Keeps.fold) | with_reducible rfl | with_reducible apply Keeps.mk1

theorem State.powerEval_keeps {k0 : Bool} {b0 : State} {s : State} (d : Nat) (hk : Keeps k0 b0 s) : Keeps k0 b0 (State.powerEval s d) := by
  unfold State.powerEval
  repeat' first | with_reducible assumption | intro _ | with_reducible apply State.goDown_keeps | with_reducible apply State.setPwr_keeps | with_reducible apply State.goUp_keeps | with_reducible apply Keeps.ite | with_reducible rfl | split | with_reducible apply Keeps.mk1

theorem State.powerAll_keeps {k0 : Bool} {b0 : State} {s : State} (hk : Keeps k0 b0 s) : Keeps k0 b0 (State.powerAll s) := by
  unfold State.powerAll
  repeat' first | with_reducible assumption | intro _ | with_reducible apply State.powerEval_keeps | (with_reducible apply Keeps.fold)

theorem State.pwrReqWrite_keeps {k0 : Bool} {b0 : State} {s : State} (v : Word) (hk : Keeps k0 b0 s) : Keeps k0 b0 (State.pwrReqWrite s v) := by
  unfold State.pwrReqWrite
  repeat' first | with_reducible assumption | intro _ | with_reducible apply State.wr_keeps | with_reducible apply State.powerAll_keeps

theorem State.teUp_keeps {k0 : Bool} {b0 : State} {s : State} (ret : Bool) (e : Nat) (hk : Keeps k0 b0 s) : Keeps k0 b0 (State.teUp s ret e) := by
  unfold State.teUp
  repeat' first | with_reducible assumption | intro _ | with_reducible apply State.put_keeps | with_reducible apply State.regClear_keeps | with_reducible apply State.memClear_keeps | with_reducible apply State.setEng_keeps | with_reducible apply Keeps.ite | with_reducible rfl | with_reducible apply Keeps.mk1

theorem State.igUp_keeps {k0 : Bool} {b0 : State} {s : State} (c : Nat) (hk : Keeps k0 b0 s) : Keeps k0 b0 (State.igUp s c) := by
  unfold State.igUp
  repeat' first | with_reducible assumption | intro _ | with_reducible apply State.memClear_keeps | with_reducible apply State.setCore_keeps | with_reducible apply State.put_keeps | with_reducible rfl | with_reducible apply Keeps.mk1

theorem State.teOff_keeps {k0 : Bool} {b0 : State} {s : State} (e : Nat) (hk : Keeps k0 b0 s) : Keeps k0 b0 (State.teOff s e) := by
  unfold State.teOff
  repeat' first | with_reducible assumption | intro _ | with_reducible apply State.memClear_keeps

theorem State.igOff_keeps {k0 : Bool} {b0 : State} {s : State} (c : Nat) (hk : Keeps k0 b0 s) : Keeps k0 b0 (State.igOff s c) := by
  unfold State.igOff
  repeat' first | with_reducible assumption | intro _ | with_reducible apply State.put_keeps | with_reducible apply State.setVat_keeps | with_reducible rfl | with_reducible apply Keeps.mk1

theorem State.cut_keeps {k0 : Bool} {b0 : State} {s : State} (d v : Nat) (hk : Keeps k0 b0 s) : Keeps k0 b0 (State.cut s d v) := by
  unfold State.cut
  repeat' first | with_reducible assumption | intro _ | with_reducible apply State.setPwr_keeps | with_reducible apply State.teOff_keeps | with_reducible apply State.igOff_keeps | with_reducible apply Keeps.ite | (with_reducible apply Keeps.fold)

theorem State.pllsOff_keeps {k0 : Bool} {b0 : State} {s : State} (hk : Keeps k0 b0 s) : Keeps k0 b0 (State.pllsOff s) := by
  unfold State.pllsOff
  repeat' first | with_reducible assumption | intro _ | with_reducible apply State.pllHold_keeps | with_reducible apply State.ocHaltNow_keeps | with_reducible apply State.setSys_keeps | with_reducible rfl | exact ⟨rfl, rfl⟩ | with_reducible apply Keeps.mk1

theorem State.domainDown_keeps {k0 : Bool} {b0 : State} {s : State} (d : Nat) (hk : Keeps k0 b0 s) : Keeps k0 b0 (State.domainDown s d) := by
  unfold State.domainDown
  repeat' first | with_reducible assumption | intro _ | with_reducible apply State.cut_keeps | with_reducible apply State.powerEval_keeps | with_reducible apply Keeps.ite | split

theorem State.pd1Down_keeps {k0 : Bool} {b0 : State} {s : State} (hk : Keeps k0 b0 s) : Keeps k0 b0 (State.pd1Down s) := by
  unfold State.pd1Down
  repeat' first | with_reducible assumption | intro _ | with_reducible apply State.pllsOff_keeps | with_reducible apply State.setPwr_keeps | with_reducible apply State.setBoot_keeps | with_reducible apply Keeps.ite | with_reducible rfl | split | with_reducible apply Keeps.mk1

theorem State.bootFresh_keeps {k0 : Bool} {b0 : State} {s : State} (k ph : Nat) (hk : Keeps k0 b0 s) : Keeps k0 b0 (State.bootFresh s k ph) := by
  unfold State.bootFresh
  repeat' first | with_reducible assumption | intro _ | with_reducible apply State.setBoot_keeps | with_reducible apply State.bootStep_keeps | with_reducible rfl | with_reducible apply Keeps.mk1

theorem State.stepNine_keeps {k0 : Bool} {b0 : State} {s : State} (hk : Keeps k0 b0 s) : Keeps k0 b0 (State.stepNine s) := by
  unfold State.stepNine
  repeat' first | with_reducible assumption | intro _ | with_reducible apply State.bootTen_keeps | with_reducible apply State.pllLoad_keeps | with_reducible apply State.pllRestart_keeps | with_reducible apply State.bootStep_keeps | with_reducible apply Keeps.ite

theorem State.stepEight_keeps {k0 : Bool} {b0 : State} {s : State} (hk : Keeps k0 b0 s) : Keeps k0 b0 (State.stepEight s) := by
  unfold State.stepEight
  repeat' first | with_reducible assumption | intro _ | with_reducible apply State.bootStep_keeps | with_reducible apply State.stepNine_keeps | with_reducible apply Keeps.ite

theorem State.pd1Up_keeps {k0 : Bool} {b0 : State} {s : State} (hk : Keeps k0 b0 s) : Keeps k0 b0 (State.pd1Up s) := by
  unfold State.pd1Up
  repeat' first | with_reducible assumption | intro _ | with_reducible apply State.otpRead_keeps | with_reducible apply State.setPwr_keeps | with_reducible apply State.wr_keeps | with_reducible apply State.put_keeps | with_reducible apply State.setClk_keeps | with_reducible apply State.bootFresh_keeps | with_reducible apply State.setBoot_keeps | with_reducible apply State.pllSeek_keeps | with_reducible apply State.powerAll_keeps | with_reducible apply Keeps.ite | (with_reducible apply Keeps.fold) | with_reducible rfl | split | with_reducible apply Keeps.mk1

theorem State.domainUp_keeps {k0 : Bool} {b0 : State} {s : State} (d : Nat) (hk : Keeps k0 b0 s) : Keeps k0 b0 (State.domainUp s d) := by
  unfold State.domainUp
  repeat' first | with_reducible assumption | intro _ | with_reducible apply State.pd1Up_keeps | with_reducible apply State.teUp_keeps | with_reducible apply State.igUp_keeps | with_reducible apply State.setBoot_keeps | with_reducible apply State.setPwr_keeps | with_reducible apply State.goDown_keeps | with_reducible apply State.powerEval_keeps | with_reducible apply Keeps.ite | (with_reducible apply Keeps.fold) | with_reducible rfl | split | with_reducible apply Keeps.mk1

theorem State.pwrCtrlWrite_keeps {k0 : Bool} {b0 : State} {s : State} (v : Word) (hk : Keeps k0 b0 s) : Keeps k0 b0 (State.pwrCtrlWrite s v) := by
  unfold State.pwrCtrlWrite
  repeat' first | with_reducible assumption | intro _ | with_reducible apply State.put_keeps | with_reducible apply State.setBoot_keeps | with_reducible apply State.setSys_keeps | with_reducible apply Keeps.ite | with_reducible rfl | exact ⟨rfl, rfl⟩ | split | with_reducible apply Keeps.mk1

theorem State.sleepEntry_keeps {k0 : Bool} {b0 : State} {s : State} (hk : Keeps k0 b0 s) : Keeps k0 b0 (State.sleepEntry s) := by
  unfold State.sleepEntry
  repeat' first | with_reducible assumption | intro _ | with_reducible apply State.stopData_keeps | with_reducible apply State.setSys_keeps | with_reducible apply State.stopNow_keeps | with_reducible apply State.setBoot_keeps | with_reducible apply State.setPwr_keeps | with_reducible apply State.goDown_keeps | with_reducible apply Keeps.ite | (with_reducible apply Keeps.fold) | with_reducible rfl | exact ⟨rfl, rfl⟩ | split | with_reducible apply Keeps.mk1

theorem State.cutAll_keeps {k0 : Bool} {b0 : State} {s : State} (hk : Keeps k0 b0 s) : Keeps k0 b0 (State.cutAll s) := by
  unfold State.cutAll
  repeat' first | with_reducible assumption | intro _ | with_reducible apply State.stopNow_keeps | with_reducible apply State.cut_keeps | (with_reducible apply Keeps.fold)

theorem State.pd1Fault_keeps {k0 : Bool} {b0 : State} {s : State} (timeout : Bool) (hk : Keeps k0 b0 s) : Keeps k0 b0 (State.pd1Fault s timeout) := by
  unfold State.pd1Fault
  repeat' first | with_reducible assumption | intro _ | with_reducible apply State.otpRead_keeps | with_reducible apply State.stopData_keeps | with_reducible apply State.cutAll_keeps | with_reducible apply State.setPwr_keeps | with_reducible apply State.pllsOff_keeps | with_reducible apply State.put_keeps | with_reducible apply State.flog_keeps | with_reducible apply State.setBoot_keeps | with_reducible apply State.setChime_keeps | with_reducible apply State.chimeSync_keeps | with_reducible apply State.settle_keeps | with_reducible apply Keeps.ite | with_reducible rfl | split | with_reducible apply Keeps.mk1

theorem State.pd1Retry_keeps {k0 : Bool} {b0 : State} {s : State} (hk : Keeps k0 b0 s) : Keeps k0 b0 (State.pd1Retry s) := by
  unfold State.pd1Retry
  repeat' first | with_reducible assumption | intro _ | with_reducible apply State.setBoot_keeps | with_reducible apply State.setPwr_keeps | with_reducible apply Keeps.ite | with_reducible rfl | with_reducible apply Keeps.mk1

theorem State.fireTherm_keeps {k0 : Bool} {b0 : State} {s : State} (hk : Keeps k0 b0 s) : Keeps k0 b0 (State.fireTherm s) := by
  unfold State.fireTherm
  repeat' first | with_reducible assumption | intro _ | with_reducible apply State.fire_keeps | with_reducible apply Keeps.ite

theorem State.parkNext_keeps {k0 : Bool} {b0 : State} {s : State} (hk : Keeps k0 b0 s) : Keeps k0 b0 (State.parkNext s) := by
  unfold State.parkNext
  repeat' first | with_reducible assumption | intro _ | with_reducible apply State.put_keeps | with_reducible apply State.flog_keeps | with_reducible apply State.fireTherm_keeps | with_reducible apply State.setBoot_keeps | with_reducible apply State.powerEval_keeps | with_reducible rfl | split | with_reducible apply Keeps.mk1

theorem State.unpark_keeps {k0 : Bool} {b0 : State} {s : State} (hk : Keeps k0 b0 s) : Keeps k0 b0 (State.unpark s) := by
  unfold State.unpark
  repeat' first | with_reducible assumption | intro _ | with_reducible apply State.put_keeps | with_reducible apply State.setBoot_keeps | with_reducible apply State.powerEval_keeps | with_reducible rfl | split | with_reducible apply Keeps.mk1

theorem State.enterSafe_keeps {k0 : Bool} {b0 : State} {s : State} (hk : Keeps k0 b0 s) : Keeps k0 b0 (State.enterSafe s) := by
  unfold State.enterSafe
  repeat' first | with_reducible assumption | intro _ | with_reducible apply State.stopData_keeps | with_reducible apply State.cutAll_keeps | with_reducible apply State.pllHold_keeps | with_reducible apply State.setSys_keeps | with_reducible apply State.put_keeps | with_reducible apply State.cntInc_keeps | with_reducible apply State.flog_keeps | with_reducible apply State.fire_keeps | with_reducible apply State.setPwr_keeps | with_reducible apply State.setBoot_keeps | with_reducible apply State.chimeSync_keeps | with_reducible apply Keeps.ite | with_reducible rfl | exact ⟨rfl, rfl⟩ | with_reducible apply Keeps.mk1

theorem State.thermRead_keeps {k0 : Bool} {b0 : State} {s : State} (t0 t1 t2 t3 : Int) (hk : Keeps k0 b0 s) : Keeps k0 b0 (State.thermRead s t0 t1 t2 t3) := by
  unfold State.thermRead
  repeat' first | with_reducible assumption | intro _ | with_reducible apply State.put_keeps | with_reducible apply State.setSys_keeps | with_reducible rfl | exact ⟨rfl, rfl⟩ | with_reducible apply Keeps.mk1

theorem State.thermWarning_keeps {k0 : Bool} {b0 : State} {s : State} (hk : Keeps k0 b0 s) : Keeps k0 b0 (State.thermWarning s) := by
  unfold State.thermWarning
  repeat' first | with_reducible assumption | intro _ | with_reducible apply State.put_keeps | with_reducible apply State.fireTherm_keeps | with_reducible apply State.flog_keeps | with_reducible apply State.setBoot_keeps | with_reducible apply Keeps.ite | with_reducible rfl | with_reducible apply Keeps.mk1

theorem State.thermEval_keeps {k0 : Bool} {b0 : State} {s : State} (t0 t1 t2 t3 : Int) (hk : Keeps k0 b0 s) : Keeps k0 b0 (State.thermEval s t0 t1 t2 t3) := by
  unfold State.thermEval
  repeat' first | with_reducible assumption | intro _ | with_reducible apply State.thermRead_keeps | with_reducible apply State.put_keeps | with_reducible apply State.thermWarning_keeps | with_reducible apply State.parkNext_keeps | with_reducible apply State.setBoot_keeps | with_reducible apply State.enterSafe_keeps | with_reducible apply State.settle_keeps | with_reducible apply Keeps.ite | with_reducible rfl | split | with_reducible apply Keeps.mk1

theorem State.parkTick_keeps {k0 : Bool} {b0 : State} {s : State} (hk : Keeps k0 b0 s) : Keeps k0 b0 (State.parkTick s) := by
  unfold State.parkTick
  repeat' first | with_reducible assumption | intro _ | with_reducible apply State.parkNext_keeps | with_reducible apply State.settle_keeps | with_reducible apply State.unpark_keeps | with_reducible apply Keeps.ite

theorem State.safeExit_keeps {k0 : Bool} {b0 : State} {s : State} (hk : Keeps k0 b0 s) : Keeps k0 b0 (State.safeExit s) := by
  unfold State.safeExit
  repeat' first | with_reducible assumption | intro _ | with_reducible apply State.ocHaltNow_keeps | with_reducible apply State.bootFresh_keeps | with_reducible apply State.bootFill_keeps | with_reducible apply State.powerAll_keeps | with_reducible apply Keeps.ite | split

theorem State.porBase_keeps {b0 : State} {s : State} (hk : Keeps false b0 s) : Keeps false b0 s.porBase :=
  ⟨hk.pend, hk.free, fun _ => ⟨List.Pairwise.nil, fun _ h => nomatch h⟩, fun k => spFilter_wf _ (hk.mem k), nofun⟩

theorem State.holdReset_keeps {b0 : State} {s : State} (vin pin : Bool) (hk : Keeps false b0 s) : Keeps false b0 (State.holdReset s vin pin) := by
  unfold State.holdReset
  repeat' first | with_reducible assumption | intro _ | with_reducible apply State.mramDone_keeps | with_reducible apply State.porBase_keeps | with_reducible apply State.setPwr_keeps | with_reducible rfl | with_reducible apply Keeps.mk0

theorem State.logScan_keeps {k0 : Bool} {b0 : State} {s : State} (hk : Keeps k0 b0 s) : Keeps k0 b0 (State.logScan s) := by
  unfold State.logScan
  repeat' first | with_reducible assumption | intro _ | with_reducible apply State.put_keeps | with_reducible apply State.ueSeen_keeps | (with_reducible apply Keeps.fold) | with_reducible rfl | with_reducible apply Keeps.mk1

theorem State.powerOn_keeps {b0 : State} {s : State} (hk : Keeps false b0 s) : Keeps false b0 (State.powerOn s) := by
  unfold State.powerOn
  repeat' first | with_reducible assumption | intro _ | with_reducible apply State.porBase_keeps | with_reducible apply State.logScan_keeps | with_reducible apply Keeps.ite

theorem State.lcRequest_keeps {k0 : Bool} {b0 : State} {s : State} (v : Word) (hk : Keeps k0 b0 s) : Keeps k0 b0 (State.lcRequest s v) := by
  unfold State.lcRequest
  repeat' first | with_reducible assumption | intro _ | with_reducible apply State.put_keeps | with_reducible apply State.wipeStart_keeps | with_reducible apply Keeps.ite | with_reducible rfl | split | with_reducible apply Keeps.mk1

theorem State.lcWrite_keeps {k0 : Bool} {b0 : State} {s : State} (m : Master) (v : Word) (hk : Keeps k0 b0 s) : Keeps k0 b0 (State.lcWrite s m v) := by
  unfold State.lcWrite
  repeat' first | with_reducible assumption | intro _ | with_reducible apply State.ok_keeps | with_reducible apply State.lcRequest_keeps | with_reducible apply State.put_keeps | with_reducible apply State.denied_keeps | with_reducible rfl | split | with_reducible apply Keeps.mk1

theorem State.otpDone_keeps {k0 : Bool} {b0 : State} {s : State} (hk : Keeps k0 b0 s) : Keeps k0 b0 (State.otpDone s) := by
  unfold State.otpDone
  repeat' first | with_reducible assumption | intro _ | with_reducible apply State.put_keeps | with_reducible apply Keeps.ite | with_reducible rfl | with_reducible apply Keeps.mk1

theorem execPowerRequest_keeps (m : Master) (v : Word) (s : State) {r0 : State} (hr : execPowerRequest m v s = .next r0) : Keeps true s r0 := by
  cases hr
  have hk := Keeps.rfl true s
  repeat' first | with_reducible assumption | intro _ | with_reducible apply State.guard_keeps | with_reducible apply State.pwrReqWrite_keeps

theorem execPd1Fault_keeps (timeout : Bool) (s : State) {r0 : State} (hr : execPd1Fault timeout s = .next r0) : Keeps true s r0 := by
  cases hr
  have hk := Keeps.rfl true s
  repeat' first | with_reducible assumption | intro _ | with_reducible apply State.pd1Fault_keeps

theorem execPd1FaultRetry_keeps (s : State) {r0 : State} (hr : execPd1FaultRetry s = .next r0) : Keeps true s r0 := by
  cases hr
  have hk := Keeps.rfl true s
  repeat' first | with_reducible assumption | intro _ | with_reducible apply State.pd1Retry_keeps

theorem execSleepRetain_keeps (m : Master) (s : State) {r0 : State} (hr : execSleepRetain m s = .next r0) : Keeps true s r0 := by
  cases hr
  have hk := Keeps.rfl true s
  repeat' first | with_reducible assumption | intro _ | with_reducible apply State.guard_keeps | with_reducible apply State.setBoot_keeps | with_reducible rfl | with_reducible apply Keeps.mk1

theorem execSleepAonOnly_keeps (m : Master) (s : State) {r0 : State} (hr : execSleepAonOnly m s = .next r0) : Keeps true s r0 := by
  cases hr
  have hk := Keeps.rfl true s
  repeat' first | with_reducible assumption | intro _ | with_reducible apply State.guard_keeps | with_reducible apply State.setBoot_keeps | with_reducible rfl | with_reducible apply Keeps.mk1

theorem execSleepEntry_keeps (s : State) {r0 : State} (hr : execSleepEntry s = .next r0) : Keeps true s r0 := by
  cases hr
  have hk := Keeps.rfl true s
  repeat' first | with_reducible assumption | intro _ | with_reducible apply State.sleepEntry_keeps

theorem execThermalEvaluation_keeps (t0 t1 t2 t3 : Int) (s : State) {r0 : State} (hr : execThermalEvaluation t0 t1 t2 t3 s = .next r0) : Keeps true s r0 := by
  cases hr
  have hk := Keeps.rfl true s
  repeat' first | with_reducible assumption | intro _ | with_reducible apply State.thermEval_keeps

theorem execParkInterval_keeps (s : State) {r0 : State} (hr : execParkInterval s = .next r0) : Keeps true s r0 := by
  cases hr
  have hk := Keeps.rfl true s
  repeat' first | with_reducible assumption | intro _ | with_reducible apply State.parkTick_keeps

theorem execSafeStateExit_keeps (s : State) {r0 : State} (hr : execSafeStateExit s = .next r0) : Keeps true s r0 := by
  cases hr
  have hk := Keeps.rfl true s
  repeat' first | with_reducible assumption | intro _ | with_reducible apply State.safeExit_keeps

theorem execVinValid_keeps (s : State) {r0 : State} (hr : execVinValid s = .next r0) : Keeps true s r0 := by
  cases hr
  have hk := Keeps.rfl true s
  repeat' first | with_reducible assumption | intro _ | with_reducible apply State.setBoot_keeps | with_reducible apply Keeps.ite | with_reducible apply Keeps.ite2 | with_reducible rfl | with_reducible apply Keeps.mk1

theorem execVinBrownOut_keeps (s : State) {r0 : State} (hr : execVinBrownOut s = .next r0) : Keeps false s r0 := by
  cases hr
  have hk := Keeps.rfl false s
  repeat' first | with_reducible assumption | intro _ | with_reducible apply State.holdReset_keeps

theorem execResetPin_keeps (asserted : Bool) (s : State) {r0 : State} (hr : execResetPin asserted s = .next r0) : Keeps false s r0 := by
  cases hr
  have hk := Keeps.rfl false s
  repeat' first | with_reducible assumption | intro _ | with_reducible apply State.holdReset_keeps | with_reducible apply State.setBoot_keeps | with_reducible apply Keeps.ite | with_reducible apply Keeps.ite2 | with_reducible rfl | with_reducible apply Keeps.mk0

theorem execPowerOnReset_keeps (s : State) {r0 : State} (hr : execPowerOnReset s = .next r0) : Keeps false s r0 := by
  cases hr
  have hk := Keeps.rfl false s
  repeat' first | with_reducible assumption | intro _ | with_reducible apply State.powerOn_keeps

theorem execLifeCycleRequest_keeps (m : Master) (v : Word) (s : State) {r0 : State} (hr : execLifeCycleRequest m v s = .next r0) : Keeps true s r0 := by
  cases hr
  have hk := Keeps.rfl true s
  repeat' first | with_reducible assumption | intro _ | with_reducible apply State.lcWrite_keeps

theorem execOtpProgrammingDone_keeps (s : State) {r0 : State} (hr : execOtpProgrammingDone s = .next r0) : Keeps true s r0 := by
  cases hr
  have hk := Keeps.rfl true s
  repeat' first | with_reducible assumption | intro _ | with_reducible apply State.otpDone_keeps

end Sys2Proof.Machine
end

