-- ==== Sys2Proof/Laws/Keep/Tick.lean ====
section
/-! SUPPORT. What the helpers and meanings of Machine/Tick.lean keep. -/

namespace Sys2Proof.Machine

theorem State.inspect_keeps {k0 : Bool} {b0 : State} {s : State} (e : Nat) (hk : Keeps k0 b0 s) : Keeps k0 b0 (State.inspect s e) := by
  unfold State.inspect
  repeat' first | with_reducible assumption | intro _ | with_reducible apply State.put_keeps | with_reducible apply State.setEng_keeps | with_reducible rfl | with_reducible apply Keeps.mk1

theorem State.capture_keeps {k0 : Bool} {b0 : State} {s : State} (e : Nat) (hk : Keeps k0 b0 s) : Keeps k0 b0 (State.capture s e) := by
  unfold State.capture
  repeat' first | with_reducible assumption | intro _ | with_reducible apply State.setEng_keeps | with_reducible apply Keeps.ite | with_reducible rfl | with_reducible apply Keeps.mk1

theorem State.twinAction_keeps {k0 : Bool} {b0 : State} {s : State} (p : Nat) (hk : Keeps k0 b0 s) : Keeps k0 b0 (State.twinAction s p) := by
  unfold State.twinAction
  repeat' first | with_reducible assumption | intro _ | with_reducible apply State.stopNow_keeps | with_reducible apply State.put_keeps | with_reducible apply State.chimePat_keeps | with_reducible rfl | split | with_reducible apply Keeps.mk1

theorem State.twinCompare_keeps {k0 : Bool} {b0 : State} {s : State} (p n : Nat) (hk : Keeps k0 b0 s) : Keeps k0 b0 (State.twinCompare s p n) := by
  unfold State.twinCompare
  repeat' first | with_reducible assumption | intro _ | with_reducible apply State.put_keeps | with_reducible apply State.fire_keeps | with_reducible apply State.cntInc_keeps | with_reducible apply State.flog_keeps | with_reducible apply State.twinAction_keeps | with_reducible apply State.useSync_keeps | with_reducible apply Keeps.ite | with_reducible rfl | split | with_reducible apply Keeps.mk1

theorem State.twinCompares_keeps {k0 : Bool} {b0 : State} {s : State} (ran : List Nat) (hk : Keeps k0 b0 s) : Keeps k0 b0 (State.twinCompares s ran) := by
  unfold State.twinCompares
  repeat' first | with_reducible assumption | intro _ | with_reducible apply State.twinCompare_keeps | with_reducible apply Keeps.ite | (with_reducible apply Keeps.fold) | with_reducible rfl | split | with_reducible apply Keeps.mk1

theorem State.emitHand_keeps {k0 : Bool} {b0 : State} {s : State} (e : Nat) (hk : Keeps k0 b0 s) : Keeps k0 b0 (State.emitHand s e) := by
  unfold State.emitHand
  repeat' first | with_reducible assumption | intro _ | with_reducible apply State.setEng_keeps | with_reducible apply State.vatOffer_keeps | with_reducible apply State.bump_keeps | with_reducible apply Keeps.ite | with_reducible apply Keeps.ite2 | (with_reducible apply Keeps.fold) | with_reducible rfl | with_reducible apply Keeps.mk1

theorem State.samples_keeps {k0 : Bool} {b0 : State} {s : State} (ds : List RDom) (hk : Keeps k0 b0 s) : Keeps k0 b0 (State.samples s ds) := by
  unfold State.samples
  repeat' first | with_reducible assumption | intro _ | with_reducible apply State.playTick_keeps | with_reducible apply State.pdmTick_keeps | with_reducible apply State.asrcTick_keeps | with_reducible apply State.captureTick_keeps | with_reducible apply State.fabric_keeps | (with_reducible apply Keeps.fold)

theorem State.inputSwap_keeps {k0 : Bool} {b0 : State} {s : State} (e : Nat) (hk : Keeps k0 b0 s) : Keeps k0 b0 (State.inputSwap s e) := by
  unfold State.inputSwap
  repeat' first | with_reducible assumption | intro _ | with_reducible apply State.setEng_keeps | with_reducible rfl | with_reducible apply Keeps.mk1

theorem State.liveLoads_keeps {k0 : Bool} {b0 : State} {s : State} (es : List Nat) (hk : Keeps k0 b0 s) : Keeps k0 b0 (State.liveLoads s es) := by
  unfold State.liveLoads
  repeat' first | with_reducible assumption | intro _ | with_reducible apply State.liveLoad_keeps | (with_reducible apply Keeps.fold)

theorem State.glideNext_keeps {k0 : Bool} {b0 : State} {s : State} (e : Nat) (hk : Keeps k0 b0 s) : Keeps k0 b0 (State.glideNext s e) := by
  unfold State.glideNext
  repeat' first | with_reducible assumption | intro _ | with_reducible apply State.glideStep_keeps | with_reducible apply Keeps.ite | with_reducible rfl | split | with_reducible apply Keeps.mk1

theorem State.exitsNow_keeps {k0 : Bool} {b0 : State} {s : State} (es : List Nat) (hk : Keeps k0 b0 s) : Keeps k0 b0 (State.exitsNow s es) := by
  unfold State.exitsNow
  repeat' first | with_reducible assumption | intro _ | with_reducible apply Keeps.ite | (with_reducible apply Keeps.fold) | with_reducible rfl | with_reducible apply Keeps.mk1

theorem State.nextRun_keeps {k0 : Bool} {b0 : State} {s : State} (e : Nat) (hk : Keeps k0 b0 s) : Keeps k0 b0 (State.nextRun s e) := by
  unfold State.nextRun
  repeat' first | with_reducible assumption | intro _ | with_reducible apply State.beginRun_keeps | with_reducible apply State.setEng_keeps | with_reducible apply Keeps.ite | with_reducible rfl | split | with_reducible apply Keeps.mk1

theorem State.runsEnd_keeps {k0 : Bool} {b0 : State} {s : State} (ran : List Nat) (hk : Keeps k0 b0 s) : Keeps k0 b0 (State.runsEnd s ran) := by
  unfold State.runsEnd
  repeat' first | with_reducible assumption | intro _ | with_reducible apply State.inspect_keeps | with_reducible apply State.capture_keeps | with_reducible apply State.emitHand_keeps | with_reducible apply State.twinCompares_keeps | (with_reducible apply Keeps.fold)

theorem State.pdmEdge_keeps {k0 : Bool} {b0 : State} {s : State} (hk : Keeps k0 b0 s) : Keeps k0 b0 (State.pdmEdge s) := by
  unfold State.pdmEdge
  repeat' first | with_reducible assumption | intro _ | with_reducible apply State.pdmTake_keeps | with_reducible apply Keeps.ite

theorem State.tickOn_keeps {k0 : Bool} {b0 : State} {s : State} (ds : List RDom) (ran : List Nat) (hk : Keeps k0 b0 s) : Keeps k0 b0 (State.tickOn s ds ran) := by
  unfold State.tickOn
  repeat' first | with_reducible assumption | intro _ | with_reducible apply State.runsEnd_keeps | with_reducible apply State.samples_keeps | with_reducible apply State.pdmEdge_keeps | with_reducible apply State.inputSwap_keeps | with_reducible apply State.liveLoads_keeps | with_reducible apply State.glideNext_keeps | with_reducible apply State.tgTick_keeps | with_reducible apply State.exitsNow_keeps | with_reducible apply State.nextRun_keeps | with_reducible apply State.chimeSync_keeps | (with_reducible apply Keeps.fold)

theorem State.tickLast_keeps {k0 : Bool} {b0 : State} {s : State} (ran : List Nat) (hk : Keeps k0 b0 s) : Keeps k0 b0 (State.tickLast s ran) := by
  unfold State.tickLast
  repeat' first | with_reducible assumption | intro _ | with_reducible apply State.inspect_keeps | with_reducible apply State.setEng_keeps | with_reducible apply State.pdmEdge_keeps | (with_reducible apply Keeps.fold) | with_reducible rfl | with_reducible apply Keeps.mk1

theorem State.tick_keeps {b0 : State} {s : State} (hk : Keeps false b0 s) : Keeps false b0 (State.tick s) := by
  unfold State.tick
  repeat' first | with_reducible assumption | intro _ | with_reducible apply State.finishRun_keeps | with_reducible apply State.setSys_keepsF | with_reducible apply State.ovrTrim_keeps | with_reducible apply State.tickLast_keeps | with_reducible apply State.tickOn_keeps | with_reducible apply State.settle_keeps | with_reducible apply Keeps.ite | (with_reducible apply Keeps.fold) | with_reducible rfl | exact ⟨rfl, rfl⟩ | split | with_reducible apply Keeps.mk0

theorem execTickBoundary_keeps (s : State) {r0 : State} (hr : execTickBoundary s = .next r0) : Keeps false s r0 := by
  cases hr
  have hk := Keeps.rfl false s
  repeat' first | with_reducible assumption | intro _ | with_reducible apply State.tick_keeps

end Sys2Proof.Machine
end

