-- ==== Sys2Proof/Laws/Keep/Bus.lean ====
section
/-! SUPPORT. What the helpers and meanings of Machine/Bus.lean keep. -/

namespace Sys2Proof.Machine

theorem State.plainWrite_keeps {k0 : Bool} {b0 : State} {s : State} (a : Nat) (v : Word) (hk : Keeps k0 b0 s) : Keeps k0 b0 (State.plainWrite s a v) := by
  unfold State.plainWrite
  repeat' first | with_reducible assumption | intro _ | with_reducible apply State.wr_keeps | with_reducible rfl | split | with_reducible apply Keeps.mk1

theorem State.setHp_keeps {k0 : Bool} {b0 : State} {s : State} (h : Nat) (g : Port → Port) (hk : Keeps k0 b0 s) : Keeps k0 b0 (State.setHp s h g) := by
  unfold State.setHp
  repeat' first | with_reducible assumption | intro _ | with_reducible rfl | with_reducible apply Keeps.mk1

theorem State.mWrite_keeps {k0 : Bool} {b0 : State} {s : State} (n : Nat) (f : State → State) (hk : Keeps k0 b0 s) (hf : ∀ t, Keeps k0 b0 t → Keeps k0 b0 (f t)) : Keeps k0 b0 (State.mWrite s n f) := by
  unfold State.mWrite
  repeat' first | with_reducible assumption | intro _ | with_reducible apply hf | with_reducible apply State.put_keeps | with_reducible apply Keeps.ite

theorem State.modeSet_keeps {k0 : Bool} {b0 : State} {s : State} (n : Nat) (on : Bool) (hk : Keeps k0 b0 s) : Keeps k0 b0 (State.modeSet s n on) := by
  unfold State.modeSet
  repeat' first | with_reducible assumption | intro _ | with_reducible apply State.put_keeps | with_reducible apply State.setHp_keeps | with_reducible apply Keeps.ite | with_reducible rfl | with_reducible apply Keeps.mk1

theorem State.modeWrite_keeps {k0 : Bool} {b0 : State} {s : State} (n : Nat) (on : Bool) (hk : Keeps k0 b0 s) : Keeps k0 b0 (State.modeWrite s n on) := by
  unfold State.modeWrite
  repeat' first | with_reducible assumption | intro _ | with_reducible apply State.setHp_keeps | with_reducible apply State.modeSet_keeps | with_reducible apply Keeps.ite | with_reducible rfl | split | with_reducible apply Keeps.mk1

theorem State.hpCfgWrite_keeps {k0 : Bool} {b0 : State} {s : State} (n : Nat) (v : Word) (hk : Keeps k0 b0 s) : Keeps k0 b0 (State.hpCfgWrite s n v) := by
  unfold State.hpCfgWrite
  repeat' first | with_reducible assumption | intro _ | with_reducible apply State.mWrite_keeps | with_reducible apply State.wr_keeps | with_reducible apply State.modeWrite_keeps | split

theorem State.goWrite_keeps {k0 : Bool} {b0 : State} {s : State} (n : Nat) (hk : Keeps k0 b0 s) : Keeps k0 b0 (State.goWrite s n) := by
  unfold State.goWrite
  repeat' first | with_reducible assumption | intro _ | with_reducible apply State.put_keeps | with_reducible apply State.setHp_keeps | with_reducible apply Keeps.ite | with_reducible rfl | split | with_reducible apply Keeps.mk1

theorem State.hdbellWrite_keeps {k0 : Bool} {b0 : State} {s : State} (m : Master) (n : Nat) (v : Word) (hk : Keeps k0 b0 s) : Keeps k0 b0 (State.hdbellWrite s m n v) := by
  unfold State.hdbellWrite
  repeat' first | with_reducible assumption | intro _ | with_reducible apply State.put_keeps | with_reducible apply Keeps.ite | split

theorem State.hpWrite_keeps {k0 : Bool} {b0 : State} {s : State} (m : Master) (a : Nat) (v : Word) (hk : Keeps k0 b0 s) : Keeps k0 b0 (State.hpWrite s m a v) := by
  unfold State.hpWrite
  repeat' first | with_reducible assumption | intro _ | with_reducible apply State.guard_keeps | with_reducible apply State.hpCfgWrite_keeps | with_reducible apply State.mWrite_keeps | with_reducible apply State.plainWrite_keeps | with_reducible apply State.goWrite_keeps | with_reducible apply State.ok_keeps | with_reducible apply State.hdbellWrite_keeps | with_reducible apply State.wr_keeps | with_reducible apply Keeps.ite | with_reducible rfl | split | with_reducible apply Keeps.mk1

theorem State.sysWrite_keeps {k0 : Bool} {b0 : State} {s : State} (m : Master) (a : Nat) (v : Word) (hk : Keeps k0 b0 s) : Keeps k0 b0 (State.sysWrite s m a v) := by
  unfold State.sysWrite
  repeat' first | with_reducible assumption | intro _ | with_reducible apply State.guard_keeps | with_reducible apply State.reepoch_keeps | with_reducible apply State.pwrReqWrite_keeps | with_reducible apply State.pwrCtrlWrite_keeps | with_reducible apply State.pllCtrlWrite_keeps | with_reducible apply State.multWrite_keeps | with_reducible apply State.mdenWrite_keeps | with_reducible apply State.outCfgWrite_keeps | with_reducible apply State.dlyWrite_keeps | with_reducible apply State.plainWrite_keeps | with_reducible apply State.clampSync_keeps | with_reducible apply State.phaseStep_keeps | with_reducible apply State.refCfgWrite_keeps | with_reducible apply State.refinWrite_keeps | with_reducible apply State.ocShow_keeps | with_reducible apply State.snapCtrlWrite_keeps | with_reducible apply State.ok_keeps | with_reducible apply Keeps.ite | split

theorem State.teWrite_keeps {k0 : Bool} {b0 : State} {s : State} (m : Master) (a : Nat) (v : Word) (hk : Keeps k0 b0 s) : Keeps k0 b0 (State.teWrite s m a v) := by
  unfold State.teWrite
  repeat' first | with_reducible assumption | intro _ | with_reducible apply State.ok_keeps | with_reducible apply State.guard_keeps | with_reducible apply State.liveWrite_keeps | with_reducible apply State.teCtrlWrite_keeps | with_reducible apply State.progLenWrite_keeps | with_reducible apply State.shWrite_keeps | with_reducible apply State.plainWrite_keeps | with_reducible apply Keeps.ite

theorem State.mdWrite_keeps {k0 : Bool} {b0 : State} {s : State} (m : Master) (a : Nat) (v : Word) (hk : Keeps k0 b0 s) : Keeps k0 b0 (State.mdWrite s m a v) := by
  unfold State.mdWrite
  repeat' first | with_reducible assumption | intro _ | with_reducible apply State.commitReq_keeps | with_reducible apply State.shWrite_keeps | with_reducible apply State.guard_keeps | with_reducible apply State.migCtrlWrite_keeps | with_reducible apply State.aliasWrite_keeps | with_reducible apply State.twinCtrlWrite_keeps | with_reducible apply State.tapWrite_keeps | with_reducible apply State.plainWrite_keeps | with_reducible apply State.applyNow_keeps | with_reducible apply State.brCfgWrite_keeps | with_reducible apply State.ok_keeps | with_reducible apply Keeps.ite

theorem State.rtWrite_keeps {k0 : Bool} {b0 : State} {s : State} (m : Master) (a : Nat) (v : Word) (hk : Keeps k0 b0 s) : Keeps k0 b0 (State.rtWrite s m a v) := by
  unfold State.rtWrite
  repeat' first | with_reducible assumption | intro _ | with_reducible apply State.actWrite_keeps | with_reducible apply State.shWrite_keeps | with_reducible apply State.ok_keeps | with_reducible apply State.tgCfgWrite_keeps | with_reducible apply State.tgStepWrite_keeps | with_reducible apply State.ovrWordWrite_keeps | with_reducible apply State.ovrSinkWrite_keeps | with_reducible apply State.plainWrite_keeps | with_reducible apply State.put_keeps | with_reducible apply Keeps.ite

theorem State.igWrite_keeps {k0 : Bool} {b0 : State} {s : State} (m : Master) (a : Nat) (v : Word) (hk : Keeps k0 b0 s) : Keeps k0 b0 (State.igWrite s m a v) := by
  unfold State.igWrite
  repeat' first | with_reducible assumption | intro _ | with_reducible apply State.ok_keeps | with_reducible apply State.dbellSet_keeps | with_reducible apply State.igGuard_keeps | with_reducible apply State.igCtrlWrite_keeps | with_reducible apply State.igDbgWrite_keeps | with_reducible apply State.plainWrite_keeps | with_reducible apply Keeps.ite

theorem State.vatWrite_keeps {k0 : Bool} {b0 : State} {s : State} (m : Master) (a : Nat) (v : Word) (hk : Keeps k0 b0 s) : Keeps k0 b0 (State.vatWrite s m a v) := by
  unfold State.vatWrite
  repeat' first | with_reducible assumption | intro _ | with_reducible apply State.ok_keeps | with_reducible apply State.vatStage_keeps | with_reducible apply State.guard_keeps | with_reducible apply State.partWrite_keeps | with_reducible apply State.fclkWrite_keeps | with_reducible apply State.plainWrite_keeps | with_reducible apply State.bufAddrWrite_keeps | with_reducible apply State.bufCfgWrite_keeps | with_reducible apply Keeps.ite

theorem State.audioWrite_keeps {k0 : Bool} {b0 : State} {s : State} (m : Master) (a : Nat) (v : Word) (hk : Keeps k0 b0 s) : Keeps k0 b0 (State.audioWrite s m a v) := by
  unfold State.audioWrite
  repeat' first | with_reducible assumption | intro _ | with_reducible apply State.guard_keeps | with_reducible apply State.tpCtrlWrite_keeps | with_reducible apply State.tpStoppedWrite_keeps | with_reducible apply State.maskWrite_keeps | with_reducible apply State.plainWrite_keeps | with_reducible apply State.pdmCtrlWrite_keeps | with_reducible apply State.pdmClkWrite_keeps | with_reducible apply State.pdmChWrite_keeps | with_reducible apply State.asrcWrite_keeps | with_reducible apply Keeps.ite | with_reducible rfl | split | with_reducible apply Keeps.mk1

theorem State.storeWrite_keeps {k0 : Bool} {b0 : State} {s : State} (m : Master) (a : Nat) (v : Word) (hk : Keeps k0 b0 s) : Keeps k0 b0 (State.storeWrite s m a v) := by
  unfold State.storeWrite
  repeat' first | with_reducible assumption | intro _ | with_reducible exact ‹Keeps _ _ _› | (change Keeps _ _ _ ; exact ‹Keeps _ _ _›) | with_reducible apply State.guard_keeps | with_reducible apply State.dmaOwnWrite_keeps | with_reducible apply State.dmaCtrlWrite_keeps | with_reducible apply State.dmaParamWrite_keeps | with_reducible apply State.plainWrite_keeps | with_reducible apply State.ok_keeps | with_reducible apply State.dmaEvt_keeps | with_reducible apply State.dmaEvtWrite_keeps | with_reducible apply State.retWrite_keeps | with_reducible apply State.cntIncWrite_keeps | with_reducible apply State.vermCtrlWrite_keeps | with_reducible apply State.wr_keeps | with_reducible apply Keeps.ite | with_reducible rfl | split | with_reducible apply Keeps.mk1

theorem State.vehWrite_keeps {k0 : Bool} {b0 : State} {s : State} (m : Master) (a : Nat) (v : Word) (hk : Keeps k0 b0 s) : Keeps k0 b0 (State.vehWrite s m a v) := by
  unfold State.vehWrite
  repeat' first | with_reducible assumption | intro _ | with_reducible apply State.lcWrite_keeps | with_reducible apply State.guard_keeps | with_reducible apply State.canCtrlWrite_keeps | with_reducible apply State.canMemWrite_keeps | with_reducible apply State.evtCfgWrite_keeps | with_reducible apply State.chimeCfgWrite_keeps | with_reducible apply State.chimeCtrlWrite_keeps | with_reducible apply State.plainWrite_keeps | with_reducible apply State.ok_keeps | with_reducible apply Keeps.ite

theorem State.regWrite_keeps {k0 : Bool} {b0 : State} {s : State} (m : Master) (a : Nat) (v : Word) (hk : Keeps k0 b0 s) : Keeps k0 b0 (State.regWrite s m a v) := by
  unfold State.regWrite
  repeat' first | with_reducible assumption | intro _ | with_reducible apply State.ok_keeps | with_reducible apply State.sysWrite_keeps | with_reducible apply State.teWrite_keeps | with_reducible apply State.mdWrite_keeps | with_reducible apply State.rtWrite_keeps | with_reducible apply State.igWrite_keeps | with_reducible apply State.vatWrite_keeps | with_reducible apply State.audioWrite_keeps | with_reducible apply State.storeWrite_keeps | with_reducible apply State.hpWrite_keeps | with_reducible apply State.vehWrite_keeps | with_reducible apply Keeps.ite | split

theorem State.latchSet_keeps {k0 : Bool} {b0 : State} {s : State} (m : Master) (a : Nat) (v : Word) (hk : Keeps k0 b0 s) : Keeps k0 b0 (State.latchSet s m a v) := by
  unfold State.latchSet
  repeat' first | with_reducible assumption | intro _ | with_reducible rfl | with_reducible apply Keeps.mk1

theorem State.rcClear_keeps {k0 : Bool} {b0 : State} {s : State} (a : Nat) (hk : Keeps k0 b0 s) : Keeps k0 b0 (State.rcClear s a) := by
  unfold State.rcClear
  repeat' first | with_reducible assumption | intro _ | with_reducible apply State.wr_keeps | with_reducible apply Keeps.ite | with_reducible rfl | split | with_reducible apply Keeps.mk1

theorem State.readNow_keeps {k0 : Bool} {b0 : State} {s : State} (a : Nat) (hk : Keeps k0 b0 s) : Keeps k0 b0 (State.readNow s a) := by
  unfold State.readNow
  repeat' first | with_reducible assumption | intro _ | with_reducible apply State.drift_keeps | with_reducible apply Keeps.ite

theorem State.regRead_keeps {k0 : Bool} {b0 : State} {s : State} (m : Master) (a : Nat) (hk : Keeps k0 b0 s) : Keeps k0 b0 (s.regRead m a) := by
  have h1 := State.ok_keeps hk
  have h0 := State.readNow_keeps a hk
  have h2 := State.ok_keeps h0
  unfold State.regRead
  refine Keeps.ite (Keeps.mk1 h1 rfl rfl) (Keeps.ite (State.cplPop_keeps _ _ hk) (Keeps.ite ?_ (Keeps.ite (Keeps.mk1 h1 rfl rfl) ?_)))
  · exact Keeps.mk1 (State.ok_keeps (State.latchSet_keeps m a (s.peek m (a + 4)) hk)) rfl rfl
  · exact State.rcClear_keeps a ⟨h2.pend, Nat.le_trans h0.free (Nat.le_succ _), h2.regs, h2.mem, h2.time⟩

theorem State.busWrite_keeps {k0 : Bool} {b0 : State} {s : State} (m : Master) (a : Nat) (v : Word) (old : Bool) (hk : Keeps k0 b0 s) : Keeps k0 b0 (State.busWrite s m a v old) := by
  unfold State.busWrite
  repeat' first | with_reducible assumption | intro _ | with_reducible apply State.regWrite_keeps | with_reducible apply State.fabWrite_keeps | with_reducible apply Keeps.ite

theorem State.busRead_keeps {k0 : Bool} {b0 : State} {s : State} (m : Master) (a : Nat) (old : Bool) (hk : Keeps k0 b0 s) :
    Keeps k0 b0 (s.busRead m a old) := by
  unfold State.busRead
  exact Keeps.ite (State.regRead_keeps _ _ hk) (State.answer_keeps (State.fabRead_keeps _ _ _ _ hk))

theorem execRegisterWrite_keeps (m : Master) (a v : Word) (size cyc : Nat) (s : State) {r0 : State} (hr : execRegisterWrite m a v size cyc s = .next r0) : Keeps false s r0 := by
  cases hr
  have hk := Keeps.rfl false s
  repeat' first | with_reducible assumption | intro _ | with_reducible apply State.atCyc_keeps | with_reducible apply State.regWrite_keeps | with_reducible apply State.settle_keeps | with_reducible apply State.ok_keeps | with_reducible apply Keeps.ite | with_reducible apply Keeps.ite2

theorem execReadToClear_keeps (m : Master) (a : Word) (s : State) {r0 : State} (hr : execReadToClear m a s = .next r0) : Keeps true s r0 := by
  cases hr
  have hk := Keeps.rfl true s
  repeat' first | with_reducible assumption | intro _ | with_reducible apply State.regRead_keeps | with_reducible apply Keeps.ite | with_reducible apply Keeps.ite2

theorem execRlLowRead_keeps (m : Master) (a : Word) (s : State) {r0 : State} (hr : execRlLowRead m a s = .next r0) : Keeps true s r0 := by
  cases hr
  have hk := Keeps.rfl true s
  repeat' first | with_reducible assumption | intro _ | with_reducible apply State.regRead_keeps | with_reducible apply Keeps.ite | with_reducible apply Keeps.ite2

theorem execGo_keeps (m : Master) (h : Fin 4) (s : State) {r0 : State} (hr : execGo m h s = .next r0) : Keeps true s r0 := by
  cases hr
  have hk := Keeps.rfl true s
  repeat' first | with_reducible assumption | intro _ | with_reducible apply State.guard_keeps | with_reducible apply State.goWrite_keeps

theorem execHostDoorbellWrite_keeps (m : Master) (h : Fin 4) (v : Word) (s : State) {r0 : State} (hr : execHostDoorbellWrite m h v s = .next r0) : Keeps true s r0 := by
  cases hr
  have hk := Keeps.rfl true s
  repeat' first | with_reducible assumption | intro _ | with_reducible apply State.ok_keeps | with_reducible apply State.hdbellWrite_keeps

theorem execMasterModeChange_keeps (m : Master) (h : Fin 4) (on : Bool) (s : State) {r0 : State} (hr : execMasterModeChange m h on s = .next r0) : Keeps true s r0 := by
  cases hr
  have hk := Keeps.rfl true s
  repeat' first | with_reducible assumption | intro _ | with_reducible apply State.guard_keeps | with_reducible apply State.mWrite_keeps | with_reducible apply State.modeWrite_keeps

end Sys2Proof.Machine
end

