-- ==== Sys2Proof/Laws/Keep/Run.lean ====
section
/-! SUPPORT. What the helpers and meanings of Machine/Run.lean keep. -/

namespace Sys2Proof.Machine

theorem State.stallEnd_keeps {k0 : Bool} {b0 : State} {s : State} (c n : Nat) (hk : Keeps k0 b0 s) : Keeps k0 b0 (State.stallEnd s c n) := by
  unfold State.stallEnd
  repeat' first | with_reducible assumption | intro _ | with_reducible apply State.igCycles_keeps | with_reducible apply Keeps.ite | split

theorem State.fldDone_keeps {k0 : Bool} {b0 : State} {s : State} (c n : Nat) (hk : Keeps k0 b0 s) : Keeps k0 b0 (State.fldDone s c n) := by
  unfold State.fldDone
  repeat' first | with_reducible assumption | intro _ | with_reducible apply State.stallEnd_keeps | with_reducible apply State.busRead_keeps | with_reducible apply State.setIf_keeps | with_reducible apply State.setCore_keeps | with_reducible apply State.igEnd_keeps | with_reducible apply Keeps.ite | with_reducible rfl | split | with_reducible apply Keeps.mk1

theorem State.fstEnd_keeps {k0 : Bool} {b0 : State} {s : State} (c n : Nat) (l : List FarWrite) (hk : Keeps k0 b0 s) : Keeps k0 b0 (State.fstEnd s c n l) := by
  unfold State.fstEnd
  repeat' first | with_reducible assumption | intro _ | with_reducible apply State.stallEnd_keeps | with_reducible apply State.setCore_keeps | with_reducible apply State.igGoOn_keeps | with_reducible apply Keeps.ite | with_reducible rfl | with_reducible apply Keeps.mk1

theorem State.fstDone_keeps {k0 : Bool} {b0 : State} {s : State} (c n : Nat) (hk : Keeps k0 b0 s) : Keeps k0 b0 (State.fstDone s c n) := by
  unfold State.fstDone
  repeat' first | with_reducible assumption | intro _ | with_reducible apply State.fstEnd_keeps | with_reducible apply State.put_keeps | with_reducible apply State.busWrite_keeps | with_reducible apply State.ok_keeps | with_reducible apply State.setCore_keeps | with_reducible apply State.setIf_keeps | with_reducible apply Keeps.ite | with_reducible rfl | split | with_reducible apply Keeps.mk1

theorem State.dmaAccess_keeps {k0 : Bool} {b0 : State} {s : State} (n : Nat) (x : DmaAcc) (hk : Keeps k0 b0 s) : Keeps k0 b0 (s.dmaAccess n x).2.2 := by
  unfold State.dmaAccess
  split
  · exact hk
  · split
    · split
      · exact hk
      · split
        · exact State.regWrite_keeps _ _ _ hk
        · exact State.regRead_keeps _ _ hk
    · split
      · exact State.fabWrite_keeps _ _ _ _ hk
      · exact State.fabRead_keeps _ _ _ _ hk

theorem State.dmaAborted_keeps {k0 : Bool} {b0 : State} {s : State} (n : Nat) (hk : Keeps k0 b0 s) : Keeps k0 b0 (State.dmaAborted s n) := by
  unfold State.dmaAborted
  repeat' first | with_reducible assumption | intro _ | with_reducible apply State.put_keeps | with_reducible apply State.dmaRest_keeps | with_reducible apply State.dmaEvt_keeps

theorem State.dmaFail_keeps {k0 : Bool} {b0 : State} {s : State} (n kind addr : Nat) (hk : Keeps k0 b0 s) : Keeps k0 b0 (State.dmaFail s n kind addr) := by
  unfold State.dmaFail
  repeat' first | with_reducible assumption | intro _ | with_reducible apply State.dmaErr_keeps | with_reducible apply State.put_keeps | with_reducible apply State.setDch_keeps | with_reducible apply Keeps.ite | with_reducible rfl | with_reducible apply Keeps.mk1

theorem State.dmaAfter_keeps {k0 : Bool} {b0 : State} {s : State} (n : Nat) (x : DmaAcc) (e : Option Nat) (b : List Byte) (hk : Keeps k0 b0 s) : Keeps k0 b0 (State.dmaAfter s n x e b) := by
  unfold State.dmaAfter
  repeat' first | with_reducible assumption | intro _ | with_reducible apply State.dmaFail_keeps | with_reducible apply State.wr_keeps | with_reducible apply State.setDch_keeps | with_reducible apply State.dmaSetDone_keeps | with_reducible apply State.dmaAborted_keeps | with_reducible apply State.setIf_keeps | with_reducible apply State.put_keeps | with_reducible apply State.dmaRest_keeps | with_reducible apply State.dmaEvt_keeps | with_reducible apply Keeps.ite | with_reducible rfl | split | with_reducible apply Keeps.mk1

theorem State.dmaVatRead_keeps {k0 : Bool} {b0 : State} {s : State} (n : Nat) (x : DmaAcc) (hk : Keeps k0 b0 s) : Keeps k0 b0 (s.dmaVatRead n x) := by
  have h2 := State.dmaFetch_keeps n x hk
  unfold State.dmaVatRead
  split
  · exact State.dmaAborted_keeps _ hk
  · split
    · rename_i he
      rw [he] at h2
      exact State.dmaErr_keeps _ _ _ h2
    · rename_i he
      rw [he] at h2
      exact State.dmaSubmit_keeps _ _ h2

theorem State.dmaData_keeps {k0 : Bool} {b0 : State} {s : State} (n : Nat) (x : DmaAcc) (hk : Keeps k0 b0 s) : Keeps k0 b0 (State.dmaData s n x) := by
  unfold State.dmaData
  repeat' first | with_reducible assumption | intro _ | with_reducible apply State.setDch_keeps | with_reducible apply State.dmaAfter_keeps | with_reducible apply State.dmaGo_keeps | with_reducible apply State.wr_keeps | with_reducible apply State.put_keeps | with_reducible apply State.dmaAccess_keeps | with_reducible apply Keeps.ite | with_reducible apply Keeps.ite2 | with_reducible rfl | with_reducible apply Keeps.mk1

theorem State.dmaComplete_keeps {k0 : Bool} {b0 : State} {s : State} (n : Nat) (hk : Keeps k0 b0 s) : Keeps k0 b0 (State.dmaComplete s n) := by
  unfold State.dmaComplete
  repeat' first | with_reducible assumption | intro _ | with_reducible apply State.dmaVatRead_keeps | with_reducible apply State.dmaGo_keeps | with_reducible apply State.dmaData_keeps | with_reducible apply State.settle_keeps | with_reducible apply Keeps.ite | with_reducible rfl | split | with_reducible apply Keeps.mk1

theorem State.dmaLink_keeps {k0 : Bool} {b0 : State} {s : State} (n d : Nat) (x : DmaAcc) (hk : Keeps k0 b0 s) : Keeps k0 b0 (s.dmaLink n d x) := by
  have h2 := State.dmaFetch_keeps n x hk
  unfold State.dmaLink
  dsimp only
  split
  · rename_i he
    rw [he] at h2
    exact State.dmaErr_keeps _ _ _ h2
  · rename_i he
    rw [he] at h2
    have h3 := fun v w => State.dmaEvt_keeps n (State.dmaRest_keeps n w (State.put_keeps (F.dmaTailAddr n) v h2))
    exact Keeps.ite (State.dmaErr_keeps _ _ _ h2) (Keeps.ite
      (State.dmaTurn_keeps _ _ (State.put_keeps _ _ (State.put_keeps _ _ h2)))
      (Keeps.ite (State.dmaTurn_keeps _ _ (State.put_keeps _ _ (h3 _ _))) (h3 _ _)))

theorem State.dmaLinkDone_keeps {k0 : Bool} {b0 : State} {s : State} (n : Nat) (hk : Keeps k0 b0 s) : Keeps k0 b0 (s.dmaLinkDone n) := by
  unfold State.dmaLinkDone
  dsimp only
  split
  · exact hk
  · exact Keeps.ite hk (Keeps.ite (State.dmaGo_keeps (State.dmaAborted_keeps _ hk)) (State.dmaGo_keeps (State.dmaLink_keeps _ _ _ hk)))

theorem State.descLoad_keeps {k0 : Bool} {b0 : State} {s : State} (n : Nat) (w : List Word) (hk : Keeps k0 b0 s) : Keeps k0 b0 (State.descLoad s n w) := by
  unfold State.descLoad
  repeat' first | with_reducible assumption | intro _ | with_reducible apply State.wr_keeps

theorem State.dmaDescDone_keeps {k0 : Bool} {b0 : State} {s : State} (n : Nat) (hk : Keeps k0 b0 s) : Keeps k0 b0 (s.dmaDescDone n) := by
  unfold State.dmaDescDone
  dsimp only
  split
  · exact hk
  · rename_i x hx
    have h2 := State.dmaFetch_keeps n x hk
    split
    · exact hk
    · split
      · exact State.dmaGo_keeps (State.dmaAborted_keeps _ hk)
      · split
        · rename_i he
          rw [he] at h2
          exact State.dmaGo_keeps (State.dmaErr_keeps _ _ _ h2)
        · rename_i he
          rw [he] at h2
          exact State.dmaGo_keeps (Keeps.ite (State.dmaErr_keeps _ _ _ h2) (State.dmaRunSet_keeps _ (State.descLoad_keeps _ _ h2)))

theorem execFldComplete_keeps (c : Timed (Fin 16)) (n : Nat) (s : State) {r0 : State} (hr : execFldComplete c n s = .next r0) : Keeps false s r0 := by
  cases hr
  have hk := Keeps.rfl false s
  repeat' first | with_reducible assumption | intro _ | with_reducible apply State.atCyc_keeps | with_reducible apply State.fldDone_keeps | with_reducible apply State.settle_keeps

theorem execFstComplete_keeps (c : Timed (Fin 16)) (n : Nat) (s : State) {r0 : State} (hr : execFstComplete c n s = .next r0) : Keeps false s r0 := by
  cases hr
  have hk := Keeps.rfl false s
  repeat' first | with_reducible assumption | intro _ | with_reducible apply State.atCyc_keeps | with_reducible apply State.fstDone_keeps | with_reducible apply State.settle_keeps

theorem execDmaAccessComplete_keeps (n : Timed (Fin 32)) (s : State) {r0 : State} (hr : execDmaAccessComplete n s = .next r0) : Keeps false s r0 := by
  cases hr
  have hk := Keeps.rfl false s
  repeat' first | with_reducible assumption | intro _ | with_reducible apply State.atCyc_keeps | with_reducible apply State.dmaComplete_keeps

theorem execDmaLinkReadDone_keeps (n : Fin 32) (s : State) {r0 : State} (hr : execDmaLinkReadDone n s = .next r0) : Keeps true s r0 := by
  cases hr
  have hk := Keeps.rfl true s
  repeat' first | with_reducible assumption | intro _ | with_reducible apply State.dmaLinkDone_keeps

theorem execDmaDescriptorLoaded_keeps (n : Fin 32) (s : State) {r0 : State} (hr : execDmaDescriptorLoaded n s = .next r0) : Keeps true s r0 := by
  cases hr
  have hk := Keeps.rfl true s
  repeat' first | with_reducible assumption | intro _ | with_reducible apply State.dmaDescDone_keeps

end Sys2Proof.Machine
end

