-- ==== Sys2Proof/Laws/Keep/Boot.lean ====
section
/-! SUPPORT. What the helpers and meanings of Machine/Boot.lean keep. -/

namespace Sys2Proof.Machine

theorem State.bootPut_keeps {k0 : Bool} {b0 : State} {s : State} (a : Nat) (v : Word) (hk : Keeps k0 b0 s) : Keeps k0 b0 (State.bootPut s a v) := by
  unfold State.bootPut
  repeat' first | with_reducible assumption | intro _ | with_reducible apply State.busWrite_keeps | with_reducible apply State.ok_keeps | with_reducible apply State.setIf_keeps | with_reducible apply State.setBoot_keeps | with_reducible apply Keeps.ite | with_reducible rfl | split | with_reducible apply Keeps.mk1

theorem State.bootWords_keeps {k0 : Bool} {b0 : State} {s : State} (a : Nat) (l : List Word) (hk : Keeps k0 b0 s) : Keeps k0 b0 (State.bootWords s a l) := by
  unfold State.bootWords
  repeat' first | with_reducible assumption | intro _ | with_reducible apply State.bootPut_keeps | (with_reducible apply Keeps.fold)

theorem State.bootPairs_keeps {k0 : Bool} {b0 : State} {s : State} (l : List (Nat × Word)) (hk : Keeps k0 b0 s) : Keeps k0 b0 (State.bootPairs s l) := by
  unfold State.bootPairs
  repeat' first | with_reducible assumption | intro _ | with_reducible apply State.bootPut_keeps | (with_reducible apply Keeps.fold)

theorem State.sectApply_keeps {k0 : Bool} {b0 : State} {s : State} (k : Nat) (x : Sect) (hk : Keeps k0 b0 s) : Keeps k0 b0 (State.sectApply s k x) := by
  unfold State.sectApply
  repeat' first | with_reducible assumption | intro _ | with_reducible apply State.put_keeps | with_reducible apply State.bootPairs_keeps | with_reducible apply State.bootWords_keeps | with_reducible apply State.setBoot_keeps | with_reducible apply Keeps.ite | (with_reducible apply Keeps.fold) | with_reducible rfl | split | with_reducible apply Keeps.mk1

theorem State.ovlPair_keeps {k0 : Bool} {b0 : State} {s : State} (e : Policy) (p : Nat × Word) (hk : Keeps k0 b0 s) : Keeps k0 b0 (State.ovlPair s e p) := by
  unfold State.ovlPair
  repeat' first | with_reducible assumption | intro _ | with_reducible apply State.put_keeps | with_reducible apply State.bootPut_keeps | with_reducible apply Keeps.ite | with_reducible apply Keeps.ite2 | split

theorem State.ovlRecord_keeps {k0 : Bool} {b0 : State} {s : State} (k : Nat) (h pay : List Byte) (hk : Keeps k0 b0 s) : Keeps k0 b0 (State.ovlRecord s k h pay) := by
  unfold State.ovlRecord
  repeat' first | with_reducible assumption | intro _ | with_reducible apply State.ovlPair_keeps | with_reducible apply Keeps.ite | (with_reducible apply Keeps.fold) | with_reducible rfl | split | with_reducible apply Keeps.mk1

theorem State.ovlScan_keeps {k0 : Bool} {b0 : State} {s : State} (k f a : Nat) (hk : Keeps k0 b0 s) : Keeps k0 b0 (s.ovlScan k f a) := by
  induction f generalizing s a with
  | zero => exact hk
  | succ f ih =>
    have h1 := State.mramBytes_keeps a 16 hk
    unfold State.ovlScan
    split
    · exact hk
    · dsimp only
      split
      · exact h1
      · refine Keeps.ite h1 (ih _ ?_)
        have h2 := fun n => State.mramBytes_keeps (a + 16) n h1
        split
        · exact Keeps.ite (h2 _) (State.ovlRecord_keeps _ _ _ (h2 _))
        · exact h2 _

theorem State.overlays_keeps {k0 : Bool} {b0 : State} {s : State} (k : Nat) (hk : Keeps k0 b0 s) : Keeps k0 b0 (State.overlays s k) := by
  unfold State.overlays
  repeat' first | with_reducible assumption | intro _ | with_reducible apply State.ovlScan_keeps | with_reducible apply Keeps.ite

theorem State.runStarts_keeps {k0 : Bool} {b0 : State} {s : State} (hk : Keeps k0 b0 s) : Keeps k0 b0 (State.runStarts s) := by
  unfold State.runStarts
  repeat' first | with_reducible assumption | intro _ | with_reducible apply State.setBoot_keeps | with_reducible apply State.bootPairs_keeps | with_reducible rfl | with_reducible apply Keeps.mk1

theorem State.staged_keeps {k0 : Bool} {b0 : State} {s : State} (k : Nat) (bytes : List Byte) (hk : Keeps k0 b0 s) : Keeps k0 b0 (State.staged s k bytes) := by
  unfold State.staged
  repeat' first | with_reducible assumption | intro _ | with_reducible apply State.draw_keeps | with_reducible apply State.conflict_keeps | with_reducible apply State.ueClear_keeps | with_reducible apply State.wbs_keeps

theorem State.permClear_keeps {k0 : Bool} {b0 : State} {s : State} (hk : Keeps k0 b0 s) : Keeps k0 b0 (State.permClear s) := by
  unfold State.permClear
  repeat' first | with_reducible assumption | intro _ | with_reducible apply State.regClear_keeps | with_reducible apply State.setBoot_keeps | with_reducible rfl | with_reducible apply Keeps.mk1

theorem State.applied_keeps {k0 : Bool} {b0 : State} {s : State} (k : Nat) (hk : Keeps k0 b0 s) : Keeps k0 b0 (State.applied s k) := by
  unfold State.applied
  repeat' first | with_reducible assumption | intro _ | with_reducible apply State.setBoot_keeps | with_reducible apply State.overlays_keeps | with_reducible apply State.runStarts_keeps | with_reducible apply State.chimeCopy_keeps | with_reducible apply State.stepEight_keeps | with_reducible apply State.bootPut_keeps | with_reducible apply Keeps.ite | with_reducible rfl | with_reducible apply Keeps.mk1

theorem State.applySects_keeps {k0 : Bool} {b0 : State} {s : State} (k : Nat) (l : List Sect) (hk : Keeps k0 b0 s) : Keeps k0 b0 (s.applySects k l) := by
  induction l generalizing s with
  | nil => exact State.applied_keeps k hk
  | cons x l ih => exact Keeps.ite (State.setBoot_keeps _ hk) (ih (State.sectApply_keeps _ _ hk))

theorem State.stageApply_keeps {k0 : Bool} {b0 : State} {s : State} (k : Nat) (l : List Sect) (hk : Keeps k0 b0 s) : Keeps k0 b0 (s.stageApply k l) :=
  State.applySects_keeps k l (State.setBoot_keeps _ hk)

theorem State.bootGo_keeps {k0 : Bool} {b0 : State} {s : State} (hk : Keeps k0 b0 s) : Keeps k0 b0 s.bootGo :=
  Keeps.ite (State.applySects_keeps _ _ hk) (Keeps.ite (State.stepEight_keeps hk) hk)

theorem State.noImage_keeps {k0 : Bool} {b0 : State} {s : State} (hk : Keeps k0 b0 s) : Keeps k0 b0 (State.noImage s) := by
  unfold State.noImage
  repeat' first | with_reducible assumption | intro _ | with_reducible apply State.put_keeps | with_reducible apply State.wr_keeps | with_reducible apply State.flog_keeps | with_reducible apply State.setBoot_keeps | with_reducible apply State.permClear_keeps | with_reducible apply State.chimeCopy_keeps | with_reducible apply State.stepEight_keeps | with_reducible rfl | with_reducible apply Keeps.mk1

theorem State.verdict_keeps {k0 : Bool} {b0 : State} {s : State} (c : Nat) (hk : Keeps k0 b0 s) : Keeps k0 b0 (State.verdict s c) := by
  unfold State.verdict
  repeat' first | with_reducible assumption | intro _ | with_reducible apply State.setBoot_keeps | with_reducible rfl | with_reducible apply Keeps.mk1

theorem State.abandon_keeps {k0 : Bool} {b0 : State} {s : State} (hk : Keeps k0 b0 s) : Keeps k0 b0 (State.abandon s) := by
  unfold State.abandon
  repeat' first | with_reducible assumption | intro _ | with_reducible apply State.put_keeps | with_reducible apply State.flog_keeps | with_reducible apply State.verdict_keeps | with_reducible apply State.noImage_keeps | with_reducible apply State.setBoot_keeps | with_reducible apply Keeps.ite | with_reducible rfl | with_reducible apply Keeps.mk1

theorem State.readFail_keeps {k0 : Bool} {b0 : State} {s : State} (hk : Keeps k0 b0 s) : Keeps k0 b0 (State.readFail s) := by
  unfold State.readFail
  repeat' first | with_reducible assumption | intro _ | with_reducible apply State.bump_keeps | with_reducible apply State.abandon_keeps | with_reducible apply State.setBoot_keeps | with_reducible apply Keeps.ite | with_reducible rfl | with_reducible apply Keeps.mk1

theorem State.stage0_keeps {k0 : Bool} {b0 : State} {s : State} (all : List Byte) (l : List Sect) (auth : Nat) (hk : Keeps k0 b0 s) : Keeps k0 b0 (State.stage0 s all l auth) := by
  unfold State.stage0
  repeat' first | with_reducible assumption | intro _ | with_reducible apply State.put_keeps | with_reducible apply State.permClear_keeps | with_reducible apply State.setBoot_keeps | with_reducible apply State.stageApply_keeps | with_reducible apply Keeps.ite | with_reducible rfl | with_reducible apply Keeps.mk1

theorem State.bootFollow_keeps {k0 : Bool} {b0 : State} {s : State} (hk : Keeps k0 b0 s) : Keeps k0 b0 (State.bootFollow s) := by
  unfold State.bootFollow
  repeat' first | with_reducible assumption | intro _ | with_reducible apply State.setBoot_keeps | with_reducible apply State.runStarts_keeps | with_reducible apply State.put_keeps | with_reducible apply Keeps.ite | with_reducible rfl | with_reducible apply Keeps.mk1

theorem State.warmRecord_keeps {k0 : Bool} {b0 : State} {s : State} (hk : Keeps k0 b0 s) : Keeps k0 b0 s.warmRecord.2 := by
  have h1 := State.mramBytes_keeps 0x07000000 32 hk
  have h2 := fun n => State.mramBytes_keeps 0x07001000 n h1
  unfold State.warmRecord
  dsimp only
  split
  · exact h1
  · split
    · exact h1
    · split
      · exact h2 _
      · exact h2 _

theorem State.pdMask_keeps {k0 : Bool} {b0 : State} {s : State} (hk : Keeps k0 b0 s) : Keeps k0 b0 (State.pdMask s) := by
  unfold State.pdMask
  repeat' first | with_reducible assumption | intro _ | with_reducible apply State.wr_keeps | with_reducible apply State.powerAll_keeps | split

theorem State.warmTake_keeps {k0 : Bool} {b0 : State} {s : State} (h : List Byte) (hk : Keeps k0 b0 s) : Keeps k0 b0 (State.warmTake s h) := by
  unfold State.warmTake
  repeat' first | with_reducible assumption | intro _ | with_reducible apply State.put_keeps | with_reducible apply State.cntInc_keeps | with_reducible apply State.setBoot_keeps | with_reducible apply State.pdMask_keeps | with_reducible rfl | with_reducible apply Keeps.mk1

theorem State.hdrTake_keeps {k0 : Bool} {b0 : State} {s : State} (h : List Byte) (hk : Keeps k0 b0 s) : Keeps k0 b0 (State.hdrTake s h) := by
  unfold State.hdrTake
  repeat' first | with_reducible assumption | intro _ | with_reducible apply State.setBoot_keeps | with_reducible apply State.put_keeps | with_reducible apply State.pdMask_keeps | with_reducible apply Keeps.ite | with_reducible rfl | with_reducible apply Keeps.mk1

theorem State.hdrNone_keeps {k0 : Bool} {b0 : State} {s : State} (hk : Keeps k0 b0 s) : Keeps k0 b0 (State.hdrNone s) := by
  unfold State.hdrNone
  repeat' first | with_reducible assumption | intro _ | with_reducible apply State.verdict_keeps | with_reducible apply State.noImage_keeps | with_reducible apply Keeps.ite

theorem State.hdrRead_keeps {k0 : Bool} {b0 : State} {s : State} (h : List Byte) (hk : Keeps k0 b0 s) : Keeps k0 b0 (State.hdrRead s h) := by
  unfold State.hdrRead
  repeat' first | with_reducible assumption | intro _ | with_reducible apply State.readFail_keeps | with_reducible apply State.setBoot_keeps | with_reducible apply State.hdrNone_keeps | with_reducible apply State.hdrTake_keeps | with_reducible apply Keeps.ite | with_reducible rfl | with_reducible apply Keeps.mk1

theorem State.flashEnd_keeps {k0 : Bool} {b0 : State} {s : State} (hk : Keeps k0 b0 s) : Keeps k0 b0 (State.flashEnd s) := by
  unfold State.flashEnd
  repeat' first | with_reducible assumption | intro _ | with_reducible apply State.setHp_keeps | with_reducible rfl | with_reducible apply Keeps.mk1

theorem State.headerDone_keeps {k0 : Bool} {b0 : State} {s : State} (l : List Byte) (hk : Keeps k0 b0 s) : Keeps k0 b0 (s.headerDone l) := by
  have h1 := State.warmRecord_keeps hk
  unfold State.headerDone
  refine Keeps.ite hk (Keeps.ite ?_ (Keeps.ite (State.hdrRead_keeps _ (State.warmRecord_keeps (State.flashEnd_keeps hk)))
    (State.hdrRead_keeps _ (State.flashEnd_keeps hk))))
  split
  · rename_i he
    rw [he] at h1
    exact State.warmTake_keeps _ h1
  · rename_i he
    rw [he] at h1
    exact State.setBoot_keeps _ h1

theorem State.sameAsRecord_keeps {k0 : Bool} {b0 : State} {s : State} (all : List Byte) (hk : Keeps k0 b0 s) : Keeps k0 b0 (State.sameAsRecord s all).2 := by
  unfold State.sameAsRecord
  repeat' first | with_reducible assumption | intro _ | with_reducible apply State.mramBytes_keeps

theorem State.stageCheck_keeps {k0 : Bool} {b0 : State} {s : State} (k : Nat) (bytes : List Byte) (hk : Keeps k0 b0 s) : Keeps k0 b0 (State.stageCheck s k bytes) := by
  unfold State.stageCheck
  repeat' first | with_reducible assumption | intro _ | with_reducible apply State.readFail_keeps | with_reducible apply State.put_keeps | with_reducible apply State.verdict_keeps | with_reducible apply State.sameAsRecord_keeps | with_reducible apply State.noImage_keeps | with_reducible apply State.abandon_keeps | with_reducible apply State.stage0_keeps | with_reducible apply State.stageApply_keeps | with_reducible apply Keeps.ite | with_reducible apply Keeps.ite2 | with_reducible rfl | split | with_reducible apply Keeps.mk1

theorem State.stageDone_keeps {k0 : Bool} {b0 : State} {s : State} (l : List Byte) (hk : Keeps k0 b0 s) : Keeps k0 b0 (s.stageDone l) := by
  have h0 : Keeps k0 b0 (s.setBoot (fun b => { b with memOld := 0 })) := State.setBoot_keeps _ hk
  have h1 := State.warmRecord_keeps h0
  have h2 := State.flashEnd_keeps h0
  unfold State.stageDone
  dsimp only
  refine Keeps.ite hk (Keeps.ite (State.setBoot_keeps _ hk) (Keeps.ite (State.readFail_keeps (State.fail_keeps _ h0)) (Keeps.ite ?_
    (Keeps.ite (State.stageCheck_keeps _ _ h2) (State.stageCheck_keeps _ _ (State.staged_keeps _ _ h2))))))
  split
  · rename_i he
    rw [he] at h1
    exact State.stage0_keeps _ _ _ (State.staged_keeps _ _ h1)
  · rename_i he
    rw [he] at h1
    exact State.setBoot_keeps _ h1

theorem State.retry_keeps {k0 : Bool} {b0 : State} {s : State} (hk : Keeps k0 b0 s) : Keeps k0 b0 (State.retry s) := by
  unfold State.retry
  repeat' first | with_reducible assumption | intro _ | with_reducible apply State.setBoot_keeps | with_reducible apply Keeps.ite | with_reducible rfl | with_reducible apply Keeps.mk1

theorem State.stageStart_keeps {k0 : Bool} {b0 : State} {s : State} (k : Nat) (hk : Keeps k0 b0 s) : Keeps k0 b0 (State.stageStart s k) := by
  unfold State.stageStart
  repeat' first | with_reducible assumption | intro _ | with_reducible apply State.setBoot_keeps | with_reducible apply State.put_keeps | with_reducible apply State.abandon_keeps | with_reducible apply Keeps.ite | with_reducible apply Keeps.ite2 | with_reducible rfl | with_reducible apply Keeps.mk1

theorem State.recordStart_keeps {k0 : Bool} {b0 : State} {s : State} (kind : Nat) (l : List (Nat × List Byte)) (hk : Keeps k0 b0 s) : Keeps k0 b0 (State.recordStart s kind l) := by
  unfold State.recordStart
  repeat' first | with_reducible assumption | intro _ | with_reducible apply State.setBoot_keeps | with_reducible apply State.recordFeed_keeps | with_reducible rfl | with_reducible apply Keeps.mk1

theorem State.bootUe_keeps {k0 : Bool} {b0 : State} {s : State} (u : Nat) (hk : Keeps k0 b0 s) : Keeps k0 b0 (State.bootUe s u) := by
  unfold State.bootUe
  repeat' first | with_reducible assumption | intro _ | with_reducible apply State.ueSeen_keeps | with_reducible rfl | with_reducible apply Keeps.mk1

theorem State.recordWrite_keeps {k0 : Bool} {b0 : State} {s : State} (hk : Keeps k0 b0 s) : Keeps k0 b0 (State.recordWrite s) := by
  unfold State.recordWrite
  repeat' first | with_reducible assumption | intro _ | with_reducible apply State.bootUe_keeps | with_reducible apply State.setBoot_keeps | with_reducible apply State.fail_keeps | with_reducible apply State.recordStart_keeps | with_reducible apply State.draw_keeps | with_reducible apply State.conflict_keeps | with_reducible apply Keeps.ite | with_reducible apply Keeps.ite2 | with_reducible rfl | split | with_reducible apply Keeps.mk1

theorem State.recordOff_keeps {k0 : Bool} {b0 : State} {s : State} (hk : Keeps k0 b0 s) : Keeps k0 b0 s.recordOff := by
  have h1 := State.mramBytes_keeps 0x07000000 8 hk
  unfold State.recordOff
  split
  · rename_i he
    rw [he] at h1
    exact State.setBoot_keeps _ h1
  · rename_i he
    rw [he] at h1
    exact Keeps.ite (State.recordStart_keeps _ _ h1) (State.setBoot_keeps _ h1)

theorem State.warmWrite_keeps {k0 : Bool} {b0 : State} {s : State} (hk : Keeps k0 b0 s) : Keeps k0 b0 (State.warmWrite s) := by
  unfold State.warmWrite
  repeat' first | with_reducible assumption | intro _ | with_reducible apply State.recordOff_keeps | with_reducible apply State.setBoot_keeps | with_reducible apply State.recordWrite_keeps | with_reducible apply Keeps.ite | with_reducible rfl | split | with_reducible apply Keeps.mk1

theorem State.verifyDone_keeps {k0 : Bool} {b0 : State} {s : State} (hk : Keeps k0 b0 s) : Keeps k0 b0 (State.verifyDone s) := by
  unfold State.verifyDone
  repeat' first | with_reducible assumption | intro _ | with_reducible apply State.put_keeps | with_reducible apply State.setBoot_keeps | with_reducible apply State.flog_keeps | with_reducible apply State.reloadBoot_keeps | with_reducible apply State.setSys_keeps | with_reducible apply Keeps.ite | with_reducible rfl | exact ⟨rfl, rfl⟩ | split | with_reducible apply Keeps.mk1

theorem execCommitApply_keeps (s : State) {r0 : State} (hr : execCommitApply s = .next r0) : Keeps true s r0 := by
  cases hr
  have hk := Keeps.rfl true s
  repeat' first | with_reducible assumption | intro _ | with_reducible apply State.commitApply_keeps | with_reducible apply State.bootFollow_keeps | with_reducible apply State.settle_keeps

theorem execPowerDomainUp_keeps (d : Fin 8) (s : State) {r0 : State} (hr : execPowerDomainUp d s = .next r0) : Keeps true s r0 := by
  cases hr
  have hk := Keeps.rfl true s
  repeat' first | with_reducible assumption | intro _ | with_reducible apply State.domainUp_keeps | with_reducible apply State.bootGo_keeps

theorem execPowerDomainDown_keeps (d : Fin 8) (s : State) {r0 : State} (hr : execPowerDomainDown d s = .next r0) : Keeps true s r0 := by
  cases hr
  have hk := Keeps.rfl true s
  repeat' first | with_reducible assumption | intro _ | with_reducible apply State.pd1Down_keeps | with_reducible apply State.domainDown_keeps | with_reducible apply State.bootGo_keeps | with_reducible apply Keeps.ite | with_reducible apply Keeps.ite2

theorem execHeaderReadDone_keeps (bytes : List Byte) (s : State) {r0 : State} (hr : execHeaderReadDone bytes s = .next r0) : Keeps true s r0 := by
  cases hr
  have hk := Keeps.rfl true s
  repeat' first | with_reducible assumption | intro _ | with_reducible apply State.headerDone_keeps | with_reducible apply State.settle_keeps

theorem execBootReadDone_keeps (x : Timed (List Byte)) (s : State) {r0 : State} (hr : execBootReadDone x s = .next r0) : Keeps false s r0 := by
  cases hr
  have hk := Keeps.rfl false s
  repeat' first | with_reducible assumption | intro _ | with_reducible apply State.atCyc_keeps | with_reducible apply State.stageDone_keeps | with_reducible apply State.settle_keeps

theorem execBootRetryBackoff_keeps (s : State) {r0 : State} (hr : execBootRetryBackoff s = .next r0) : Keeps true s r0 := by
  cases hr
  have hk := Keeps.rfl true s
  repeat' first | with_reducible assumption | intro _ | with_reducible apply State.retry_keeps

theorem execStageReadStart_keeps (k : Fin 4) (s : State) {r0 : State} (hr : execStageReadStart k s = .next r0) : Keeps true s r0 := by
  cases hr
  have hk := Keeps.rfl true s
  repeat' first | with_reducible assumption | intro _ | with_reducible apply State.stageStart_keeps

theorem execWarmStartWrite_keeps (s : State) {r0 : State} (hr : execWarmStartWrite s = .next r0) : Keeps true s r0 := by
  cases hr
  have hk := Keeps.rfl true s
  repeat' first | with_reducible assumption | intro _ | with_reducible apply State.warmWrite_keeps

theorem execWarmVerifyDone_keeps (cyc : Nat) (s : State) {r0 : State} (hr : execWarmVerifyDone cyc s = .next r0) : Keeps false s r0 := by
  cases hr
  have hk := Keeps.rfl false s
  repeat' first | with_reducible assumption | intro _ | with_reducible apply State.atCyc_keeps | with_reducible apply State.verifyDone_keeps

end Sys2Proof.Machine
end

