-- ==== Sys2Proof/Laws/Keep/Link.lean ====
section
/-! SUPPORT. What the helpers and meanings of Machine/Link.lean keep. -/

namespace Sys2Proof.Machine

theorem State.denyCount_keeps {k0 : Bool} {b0 : State} {s : State} (h : Nat) (hk : Keeps k0 b0 s) : Keeps k0 b0 (State.denyCount s h) := by
  unfold State.denyCount
  repeat' first | with_reducible assumption | intro _ | with_reducible apply State.bump_keeps | with_reducible apply State.put_keeps

theorem State.build_keeps {k0 : Bool} {b0 : State} {s : State} (h : Nat) (r : Reply) (hk : Keeps k0 b0 s) : Keeps k0 b0 (State.build s h r) := by
  unfold State.build
  repeat' first | with_reducible assumption | intro _ | with_reducible apply State.denyCount_keeps | with_reducible apply State.setHp_keeps | with_reducible apply Keeps.ite | with_reducible rfl | with_reducible apply Keeps.mk1

theorem State.frameStart_keeps {k0 : Bool} {b0 : State} {s : State} (h : Nat) (hk : Keeps k0 b0 s) : Keeps k0 b0 (State.frameStart s h) := by
  unfold State.frameStart
  repeat' first | with_reducible assumption | intro _ | with_reducible apply State.setHp_keeps | with_reducible apply Keeps.ite | with_reducible rfl | with_reducible apply Keeps.mk1

theorem State.checkCount_keeps {k0 : Bool} {b0 : State} {s : State} (h st : Nat) (hk : Keeps k0 b0 s) : Keeps k0 b0 (State.checkCount s h st) := by
  unfold State.checkCount
  repeat' first | with_reducible assumption | intro _ | with_reducible apply State.bump_keeps | with_reducible apply State.put_keeps | with_reducible apply Keeps.ite

theorem State.modeSync_keeps {k0 : Bool} {b0 : State} {s : State} (h : Nat) (hk : Keeps k0 b0 s) : Keeps k0 b0 (State.modeSync s h) := by
  unfold State.modeSync
  repeat' first | with_reducible assumption | intro _ | with_reducible apply State.modeSet_keeps | with_reducible apply Keeps.ite | with_reducible rfl | split | with_reducible apply Keeps.mk1

theorem State.shiftOut_keeps {k0 : Bool} {b0 : State} {s : State} (h n : Nat) (hk : Keeps k0 b0 s) : Keeps k0 b0 (State.shiftOut s h n) := by
  unfold State.shiftOut
  repeat' first | with_reducible assumption | intro _ | with_reducible apply State.setIf_keeps | with_reducible apply State.setHp_keeps | with_reducible apply Keeps.ite | with_reducible rfl | split | with_reducible apply Keeps.mk1

theorem State.frameTake_keeps {k0 : Bool} {b0 : State} {s : State} (h : Nat) (b : List Byte) (n : Nat) (hk : Keeps k0 b0 s) : Keeps k0 b0 (State.frameTake s h b n) := by
  unfold State.frameTake
  repeat' first | with_reducible assumption | intro _ | with_reducible apply State.checkCount_keeps | with_reducible apply State.build_keeps | with_reducible apply State.setHp_keeps | with_reducible apply Keeps.ite | with_reducible apply Keeps.ite2 | with_reducible rfl | split | with_reducible apply Keeps.mk1

theorem State.frameEnd_keeps {k0 : Bool} {b0 : State} {s : State} (h : Nat) (b : List Byte) (extra : Nat) (hk : Keeps k0 b0 s) : Keeps k0 b0 (State.frameEnd s h b extra) := by
  unfold State.frameEnd
  repeat' first | with_reducible assumption | intro _ | with_reducible apply State.setHp_keeps | with_reducible apply State.modeSync_keeps | with_reducible apply State.shiftOut_keeps | with_reducible apply State.bump_keeps | with_reducible apply State.put_keeps | with_reducible apply State.frameTake_keeps | with_reducible apply Keeps.ite | with_reducible rfl | split | with_reducible apply Keeps.mk1

theorem State.serve_keeps {k0 : Bool} {b0 : State} {s : State} (h : Nat) (w : List Word) (hk : Keeps k0 b0 s) : Keeps k0 b0 (State.serve s h w) := by
  unfold State.serve
  repeat' first | with_reducible assumption | intro _ | with_reducible apply State.setHp_keeps | with_reducible apply Keeps.ite | with_reducible rfl | split | with_reducible apply Keeps.mk1

theorem State.stop_keeps {k0 : Bool} {b0 : State} {s : State} (h tag : Nat) (data : List Word) (hk : Keeps k0 b0 s) : Keeps k0 b0 (State.stop s h tag data) := by
  unfold State.stop
  repeat' first | with_reducible assumption | intro _ | with_reducible apply State.build_keeps

theorem State.complete_keeps {k0 : Bool} {b0 : State} {s : State} (h tag : Nat) (data : List Word) (hk : Keeps k0 b0 s) : Keeps k0 b0 (State.complete s h tag data) := by
  unfold State.complete
  repeat' first | with_reducible assumption | intro _ | with_reducible apply State.build_keeps

theorem State.wakeWait_keeps {k0 : Bool} {b0 : State} {s : State} (h a : Nat) (hk : Keeps k0 b0 s) : Keeps k0 b0 (State.wakeWait s h a) := by
  unfold State.wakeWait
  repeat' first | with_reducible assumption | intro _ | with_reducible apply State.setHp_keeps | with_reducible rfl | with_reducible apply Keeps.mk1

theorem State.portTurn_keeps {b0 : State} {s : State} (h a : Nat) (hk : Keeps false b0 s) : Keeps false b0 (State.portTurn s h a) := by
  unfold State.portTurn
  repeat' first | with_reducible assumption | intro _ | with_reducible apply State.atCyc_keeps | with_reducible apply State.noteWriter_keeps | with_reducible apply Keeps.ite

theorem State.readWords_keeps {b0 : State} {s : State} (h op tag words addr n : Nat) (hk : Keeps false b0 s) :
    Keeps false b0 (s.readWords h op tag words addr n) := by
  induction n generalizing s with
  | zero => exact hk
  | succ n ih =>
    have h1 : ∀ a o, Keeps false b0 ((s.portTurn h a).busRead (hostM h) a o) := fun a o => State.busRead_keeps _ _ _ (State.portTurn_keeps _ _ hk)
    unfold State.readWords
    refine Keeps.ite (State.wakeWait_keeps _ _ hk) (Keeps.ite ?_ (State.stop_keeps _ _ _ (h1 _ _)))
    exact Keeps.ite (State.complete_keeps _ _ _ (State.serve_keeps _ _ (h1 _ _))) (ih (State.serve_keeps _ _ (h1 _ _)))

theorem State.sealFail_keeps {k0 : Bool} {b0 : State} {s : State} (h : Nat) (hk : Keeps k0 b0 s) : Keeps k0 b0 (State.sealFail s h) := by
  unfold State.sealFail
  repeat' first | with_reducible assumption | intro _ | with_reducible apply State.vermRefuse_keeps | with_reducible rfl | with_reducible apply Keeps.mk1

theorem State.writeWords_keeps {b0 : State} {s : State} (h op tag words addr : Nat) (pay : List Word) (n : Nat) (hk : Keeps false b0 s) :
    Keeps false b0 (s.writeWords h op tag words addr pay n) := by
  induction n generalizing s with
  | zero => exact hk
  | succ n ih =>
    unfold State.writeWords
    have go : ∀ t : State, Keeps false b0 t → Keeps false b0 (if words ≤ (s.hport h).served + 1 then (t.serve h []).complete h tag []
        else (t.serve h []).writeWords h op tag words addr pay n) := fun t ht =>
      Keeps.ite (State.complete_keeps _ _ _ (State.serve_keeps _ _ ht)) (ih (State.serve_keeps _ _ ht))
    refine Keeps.ite (Keeps.ite (State.stop_keeps _ _ _ (State.sealFail_keeps _ hk)) (Keeps.ite (go s hk) hk))
      (Keeps.ite (State.wakeWait_keeps _ _ hk) ?_)
    have h1 : ∀ m a v o, Keeps false b0 ((s.portTurn h (wordAddr op addr (s.hport h).served)).busWrite m a v o) :=
      fun m a v o => State.busWrite_keeps _ _ _ _ (State.portTurn_keeps _ _ hk)
    dsimp only
    split
    · exact go _ (h1 _ _ _ _)
    · exact State.setHp_keeps _ _ (h1 _ _ _ _)
    · exact State.stop_keeps _ _ _ (h1 _ _ _ _)

theorem State.rmw_keeps {b0 : State} {s : State} (h tag a : Nat) (mask val : Word) (hk : Keeps false b0 s) : Keeps false b0 (State.rmw s h tag a mask val) := by
  unfold State.rmw
  repeat' first | with_reducible assumption | intro _ | with_reducible apply State.serve_keeps | with_reducible apply State.complete_keeps | with_reducible apply State.wakeWait_keeps | with_reducible apply State.portTurn_keeps | with_reducible apply State.busRead_keeps | with_reducible apply State.stop_keeps | with_reducible apply State.busWrite_keeps | with_reducible apply State.ok_keeps | with_reducible apply State.setHp_keeps | with_reducible apply Keeps.ite | with_reducible rfl | split | with_reducible apply Keeps.mk0

theorem State.link_keeps {k0 : Bool} {b0 : State} {s : State} (h c : Nat) (f : Nat → Nat → Nat → Nat → List Word → State) (hk : Keeps k0 b0 s) (hf : ∀ y0 y1 y2 y3 y4, Keeps k0 b0 (f y0 y1 y2 y3 y4)) : Keeps k0 b0 (State.link s h c f) := by
  unfold State.link
  repeat' first | with_reducible assumption | intro _ | with_reducible apply hf | with_reducible apply State.settle_keeps | with_reducible apply Keeps.ite | with_reducible rfl | split | with_reducible apply Keeps.mk1

theorem State.linkCommit_keeps {k0 : Bool} {b0 : State} {s : State} (h tag addr : Nat) (hk : Keeps k0 b0 s) : Keeps k0 b0 (State.linkCommit s h tag addr) := by
  unfold State.linkCommit
  repeat' first | with_reducible assumption | intro _ | with_reducible apply State.commitReq_keeps | with_reducible apply State.complete_keeps | with_reducible apply State.build_keeps | with_reducible apply Keeps.ite

theorem State.linkSubmit_keeps {k0 : Bool} {b0 : State} {s : State} (h tag : Nat) (pay : List Word) (hk : Keeps k0 b0 s) : Keeps k0 b0 (State.linkSubmit s h tag pay) := by
  unfold State.linkSubmit
  repeat' first | with_reducible assumption | intro _ | with_reducible apply State.vatOffer_keeps | with_reducible apply State.build_keeps | with_reducible apply Keeps.ite | with_reducible apply Keeps.ite2

theorem State.resend_keeps {k0 : Bool} {b0 : State} {s : State} (h : Nat) (hk : Keeps k0 b0 s) : Keeps k0 b0 (State.resend s h) := by
  unfold State.resend
  repeat' first | with_reducible assumption | intro _ | with_reducible apply State.build_keeps

theorem State.replyReady_keeps {k0 : Bool} {b0 : State} {s : State} (h : Nat) (hk : Keeps k0 b0 s) : Keeps k0 b0 (State.replyReady s h) := by
  unfold State.replyReady
  repeat' first | with_reducible assumption | intro _ | with_reducible apply State.setHp_keeps | with_reducible apply State.put_keeps | with_reducible apply State.modeSync_keeps | with_reducible apply Keeps.ite | with_reducible rfl | split | with_reducible apply Keeps.mk1

theorem State.rxBits_keeps {k0 : Bool} {b0 : State} {s : State} (h n : Nat) (rx : List Word) (hk : Keeps k0 b0 s) : Keeps k0 b0 (State.rxBits s h n rx) := by
  unfold State.rxBits
  repeat' first | with_reducible assumption | intro _ | with_reducible apply State.wr_keeps | (with_reducible apply Keeps.fold)

theorem State.mmFault_keeps {k0 : Bool} {b0 : State} {s : State} (h n : Nat) (rx : List Word) (hk : Keeps k0 b0 s) : Keeps k0 b0 (State.mmFault s h n rx) := by
  unfold State.mmFault
  repeat' first | with_reducible assumption | intro _ | with_reducible apply State.put_keeps | with_reducible apply State.setHp_keeps | with_reducible apply State.readFail_keeps | with_reducible apply State.rxBits_keeps | with_reducible apply Keeps.ite | with_reducible rfl | with_reducible apply Keeps.mk1

theorem State.mStart_keeps {k0 : Bool} {b0 : State} {s : State} (h : Nat) (sel : Bool) (hk : Keeps k0 b0 s) : Keeps k0 b0 (State.mStart s h sel) := by
  unfold State.mStart
  repeat' first | with_reducible assumption | intro _ | with_reducible apply State.mmFault_keeps | with_reducible apply State.setHp_keeps | with_reducible apply Keeps.ite | with_reducible rfl | split | with_reducible apply Keeps.mk1

theorem State.mDone_keeps {k0 : Bool} {b0 : State} {s : State} (h : Nat) (rx : List Word) (hk : Keeps k0 b0 s) : Keeps k0 b0 (State.mDone s h rx) := by
  unfold State.mDone
  repeat' first | with_reducible assumption | intro _ | with_reducible apply State.rxBits_keeps | with_reducible apply State.put_keeps | with_reducible apply State.setHp_keeps | with_reducible apply Keeps.ite | with_reducible rfl | with_reducible apply Keeps.mk1

theorem execFrameStart_keeps (h : Fin 4) (s : State) {r0 : State} (hr : execFrameStart h s = .next r0) : Keeps true s r0 := by
  cases hr
  have hk := Keeps.rfl true s
  repeat' first | with_reducible assumption | intro _ | with_reducible apply State.frameStart_keeps

theorem execFrameEnd_keeps (h : Fin 4) (bits : List Byte) (extra cyc : Nat) (s : State) {r0 : State} (hr : execFrameEnd h bits extra cyc s = .next r0) : Keeps false s r0 := by
  cases hr
  have hk := Keeps.rfl false s
  repeat' first | with_reducible assumption | intro _ | with_reducible apply State.atCyc_keeps | with_reducible apply State.frameEnd_keeps

theorem execLinkNop_keeps (h : Fin 4) (s : State) {r0 : State} (hr : execLinkNop h s = .next r0) : Keeps true s r0 := by
  cases hr
  have hk := Keeps.rfl true s
  repeat' first | with_reducible assumption | intro _ | with_reducible apply State.link_keeps | with_reducible apply State.complete_keeps

theorem execLinkRead_keeps (x : Serve) (s : State) {r0 : State} (hr : execLinkRead x s = .next r0) : Keeps false s r0 := by
  cases hr
  have hk := Keeps.rfl false s
  repeat' first | with_reducible assumption | intro _ | with_reducible apply State.atCyc_keeps | with_reducible apply State.link_keeps | with_reducible apply State.readWords_keeps

theorem execLinkWrite_keeps (x : Serve) (s : State) {r0 : State} (hr : execLinkWrite x s = .next r0) : Keeps false s r0 := by
  cases hr
  have hk := Keeps.rfl false s
  repeat' first | with_reducible assumption | intro _ | with_reducible apply State.atCyc_keeps | with_reducible apply State.link_keeps | with_reducible apply State.writeWords_keeps

theorem execLinkRmw_keeps (h : Timed (Fin 4)) (s : State) {r0 : State} (hr : execLinkRmw h s = .next r0) : Keeps false s r0 := by
  cases hr
  have hk := Keeps.rfl false s
  repeat' first | with_reducible assumption | intro _ | with_reducible apply State.atCyc_keeps | with_reducible apply State.link_keeps | with_reducible apply State.rmw_keeps

theorem execLinkCommit_keeps (h : Timed (Fin 4)) (s : State) {r0 : State} (hr : execLinkCommit h s = .next r0) : Keeps false s r0 := by
  cases hr
  have hk := Keeps.rfl false s
  repeat' first | with_reducible assumption | intro _ | with_reducible apply State.atCyc_keeps | with_reducible apply State.link_keeps | with_reducible apply State.linkCommit_keeps

theorem execLinkSubmit_keeps (h : Fin 4) (s : State) {r0 : State} (hr : execLinkSubmit h s = .next r0) : Keeps true s r0 := by
  cases hr
  have hk := Keeps.rfl true s
  repeat' first | with_reducible assumption | intro _ | with_reducible apply State.link_keeps | with_reducible apply State.linkSubmit_keeps

theorem execLinkSnapArm_keeps (h : Fin 4) (s : State) {r0 : State} (hr : execLinkSnapArm h s = .next r0) : Keeps true s r0 := by
  cases hr
  have hk := Keeps.rfl true s
  repeat' first | with_reducible assumption | intro _ | with_reducible apply State.link_keeps | with_reducible apply State.snapArm_keeps | with_reducible apply State.complete_keeps | with_reducible apply Keeps.ite | with_reducible apply Keeps.ite2

theorem execLinkSnapTrigger_keeps (h : Fin 4) (s : State) {r0 : State} (hr : execLinkSnapTrigger h s = .next r0) : Keeps true s r0 := by
  cases hr
  have hk := Keeps.rfl true s
  repeat' first | with_reducible assumption | intro _ | with_reducible apply State.link_keeps | with_reducible apply State.fire_keeps | with_reducible apply State.settle_keeps | with_reducible apply State.complete_keeps | with_reducible apply Keeps.ite | with_reducible apply Keeps.ite2

theorem execLinkResend_keeps (h : Fin 4) (s : State) {r0 : State} (hr : execLinkResend h s = .next r0) : Keeps true s r0 := by
  cases hr
  have hk := Keeps.rfl true s
  repeat' first | with_reducible assumption | intro _ | with_reducible apply State.link_keeps | with_reducible apply State.resend_keeps

theorem execReplyReady_keeps (h : Fin 4) (s : State) {r0 : State} (hr : execReplyReady h s = .next r0) : Keeps true s r0 := by
  cases hr
  have hk := Keeps.rfl true s
  repeat' first | with_reducible assumption | intro _ | with_reducible apply State.replyReady_keeps

theorem execMasterFrameStart_keeps (h : Fin 4) (sel : Bool) (s : State) {r0 : State} (hr : execMasterFrameStart h sel s = .next r0) : Keeps true s r0 := by
  cases hr
  have hk := Keeps.rfl true s
  repeat' first | with_reducible assumption | intro _ | with_reducible apply State.mStart_keeps

theorem execMasterFrameDone_keeps (h : Fin 4) (rx : List Word) (s : State) {r0 : State} (hr : execMasterFrameDone h rx s = .next r0) : Keeps true s r0 := by
  cases hr
  have hk := Keeps.rfl true s
  repeat' first | with_reducible assumption | intro _ | with_reducible apply State.mDone_keeps

theorem execMmFault_keeps (x : Seen) (s : State) {r0 : State} (hr : execMmFault x s = .next r0) : Keeps true s r0 := by
  cases hr
  have hk := Keeps.rfl true s
  repeat' first | with_reducible assumption | intro _ | with_reducible apply State.mmFault_keeps

end Sys2Proof.Machine
end

