-- ==== Sys2Proof/Laws/Regs.lean ====
section
/-! SUPPORT. What a read finds after a write: sparse stores, bit fields, registers and memory. -/

namespace Sys2Proof.Machine

variable {α : Type}

/-! ## Sparse stores -/

theorem spGet_spDel (d : Nat → α) (l : List (Nat × α)) (k j : Nat) :
    spGet d (spDel k l) j = if j = k then d j else spGet d l j := by
  induction l with
  | nil => by_cases h : j = k <;> simp [spDel, spGet, h]
  | cons e l ih =>
    simp only [spDel] at ih ⊢
    by_cases he : e.1 = k
    · simp only [he, beq_self_eq_true, Bool.not_true, Bool.false_eq_true, not_false_eq_true, List.filter_cons_of_neg, ih, spGet]
      by_cases hj : j = k
      · simp [hj]
      · simp [hj, Ne.symm hj]
    · have hb : (e.1 == k) = false := by simpa using he
      simp only [List.filter_cons, hb, Bool.not_false, if_true, spGet, ih]
      by_cases hej : e.1 = j
      · have : j ≠ k := hej ▸ he
        simp [hej, this]
      · simp [hej]

theorem spGet_spPut (d : Nat → α) (l : List (Nat × α)) (k j : Nat) (x : α) :
    spGet d (spPut k x l) j = if j = k then x else spGet d l j := by
  induction l with
  | nil =>
    by_cases h : j = k
    · simp [spPut, spGet, h]
    · simp [spPut, spGet, h, Ne.symm h]
  | cons e l ih =>
    simp only [spPut]
    split
    · by_cases h : j = k
      · simp [spGet, h]
      · simp [spGet, h, Ne.symm h]
    · split
      · rename_i h1 h2
        by_cases h : j = k
        · simp [spGet, h]
        · have : e.1 ≠ j := fun c => h (c ▸ h2.symm)
          simp [spGet, h, Ne.symm h, this]
      · rename_i h1 h2
        simp only [spGet, ih]
        by_cases hej : e.1 = j
        · have : j ≠ k := fun c => h2 (c ▸ hej.symm)
          simp [hej, this]
        · simp [hej]

/-- A read after a write of a sparse store: the value written there, every other key as before. -/
theorem spGet_spSet (d : Nat → α) [DecidableEq α] (l : List (Nat × α)) (k j : Nat) (x : α) :
    spGet d (spSet d l k x) j = if j = k then x else spGet d l j := by
  unfold spSet
  split
  · rename_i h
    rw [spGet_spDel]
    split
    · rename_i hj; rw [hj, h]
    · rfl
  · exact spGet_spPut d l k j x

/-! ## Registers and memory -/

theorem State.rd_wr (s : State) (a b : Nat) (v : Word) : (s.wr a v).rd b = if b = a then v else s.rd b :=
  spGet_spSet regReset s.regs a b v

theorem State.rb_wb (s : State) (a b : Nat) (v : Byte) : (s.wb a v).rb b = if b = a then v else s.rb b :=
  spGet_spSet memDefault s.mem a b v

@[simp] theorem State.rd_wr_same (s : State) (a : Nat) (v : Word) : (s.wr a v).rd a = v := by simp [State.rd_wr]

theorem State.rd_wr_ne (s : State) {a b : Nat} (v : Word) (h : b ≠ a) : (s.wr a v).rd b = s.rd b := by simp [State.rd_wr, h]

/-- Bytes written at rising addresses, read back; every other byte as before. -/
theorem State.rb_wbs (s : State) (a b : Nat) (l : List Byte) :
    (s.wbs a l).rb b = if h : a ≤ b ∧ b < a + l.length then l[b - a]'(by omega) else s.rb b := by
  induction l generalizing s a with
  | nil => rw [dif_neg (by simp only [List.length_nil]; omega)]; rfl
  | cons x l ih =>
    simp only [State.wbs, ih, State.rb_wb, List.length_cons]
    by_cases h1 : a + 1 ≤ b ∧ b < a + 1 + l.length
    · have h2 : a ≤ b ∧ b < a + (l.length + 1) := by omega
      have h3 : b - a = (b - (a + 1)) + 1 := by omega
      rw [dif_pos h1, dif_pos h2]
      simp only [h3, List.getElem_cons_succ]
    · by_cases h2 : b = a
      · subst h2
        rw [dif_neg h1, dif_pos (by omega), if_pos rfl]
        simp only [Nat.sub_self, List.getElem_cons_zero]
      · rw [dif_neg h1, dif_neg (by omega), if_neg h2]

/-! ## Bit fields -/

theorem fieldOf_lt (x lo w : Nat) : fieldOf x lo w < 2 ^ w := Nat.mod_lt _ (Nat.two_pow_pos w)

/-- A number is its part above a field, the field, and its part below it. -/
theorem fieldOf_split (x lo w : Nat) : x = x / 2 ^ (lo + w) * 2 ^ (lo + w) + fieldOf x lo w * 2 ^ lo + x % 2 ^ lo := by
  have h1 := Nat.div_add_mod x (2 ^ lo)
  have h2 := Nat.div_add_mod (x / 2 ^ lo) (2 ^ w)
  rw [Nat.div_div_eq_div_mul, ← Nat.pow_add] at h2
  unfold fieldOf
  rw [Nat.shiftRight_eq_div_pow, Nat.pow_add]
  rw [Nat.pow_add] at h2
  generalize x / 2 ^ lo % 2 ^ w = m at *
  generalize x / (2 ^ lo * 2 ^ w) = q at *
  calc x = 2 ^ lo * (x / 2 ^ lo) + x % 2 ^ lo := h1.symm
    _ = 2 ^ lo * (2 ^ w * q + m) + x % 2 ^ lo := by rw [h2]
    _ = _ := by rw [Nat.mul_add, Nat.mul_comm (2 ^ lo) m, ← Nat.mul_assoc, Nat.mul_comm q]

theorem putField_eq (x lo w v : Nat) :
    putField x lo w v = x / 2 ^ (lo + w) * 2 ^ (lo + w) + v % 2 ^ w * 2 ^ lo + x % 2 ^ lo := by
  have h := fieldOf_split x lo w
  unfold putField
  omega

theorem fieldOf_of_parts {q m r lo w : Nat} (hm : m < 2 ^ w) (hr : r < 2 ^ lo) :
    fieldOf (q * 2 ^ (lo + w) + m * 2 ^ lo + r) lo w = m := by
  have e : q * 2 ^ (lo + w) + m * 2 ^ lo + r = r + (q * 2 ^ w + m) * 2 ^ lo := by
    rw [Nat.pow_add, Nat.add_mul, Nat.mul_assoc, Nat.mul_comm (2 ^ w)]; omega
  unfold fieldOf
  rw [Nat.shiftRight_eq_div_pow, e, Nat.add_mul_div_right _ _ (Nat.two_pow_pos lo), Nat.div_eq_of_lt hr, Nat.zero_add,
    Nat.mul_add_mod_of_lt' hm]
where
  Nat.mul_add_mod_of_lt' {q m p : Nat} (h : m < p) : (q * p + m) % p = m := by
    rw [Nat.add_comm, Nat.add_mul_mod_self_right, Nat.mod_eq_of_lt h]

/-- A field reads back what was put into it. -/
theorem fieldOf_putField (x lo w v : Nat) : fieldOf (putField x lo w v) lo w = v % 2 ^ w := by
  rw [putField_eq]
  exact fieldOf_of_parts (Nat.mod_lt _ (Nat.two_pow_pos w)) (Nat.mod_lt _ (Nat.two_pow_pos lo))

theorem testBit_putField_out (x lo w v i : Nat) (h : i < lo ∨ lo + w ≤ i) : (putField x lo w v).testBit i = x.testBit i := by
  rw [putField_eq]
  have hx := fieldOf_split x lo w
  rcases h with h | h
  · have a : ∀ m, (x / 2 ^ (lo + w) * 2 ^ (lo + w) + m * 2 ^ lo + x % 2 ^ lo) % 2 ^ lo = x % 2 ^ lo := by
      intro m
      rw [Nat.pow_add, Nat.mul_comm (2 ^ lo), ← Nat.mul_assoc, ← Nat.add_mul, Nat.add_comm, Nat.add_mul_mod_self_right, Nat.mod_mod]
    have t : ∀ y : Nat, y.testBit i = (y % 2 ^ lo).testBit i := fun y => by simp [Nat.testBit_mod_two_pow, h]
    rw [t, a, t x]
  · have b : ∀ m, m < 2 ^ w → (x / 2 ^ (lo + w) * 2 ^ (lo + w) + m * 2 ^ lo + x % 2 ^ lo) / 2 ^ (lo + w) = x / 2 ^ (lo + w) := by
      intro m hm
      have hr := Nat.mod_lt x (Nat.two_pow_pos lo)
      have : m * 2 ^ lo + x % 2 ^ lo < 2 ^ (lo + w) := by
        rw [Nat.pow_add, Nat.mul_comm (2 ^ lo)]
        calc m * 2 ^ lo + x % 2 ^ lo < m * 2 ^ lo + 2 ^ lo := by omega
          _ = (m + 1) * 2 ^ lo := by rw [Nat.add_mul, Nat.one_mul]
          _ ≤ 2 ^ w * 2 ^ lo := Nat.mul_le_mul_right _ hm
      rw [Nat.add_assoc, Nat.add_comm, Nat.add_mul_div_right _ _ (Nat.two_pow_pos _), Nat.div_eq_of_lt this, Nat.zero_add]
    have t : ∀ y : Nat, y.testBit i = (y / 2 ^ (lo + w)).testBit (i - (lo + w)) := fun y => by
      rw [← Nat.shiftRight_eq_div_pow, Nat.testBit_shiftRight]; congr 1; omega
    rw [t, b _ (Nat.mod_lt _ (Nat.two_pow_pos w)), ← t]

theorem putField_lt {x lo w v n : Nat} (hx : x < 2 ^ n) (h : lo + w ≤ n) : putField x lo w v < 2 ^ n := by
  apply Nat.lt_pow_two_of_testBit
  intro i hi
  rw [testBit_putField_out _ _ _ _ _ (Or.inr (by omega))]
  exact Nat.testBit_lt_two_pow (Nat.lt_of_lt_of_le hx (Nat.pow_le_pow_right (by omega) hi))

/-- Bits outside a field are as they were. -/
theorem fieldOf_putField_out (x lo w v lo2 w2 : Nat) (h : lo2 + w2 ≤ lo ∨ lo + w ≤ lo2) :
    fieldOf (putField x lo w v) lo2 w2 = fieldOf x lo2 w2 := by
  apply Nat.eq_of_testBit_eq
  intro i
  unfold fieldOf
  simp only [Nat.testBit_mod_two_pow, Nat.testBit_shiftRight]
  by_cases hi : i < w2
  · rw [testBit_putField_out _ _ _ _ _ (by omega)]
  · simp [hi]

/-! ## Fields of registers -/

/-- The field lies in a 32-bit register. -/
def Fld.ok (f : Fld) : Prop := f.lo + f.w ≤ 32

theorem State.put_word (s : State) (f : Fld) (v : Nat) (h : f.ok) :
    ((s.put f v).rd f.addr).toNat = putField (s.rd f.addr).toNat f.lo f.w v := by
  unfold State.put
  rw [State.rd_wr_same, BitVec.toNat_ofNat, Nat.mod_eq_of_lt (putField_lt (s.rd f.addr).isLt h)]

/-- A field reads back what was put into it. -/
theorem State.get_put (s : State) (f : Fld) (v : Nat) (h : f.ok) : (s.put f v).get f = v % 2 ^ f.w := by
  unfold State.get
  rw [State.put_word s f v h, fieldOf_putField]

theorem State.rd_put_ne (s : State) (f : Fld) (v a : Nat) (h : a ≠ f.addr) : (s.put f v).rd a = s.rd a :=
  State.rd_wr_ne s _ h

/-- A field of another register, or of other bits of the same one, is as it was. -/
theorem State.get_put_ne (s : State) (f g : Fld) (v : Nat) (hf : f.ok)
    (h : g.addr ≠ f.addr ∨ g.lo + g.w ≤ f.lo ∨ f.lo + f.w ≤ g.lo) : (s.put f v).get g = s.get g := by
  unfold State.get
  by_cases ha : g.addr = f.addr
  · rw [ha, State.put_word s f v hf]
    exact fieldOf_putField_out _ _ _ _ _ _ (h.resolve_left (fun c => c ha))
  · rw [State.rd_put_ne s f v _ ha]

end Sys2Proof.Machine
end

