-- ==== Sys2Proof/Laws/State.lean ====
section
/-! SUPPORT. What each update of the state leaves alone: one lemma for each field and update. -/

namespace Sys2Proof.Machine

variable (s : State)

/-! `State.wr` -/

@[simp] theorem State.wr_pending (a : Nat) (v : Word) : (s.wr a v).pending = s.pending := rfl
@[simp] theorem State.wr_mem (a : Nat) (v : Word) : (s.wr a v).mem = s.mem := rfl
@[simp] theorem State.wr_sys (a : Nat) (v : Word) : (s.wr a v).sys = s.sys := rfl
@[simp] theorem State.wr_te (a : Nat) (v : Word) : (s.wr a v).te = s.te := rfl
@[simp] theorem State.wr_md (a : Nat) (v : Word) : (s.wr a v).md = s.md := rfl
@[simp] theorem State.wr_mig (a : Nat) (v : Word) : (s.wr a v).mig = s.mig := rfl
@[simp] theorem State.wr_dom (a : Nat) (v : Word) : (s.wr a v).dom = s.dom := rfl
@[simp] theorem State.wr_rt (a : Nat) (v : Word) : (s.wr a v).rt = s.rt := rfl
@[simp] theorem State.wr_pdm (a : Nat) (v : Word) : (s.wr a v).pdm = s.pdm := rfl
@[simp] theorem State.wr_tp (a : Nat) (v : Word) : (s.wr a v).tp = s.tp := rfl
@[simp] theorem State.wr_asrc (a : Nat) (v : Word) : (s.wr a v).asrc = s.asrc := rfl
@[simp] theorem State.wr_sm (a : Nat) (v : Word) : (s.wr a v).sm = s.sm := rfl
@[simp] theorem State.wr_vat (a : Nat) (v : Word) : (s.wr a v).vat = s.vat := rfl
@[simp] theorem State.wr_ig (a : Nat) (v : Word) : (s.wr a v).ig = s.ig := rfl
@[simp] theorem State.wr_dma (a : Nat) (v : Word) : (s.wr a v).dma = s.dma := rfl
@[simp] theorem State.wr_chime (a : Nat) (v : Word) : (s.wr a v).chime = s.chime := rfl
@[simp] theorem State.wr_veh (a : Nat) (v : Word) : (s.wr a v).veh = s.veh := rfl
@[simp] theorem State.wr_oc (a : Nat) (v : Word) : (s.wr a v).oc = s.oc := rfl
@[simp] theorem State.wr_clk (a : Nat) (v : Word) : (s.wr a v).clk = s.clk := rfl
@[simp] theorem State.wr_boot (a : Nat) (v : Word) : (s.wr a v).boot = s.boot := rfl
@[simp] theorem State.wr_hp (a : Nat) (v : Word) : (s.wr a v).hp = s.hp := rfl
@[simp] theorem State.wr_latches (a : Nat) (v : Word) : (s.wr a v).latches = s.latches := rfl
@[simp] theorem State.wr_resp (a : Nat) (v : Word) : (s.wr a v).resp = s.resp := rfl
@[simp] theorem State.wr_rdata (a : Nat) (v : Word) : (s.wr a v).rdata = s.rdata := rfl
@[simp] theorem State.wr_rbytes (a : Nat) (v : Word) : (s.wr a v).rbytes = s.rbytes := rfl
@[simp] theorem State.wr_free (a : Nat) (v : Word) : (s.wr a v).free = s.free := rfl

/-! `State.put` -/

@[simp] theorem State.put_pending (f : Fld) (v : Nat) : (s.put f v).pending = s.pending := rfl
@[simp] theorem State.put_mem (f : Fld) (v : Nat) : (s.put f v).mem = s.mem := rfl
@[simp] theorem State.put_sys (f : Fld) (v : Nat) : (s.put f v).sys = s.sys := rfl
@[simp] theorem State.put_te (f : Fld) (v : Nat) : (s.put f v).te = s.te := rfl
@[simp] theorem State.put_md (f : Fld) (v : Nat) : (s.put f v).md = s.md := rfl
@[simp] theorem State.put_mig (f : Fld) (v : Nat) : (s.put f v).mig = s.mig := rfl
@[simp] theorem State.put_dom (f : Fld) (v : Nat) : (s.put f v).dom = s.dom := rfl
@[simp] theorem State.put_rt (f : Fld) (v : Nat) : (s.put f v).rt = s.rt := rfl
@[simp] theorem State.put_pdm (f : Fld) (v : Nat) : (s.put f v).pdm = s.pdm := rfl
@[simp] theorem State.put_tp (f : Fld) (v : Nat) : (s.put f v).tp = s.tp := rfl
@[simp] theorem State.put_asrc (f : Fld) (v : Nat) : (s.put f v).asrc = s.asrc := rfl
@[simp] theorem State.put_sm (f : Fld) (v : Nat) : (s.put f v).sm = s.sm := rfl
@[simp] theorem State.put_vat (f : Fld) (v : Nat) : (s.put f v).vat = s.vat := rfl
@[simp] theorem State.put_ig (f : Fld) (v : Nat) : (s.put f v).ig = s.ig := rfl
@[simp] theorem State.put_dma (f : Fld) (v : Nat) : (s.put f v).dma = s.dma := rfl
@[simp] theorem State.put_chime (f : Fld) (v : Nat) : (s.put f v).chime = s.chime := rfl
@[simp] theorem State.put_veh (f : Fld) (v : Nat) : (s.put f v).veh = s.veh := rfl
@[simp] theorem State.put_oc (f : Fld) (v : Nat) : (s.put f v).oc = s.oc := rfl
@[simp] theorem State.put_clk (f : Fld) (v : Nat) : (s.put f v).clk = s.clk := rfl
@[simp] theorem State.put_boot (f : Fld) (v : Nat) : (s.put f v).boot = s.boot := rfl
@[simp] theorem State.put_hp (f : Fld) (v : Nat) : (s.put f v).hp = s.hp := rfl
@[simp] theorem State.put_latches (f : Fld) (v : Nat) : (s.put f v).latches = s.latches := rfl
@[simp] theorem State.put_resp (f : Fld) (v : Nat) : (s.put f v).resp = s.resp := rfl
@[simp] theorem State.put_rdata (f : Fld) (v : Nat) : (s.put f v).rdata = s.rdata := rfl
@[simp] theorem State.put_rbytes (f : Fld) (v : Nat) : (s.put f v).rbytes = s.rbytes := rfl
@[simp] theorem State.put_free (f : Fld) (v : Nat) : (s.put f v).free = s.free := rfl

/-! `State.bump` -/

@[simp] theorem State.bump_pending (f : Fld) (n : Nat) : (s.bump f n).pending = s.pending := rfl
@[simp] theorem State.bump_mem (f : Fld) (n : Nat) : (s.bump f n).mem = s.mem := rfl
@[simp] theorem State.bump_sys (f : Fld) (n : Nat) : (s.bump f n).sys = s.sys := rfl
@[simp] theorem State.bump_te (f : Fld) (n : Nat) : (s.bump f n).te = s.te := rfl
@[simp] theorem State.bump_md (f : Fld) (n : Nat) : (s.bump f n).md = s.md := rfl
@[simp] theorem State.bump_mig (f : Fld) (n : Nat) : (s.bump f n).mig = s.mig := rfl
@[simp] theorem State.bump_dom (f : Fld) (n : Nat) : (s.bump f n).dom = s.dom := rfl
@[simp] theorem State.bump_rt (f : Fld) (n : Nat) : (s.bump f n).rt = s.rt := rfl
@[simp] theorem State.bump_pdm (f : Fld) (n : Nat) : (s.bump f n).pdm = s.pdm := rfl
@[simp] theorem State.bump_tp (f : Fld) (n : Nat) : (s.bump f n).tp = s.tp := rfl
@[simp] theorem State.bump_asrc (f : Fld) (n : Nat) : (s.bump f n).asrc = s.asrc := rfl
@[simp] theorem State.bump_sm (f : Fld) (n : Nat) : (s.bump f n).sm = s.sm := rfl
@[simp] theorem State.bump_vat (f : Fld) (n : Nat) : (s.bump f n).vat = s.vat := rfl
@[simp] theorem State.bump_ig (f : Fld) (n : Nat) : (s.bump f n).ig = s.ig := rfl
@[simp] theorem State.bump_dma (f : Fld) (n : Nat) : (s.bump f n).dma = s.dma := rfl
@[simp] theorem State.bump_chime (f : Fld) (n : Nat) : (s.bump f n).chime = s.chime := rfl
@[simp] theorem State.bump_veh (f : Fld) (n : Nat) : (s.bump f n).veh = s.veh := rfl
@[simp] theorem State.bump_oc (f : Fld) (n : Nat) : (s.bump f n).oc = s.oc := rfl
@[simp] theorem State.bump_clk (f : Fld) (n : Nat) : (s.bump f n).clk = s.clk := rfl
@[simp] theorem State.bump_boot (f : Fld) (n : Nat) : (s.bump f n).boot = s.boot := rfl
@[simp] theorem State.bump_hp (f : Fld) (n : Nat) : (s.bump f n).hp = s.hp := rfl
@[simp] theorem State.bump_latches (f : Fld) (n : Nat) : (s.bump f n).latches = s.latches := rfl
@[simp] theorem State.bump_resp (f : Fld) (n : Nat) : (s.bump f n).resp = s.resp := rfl
@[simp] theorem State.bump_rdata (f : Fld) (n : Nat) : (s.bump f n).rdata = s.rdata := rfl
@[simp] theorem State.bump_rbytes (f : Fld) (n : Nat) : (s.bump f n).rbytes = s.rbytes := rfl
@[simp] theorem State.bump_free (f : Fld) (n : Nat) : (s.bump f n).free = s.free := rfl

/-! `State.setIf` -/

@[simp] theorem State.setIf_pending (c : Bool) (f : Fld) : (s.setIf c f).pending = s.pending := by
  unfold State.setIf; split <;> rfl
@[simp] theorem State.setIf_mem (c : Bool) (f : Fld) : (s.setIf c f).mem = s.mem := by
  unfold State.setIf; split <;> rfl
@[simp] theorem State.setIf_sys (c : Bool) (f : Fld) : (s.setIf c f).sys = s.sys := by
  unfold State.setIf; split <;> rfl
@[simp] theorem State.setIf_te (c : Bool) (f : Fld) : (s.setIf c f).te = s.te := by
  unfold State.setIf; split <;> rfl
@[simp] theorem State.setIf_md (c : Bool) (f : Fld) : (s.setIf c f).md = s.md := by
  unfold State.setIf; split <;> rfl
@[simp] theorem State.setIf_mig (c : Bool) (f : Fld) : (s.setIf c f).mig = s.mig := by
  unfold State.setIf; split <;> rfl
@[simp] theorem State.setIf_dom (c : Bool) (f : Fld) : (s.setIf c f).dom = s.dom := by
  unfold State.setIf; split <;> rfl
@[simp] theorem State.setIf_rt (c : Bool) (f : Fld) : (s.setIf c f).rt = s.rt := by
  unfold State.setIf; split <;> rfl
@[simp] theorem State.setIf_pdm (c : Bool) (f : Fld) : (s.setIf c f).pdm = s.pdm := by
  unfold State.setIf; split <;> rfl
@[simp] theorem State.setIf_tp (c : Bool) (f : Fld) : (s.setIf c f).tp = s.tp := by
  unfold State.setIf; split <;> rfl
@[simp] theorem State.setIf_asrc (c : Bool) (f : Fld) : (s.setIf c f).asrc = s.asrc := by
  unfold State.setIf; split <;> rfl
@[simp] theorem State.setIf_sm (c : Bool) (f : Fld) : (s.setIf c f).sm = s.sm := by
  unfold State.setIf; split <;> rfl
@[simp] theorem State.setIf_vat (c : Bool) (f : Fld) : (s.setIf c f).vat = s.vat := by
  unfold State.setIf; split <;> rfl
@[simp] theorem State.setIf_ig (c : Bool) (f : Fld) : (s.setIf c f).ig = s.ig := by
  unfold State.setIf; split <;> rfl
@[simp] theorem State.setIf_dma (c : Bool) (f : Fld) : (s.setIf c f).dma = s.dma := by
  unfold State.setIf; split <;> rfl
@[simp] theorem State.setIf_chime (c : Bool) (f : Fld) : (s.setIf c f).chime = s.chime := by
  unfold State.setIf; split <;> rfl
@[simp] theorem State.setIf_veh (c : Bool) (f : Fld) : (s.setIf c f).veh = s.veh := by
  unfold State.setIf; split <;> rfl
@[simp] theorem State.setIf_oc (c : Bool) (f : Fld) : (s.setIf c f).oc = s.oc := by
  unfold State.setIf; split <;> rfl
@[simp] theorem State.setIf_clk (c : Bool) (f : Fld) : (s.setIf c f).clk = s.clk := by
  unfold State.setIf; split <;> rfl
@[simp] theorem State.setIf_boot (c : Bool) (f : Fld) : (s.setIf c f).boot = s.boot := by
  unfold State.setIf; split <;> rfl
@[simp] theorem State.setIf_hp (c : Bool) (f : Fld) : (s.setIf c f).hp = s.hp := by
  unfold State.setIf; split <;> rfl
@[simp] theorem State.setIf_latches (c : Bool) (f : Fld) : (s.setIf c f).latches = s.latches := by
  unfold State.setIf; split <;> rfl
@[simp] theorem State.setIf_resp (c : Bool) (f : Fld) : (s.setIf c f).resp = s.resp := by
  unfold State.setIf; split <;> rfl
@[simp] theorem State.setIf_rdata (c : Bool) (f : Fld) : (s.setIf c f).rdata = s.rdata := by
  unfold State.setIf; split <;> rfl
@[simp] theorem State.setIf_rbytes (c : Bool) (f : Fld) : (s.setIf c f).rbytes = s.rbytes := by
  unfold State.setIf; split <;> rfl
@[simp] theorem State.setIf_free (c : Bool) (f : Fld) : (s.setIf c f).free = s.free := by
  unfold State.setIf; split <;> rfl

/-! `State.unreg` -/

@[simp] theorem State.unreg_pending (a : Nat) : (s.unreg a).pending = s.pending := rfl
@[simp] theorem State.unreg_mem (a : Nat) : (s.unreg a).mem = s.mem := rfl
@[simp] theorem State.unreg_sys (a : Nat) : (s.unreg a).sys = s.sys := rfl
@[simp] theorem State.unreg_te (a : Nat) : (s.unreg a).te = s.te := rfl
@[simp] theorem State.unreg_md (a : Nat) : (s.unreg a).md = s.md := rfl
@[simp] theorem State.unreg_mig (a : Nat) : (s.unreg a).mig = s.mig := rfl
@[simp] theorem State.unreg_dom (a : Nat) : (s.unreg a).dom = s.dom := rfl
@[simp] theorem State.unreg_rt (a : Nat) : (s.unreg a).rt = s.rt := rfl
@[simp] theorem State.unreg_pdm (a : Nat) : (s.unreg a).pdm = s.pdm := rfl
@[simp] theorem State.unreg_tp (a : Nat) : (s.unreg a).tp = s.tp := rfl
@[simp] theorem State.unreg_asrc (a : Nat) : (s.unreg a).asrc = s.asrc := rfl
@[simp] theorem State.unreg_sm (a : Nat) : (s.unreg a).sm = s.sm := rfl
@[simp] theorem State.unreg_vat (a : Nat) : (s.unreg a).vat = s.vat := rfl
@[simp] theorem State.unreg_ig (a : Nat) : (s.unreg a).ig = s.ig := rfl
@[simp] theorem State.unreg_dma (a : Nat) : (s.unreg a).dma = s.dma := rfl
@[simp] theorem State.unreg_chime (a : Nat) : (s.unreg a).chime = s.chime := rfl
@[simp] theorem State.unreg_veh (a : Nat) : (s.unreg a).veh = s.veh := rfl
@[simp] theorem State.unreg_oc (a : Nat) : (s.unreg a).oc = s.oc := rfl
@[simp] theorem State.unreg_clk (a : Nat) : (s.unreg a).clk = s.clk := rfl
@[simp] theorem State.unreg_boot (a : Nat) : (s.unreg a).boot = s.boot := rfl
@[simp] theorem State.unreg_hp (a : Nat) : (s.unreg a).hp = s.hp := rfl
@[simp] theorem State.unreg_latches (a : Nat) : (s.unreg a).latches = s.latches := rfl
@[simp] theorem State.unreg_resp (a : Nat) : (s.unreg a).resp = s.resp := rfl
@[simp] theorem State.unreg_rdata (a : Nat) : (s.unreg a).rdata = s.rdata := rfl
@[simp] theorem State.unreg_rbytes (a : Nat) : (s.unreg a).rbytes = s.rbytes := rfl
@[simp] theorem State.unreg_free (a : Nat) : (s.unreg a).free = s.free := rfl

/-! `State.regClear` -/

@[simp] theorem State.regClear_pending (lo hi : Nat) : (s.regClear lo hi).pending = s.pending := rfl
@[simp] theorem State.regClear_mem (lo hi : Nat) : (s.regClear lo hi).mem = s.mem := rfl
@[simp] theorem State.regClear_sys (lo hi : Nat) : (s.regClear lo hi).sys = s.sys := rfl
@[simp] theorem State.regClear_te (lo hi : Nat) : (s.regClear lo hi).te = s.te := rfl
@[simp] theorem State.regClear_md (lo hi : Nat) : (s.regClear lo hi).md = s.md := rfl
@[simp] theorem State.regClear_mig (lo hi : Nat) : (s.regClear lo hi).mig = s.mig := rfl
@[simp] theorem State.regClear_dom (lo hi : Nat) : (s.regClear lo hi).dom = s.dom := rfl
@[simp] theorem State.regClear_rt (lo hi : Nat) : (s.regClear lo hi).rt = s.rt := rfl
@[simp] theorem State.regClear_pdm (lo hi : Nat) : (s.regClear lo hi).pdm = s.pdm := rfl
@[simp] theorem State.regClear_tp (lo hi : Nat) : (s.regClear lo hi).tp = s.tp := rfl
@[simp] theorem State.regClear_asrc (lo hi : Nat) : (s.regClear lo hi).asrc = s.asrc := rfl
@[simp] theorem State.regClear_sm (lo hi : Nat) : (s.regClear lo hi).sm = s.sm := rfl
@[simp] theorem State.regClear_vat (lo hi : Nat) : (s.regClear lo hi).vat = s.vat := rfl
@[simp] theorem State.regClear_ig (lo hi : Nat) : (s.regClear lo hi).ig = s.ig := rfl
@[simp] theorem State.regClear_dma (lo hi : Nat) : (s.regClear lo hi).dma = s.dma := rfl
@[simp] theorem State.regClear_chime (lo hi : Nat) : (s.regClear lo hi).chime = s.chime := rfl
@[simp] theorem State.regClear_veh (lo hi : Nat) : (s.regClear lo hi).veh = s.veh := rfl
@[simp] theorem State.regClear_oc (lo hi : Nat) : (s.regClear lo hi).oc = s.oc := rfl
@[simp] theorem State.regClear_clk (lo hi : Nat) : (s.regClear lo hi).clk = s.clk := rfl
@[simp] theorem State.regClear_boot (lo hi : Nat) : (s.regClear lo hi).boot = s.boot := rfl
@[simp] theorem State.regClear_hp (lo hi : Nat) : (s.regClear lo hi).hp = s.hp := rfl
@[simp] theorem State.regClear_latches (lo hi : Nat) : (s.regClear lo hi).latches = s.latches := rfl
@[simp] theorem State.regClear_resp (lo hi : Nat) : (s.regClear lo hi).resp = s.resp := rfl
@[simp] theorem State.regClear_rdata (lo hi : Nat) : (s.regClear lo hi).rdata = s.rdata := rfl
@[simp] theorem State.regClear_rbytes (lo hi : Nat) : (s.regClear lo hi).rbytes = s.rbytes := rfl
@[simp] theorem State.regClear_free (lo hi : Nat) : (s.regClear lo hi).free = s.free := rfl

/-! `State.wb` -/

@[simp] theorem State.wb_pending (a : Nat) (v : Byte) : (s.wb a v).pending = s.pending := rfl
@[simp] theorem State.wb_regs (a : Nat) (v : Byte) : (s.wb a v).regs = s.regs := rfl
@[simp] theorem State.wb_sys (a : Nat) (v : Byte) : (s.wb a v).sys = s.sys := rfl
@[simp] theorem State.wb_te (a : Nat) (v : Byte) : (s.wb a v).te = s.te := rfl
@[simp] theorem State.wb_md (a : Nat) (v : Byte) : (s.wb a v).md = s.md := rfl
@[simp] theorem State.wb_mig (a : Nat) (v : Byte) : (s.wb a v).mig = s.mig := rfl
@[simp] theorem State.wb_dom (a : Nat) (v : Byte) : (s.wb a v).dom = s.dom := rfl
@[simp] theorem State.wb_rt (a : Nat) (v : Byte) : (s.wb a v).rt = s.rt := rfl
@[simp] theorem State.wb_pdm (a : Nat) (v : Byte) : (s.wb a v).pdm = s.pdm := rfl
@[simp] theorem State.wb_tp (a : Nat) (v : Byte) : (s.wb a v).tp = s.tp := rfl
@[simp] theorem State.wb_asrc (a : Nat) (v : Byte) : (s.wb a v).asrc = s.asrc := rfl
@[simp] theorem State.wb_sm (a : Nat) (v : Byte) : (s.wb a v).sm = s.sm := rfl
@[simp] theorem State.wb_vat (a : Nat) (v : Byte) : (s.wb a v).vat = s.vat := rfl
@[simp] theorem State.wb_ig (a : Nat) (v : Byte) : (s.wb a v).ig = s.ig := rfl
@[simp] theorem State.wb_dma (a : Nat) (v : Byte) : (s.wb a v).dma = s.dma := rfl
@[simp] theorem State.wb_chime (a : Nat) (v : Byte) : (s.wb a v).chime = s.chime := rfl
@[simp] theorem State.wb_veh (a : Nat) (v : Byte) : (s.wb a v).veh = s.veh := rfl
@[simp] theorem State.wb_oc (a : Nat) (v : Byte) : (s.wb a v).oc = s.oc := rfl
@[simp] theorem State.wb_clk (a : Nat) (v : Byte) : (s.wb a v).clk = s.clk := rfl
@[simp] theorem State.wb_boot (a : Nat) (v : Byte) : (s.wb a v).boot = s.boot := rfl
@[simp] theorem State.wb_hp (a : Nat) (v : Byte) : (s.wb a v).hp = s.hp := rfl
@[simp] theorem State.wb_latches (a : Nat) (v : Byte) : (s.wb a v).latches = s.latches := rfl
@[simp] theorem State.wb_resp (a : Nat) (v : Byte) : (s.wb a v).resp = s.resp := rfl
@[simp] theorem State.wb_rdata (a : Nat) (v : Byte) : (s.wb a v).rdata = s.rdata := rfl
@[simp] theorem State.wb_rbytes (a : Nat) (v : Byte) : (s.wb a v).rbytes = s.rbytes := rfl
@[simp] theorem State.wb_free (a : Nat) (v : Byte) : (s.wb a v).free = s.free := rfl

/-! `State.wbs` -/

@[simp] theorem State.wbs_pending (a : Nat) (l : List Byte) : (s.wbs a l).pending = s.pending := by
  induction l generalizing s a with
  | nil => rfl
  | cons b l ih => exact ih (s.wb a b) (a + 1)
@[simp] theorem State.wbs_regs (a : Nat) (l : List Byte) : (s.wbs a l).regs = s.regs := by
  induction l generalizing s a with
  | nil => rfl
  | cons b l ih => exact ih (s.wb a b) (a + 1)
@[simp] theorem State.wbs_sys (a : Nat) (l : List Byte) : (s.wbs a l).sys = s.sys := by
  induction l generalizing s a with
  | nil => rfl
  | cons b l ih => exact ih (s.wb a b) (a + 1)
@[simp] theorem State.wbs_te (a : Nat) (l : List Byte) : (s.wbs a l).te = s.te := by
  induction l generalizing s a with
  | nil => rfl
  | cons b l ih => exact ih (s.wb a b) (a + 1)
@[simp] theorem State.wbs_md (a : Nat) (l : List Byte) : (s.wbs a l).md = s.md := by
  induction l generalizing s a with
  | nil => rfl
  | cons b l ih => exact ih (s.wb a b) (a + 1)
@[simp] theorem State.wbs_mig (a : Nat) (l : List Byte) : (s.wbs a l).mig = s.mig := by
  induction l generalizing s a with
  | nil => rfl
  | cons b l ih => exact ih (s.wb a b) (a + 1)
@[simp] theorem State.wbs_dom (a : Nat) (l : List Byte) : (s.wbs a l).dom = s.dom := by
  induction l generalizing s a with
  | nil => rfl
  | cons b l ih => exact ih (s.wb a b) (a + 1)
@[simp] theorem State.wbs_rt (a : Nat) (l : List Byte) : (s.wbs a l).rt = s.rt := by
  induction l generalizing s a with
  | nil => rfl
  | cons b l ih => exact ih (s.wb a b) (a + 1)
@[simp] theorem State.wbs_pdm (a : Nat) (l : List Byte) : (s.wbs a l).pdm = s.pdm := by
  induction l generalizing s a with
  | nil => rfl
  | cons b l ih => exact ih (s.wb a b) (a + 1)
@[simp] theorem State.wbs_tp (a : Nat) (l : List Byte) : (s.wbs a l).tp = s.tp := by
  induction l generalizing s a with
  | nil => rfl
  | cons b l ih => exact ih (s.wb a b) (a + 1)
@[simp] theorem State.wbs_asrc (a : Nat) (l : List Byte) : (s.wbs a l).asrc = s.asrc := by
  induction l generalizing s a with
  | nil => rfl
  | cons b l ih => exact ih (s.wb a b) (a + 1)
@[simp] theorem State.wbs_sm (a : Nat) (l : List Byte) : (s.wbs a l).sm = s.sm := by
  induction l generalizing s a with
  | nil => rfl
  | cons b l ih => exact ih (s.wb a b) (a + 1)
@[simp] theorem State.wbs_vat (a : Nat) (l : List Byte) : (s.wbs a l).vat = s.vat := by
  induction l generalizing s a with
  | nil => rfl
  | cons b l ih => exact ih (s.wb a b) (a + 1)
@[simp] theorem State.wbs_ig (a : Nat) (l : List Byte) : (s.wbs a l).ig = s.ig := by
  induction l generalizing s a with
  | nil => rfl
  | cons b l ih => exact ih (s.wb a b) (a + 1)
@[simp] theorem State.wbs_dma (a : Nat) (l : List Byte) : (s.wbs a l).dma = s.dma := by
  induction l generalizing s a with
  | nil => rfl
  | cons b l ih => exact ih (s.wb a b) (a + 1)
@[simp] theorem State.wbs_chime (a : Nat) (l : List Byte) : (s.wbs a l).chime = s.chime := by
  induction l generalizing s a with
  | nil => rfl
  | cons b l ih => exact ih (s.wb a b) (a + 1)
@[simp] theorem State.wbs_veh (a : Nat) (l : List Byte) : (s.wbs a l).veh = s.veh := by
  induction l generalizing s a with
  | nil => rfl
  | cons b l ih => exact ih (s.wb a b) (a + 1)
@[simp] theorem State.wbs_oc (a : Nat) (l : List Byte) : (s.wbs a l).oc = s.oc := by
  induction l generalizing s a with
  | nil => rfl
  | cons b l ih => exact ih (s.wb a b) (a + 1)
@[simp] theorem State.wbs_clk (a : Nat) (l : List Byte) : (s.wbs a l).clk = s.clk := by
  induction l generalizing s a with
  | nil => rfl
  | cons b l ih => exact ih (s.wb a b) (a + 1)
@[simp] theorem State.wbs_boot (a : Nat) (l : List Byte) : (s.wbs a l).boot = s.boot := by
  induction l generalizing s a with
  | nil => rfl
  | cons b l ih => exact ih (s.wb a b) (a + 1)
@[simp] theorem State.wbs_hp (a : Nat) (l : List Byte) : (s.wbs a l).hp = s.hp := by
  induction l generalizing s a with
  | nil => rfl
  | cons b l ih => exact ih (s.wb a b) (a + 1)
@[simp] theorem State.wbs_latches (a : Nat) (l : List Byte) : (s.wbs a l).latches = s.latches := by
  induction l generalizing s a with
  | nil => rfl
  | cons b l ih => exact ih (s.wb a b) (a + 1)
@[simp] theorem State.wbs_resp (a : Nat) (l : List Byte) : (s.wbs a l).resp = s.resp := by
  induction l generalizing s a with
  | nil => rfl
  | cons b l ih => exact ih (s.wb a b) (a + 1)
@[simp] theorem State.wbs_rdata (a : Nat) (l : List Byte) : (s.wbs a l).rdata = s.rdata := by
  induction l generalizing s a with
  | nil => rfl
  | cons b l ih => exact ih (s.wb a b) (a + 1)
@[simp] theorem State.wbs_rbytes (a : Nat) (l : List Byte) : (s.wbs a l).rbytes = s.rbytes := by
  induction l generalizing s a with
  | nil => rfl
  | cons b l ih => exact ih (s.wb a b) (a + 1)
@[simp] theorem State.wbs_free (a : Nat) (l : List Byte) : (s.wbs a l).free = s.free := by
  induction l generalizing s a with
  | nil => rfl
  | cons b l ih => exact ih (s.wb a b) (a + 1)

/-! `State.ww` -/

@[simp] theorem State.ww_pending (a : Nat) (v : Word) : (s.ww a v).pending = s.pending := State.wbs_pending s a (wordBytes v)
@[simp] theorem State.ww_regs (a : Nat) (v : Word) : (s.ww a v).regs = s.regs := State.wbs_regs s a (wordBytes v)
@[simp] theorem State.ww_sys (a : Nat) (v : Word) : (s.ww a v).sys = s.sys := State.wbs_sys s a (wordBytes v)
@[simp] theorem State.ww_te (a : Nat) (v : Word) : (s.ww a v).te = s.te := State.wbs_te s a (wordBytes v)
@[simp] theorem State.ww_md (a : Nat) (v : Word) : (s.ww a v).md = s.md := State.wbs_md s a (wordBytes v)
@[simp] theorem State.ww_mig (a : Nat) (v : Word) : (s.ww a v).mig = s.mig := State.wbs_mig s a (wordBytes v)
@[simp] theorem State.ww_dom (a : Nat) (v : Word) : (s.ww a v).dom = s.dom := State.wbs_dom s a (wordBytes v)
@[simp] theorem State.ww_rt (a : Nat) (v : Word) : (s.ww a v).rt = s.rt := State.wbs_rt s a (wordBytes v)
@[simp] theorem State.ww_pdm (a : Nat) (v : Word) : (s.ww a v).pdm = s.pdm := State.wbs_pdm s a (wordBytes v)
@[simp] theorem State.ww_tp (a : Nat) (v : Word) : (s.ww a v).tp = s.tp := State.wbs_tp s a (wordBytes v)
@[simp] theorem State.ww_asrc (a : Nat) (v : Word) : (s.ww a v).asrc = s.asrc := State.wbs_asrc s a (wordBytes v)
@[simp] theorem State.ww_sm (a : Nat) (v : Word) : (s.ww a v).sm = s.sm := State.wbs_sm s a (wordBytes v)
@[simp] theorem State.ww_vat (a : Nat) (v : Word) : (s.ww a v).vat = s.vat := State.wbs_vat s a (wordBytes v)
@[simp] theorem State.ww_ig (a : Nat) (v : Word) : (s.ww a v).ig = s.ig := State.wbs_ig s a (wordBytes v)
@[simp] theorem State.ww_dma (a : Nat) (v : Word) : (s.ww a v).dma = s.dma := State.wbs_dma s a (wordBytes v)
@[simp] theorem State.ww_chime (a : Nat) (v : Word) : (s.ww a v).chime = s.chime := State.wbs_chime s a (wordBytes v)
@[simp] theorem State.ww_veh (a : Nat) (v : Word) : (s.ww a v).veh = s.veh := State.wbs_veh s a (wordBytes v)
@[simp] theorem State.ww_oc (a : Nat) (v : Word) : (s.ww a v).oc = s.oc := State.wbs_oc s a (wordBytes v)
@[simp] theorem State.ww_clk (a : Nat) (v : Word) : (s.ww a v).clk = s.clk := State.wbs_clk s a (wordBytes v)
@[simp] theorem State.ww_boot (a : Nat) (v : Word) : (s.ww a v).boot = s.boot := State.wbs_boot s a (wordBytes v)
@[simp] theorem State.ww_hp (a : Nat) (v : Word) : (s.ww a v).hp = s.hp := State.wbs_hp s a (wordBytes v)
@[simp] theorem State.ww_latches (a : Nat) (v : Word) : (s.ww a v).latches = s.latches := State.wbs_latches s a (wordBytes v)
@[simp] theorem State.ww_resp (a : Nat) (v : Word) : (s.ww a v).resp = s.resp := State.wbs_resp s a (wordBytes v)
@[simp] theorem State.ww_rdata (a : Nat) (v : Word) : (s.ww a v).rdata = s.rdata := State.wbs_rdata s a (wordBytes v)
@[simp] theorem State.ww_rbytes (a : Nat) (v : Word) : (s.ww a v).rbytes = s.rbytes := State.wbs_rbytes s a (wordBytes v)
@[simp] theorem State.ww_free (a : Nat) (v : Word) : (s.ww a v).free = s.free := State.wbs_free s a (wordBytes v)

/-! `State.memClear` -/

@[simp] theorem State.memClear_pending (lo hi : Nat) : (s.memClear lo hi).pending = s.pending := rfl
@[simp] theorem State.memClear_regs (lo hi : Nat) : (s.memClear lo hi).regs = s.regs := rfl
@[simp] theorem State.memClear_sys (lo hi : Nat) : (s.memClear lo hi).sys = s.sys := rfl
@[simp] theorem State.memClear_te (lo hi : Nat) : (s.memClear lo hi).te = s.te := rfl
@[simp] theorem State.memClear_md (lo hi : Nat) : (s.memClear lo hi).md = s.md := rfl
@[simp] theorem State.memClear_mig (lo hi : Nat) : (s.memClear lo hi).mig = s.mig := rfl
@[simp] theorem State.memClear_dom (lo hi : Nat) : (s.memClear lo hi).dom = s.dom := rfl
@[simp] theorem State.memClear_rt (lo hi : Nat) : (s.memClear lo hi).rt = s.rt := rfl
@[simp] theorem State.memClear_pdm (lo hi : Nat) : (s.memClear lo hi).pdm = s.pdm := rfl
@[simp] theorem State.memClear_tp (lo hi : Nat) : (s.memClear lo hi).tp = s.tp := rfl
@[simp] theorem State.memClear_asrc (lo hi : Nat) : (s.memClear lo hi).asrc = s.asrc := rfl
@[simp] theorem State.memClear_sm (lo hi : Nat) : (s.memClear lo hi).sm = s.sm := rfl
@[simp] theorem State.memClear_vat (lo hi : Nat) : (s.memClear lo hi).vat = s.vat := rfl
@[simp] theorem State.memClear_ig (lo hi : Nat) : (s.memClear lo hi).ig = s.ig := rfl
@[simp] theorem State.memClear_dma (lo hi : Nat) : (s.memClear lo hi).dma = s.dma := rfl
@[simp] theorem State.memClear_chime (lo hi : Nat) : (s.memClear lo hi).chime = s.chime := rfl
@[simp] theorem State.memClear_veh (lo hi : Nat) : (s.memClear lo hi).veh = s.veh := rfl
@[simp] theorem State.memClear_oc (lo hi : Nat) : (s.memClear lo hi).oc = s.oc := rfl
@[simp] theorem State.memClear_clk (lo hi : Nat) : (s.memClear lo hi).clk = s.clk := rfl
@[simp] theorem State.memClear_boot (lo hi : Nat) : (s.memClear lo hi).boot = s.boot := rfl
@[simp] theorem State.memClear_hp (lo hi : Nat) : (s.memClear lo hi).hp = s.hp := rfl
@[simp] theorem State.memClear_latches (lo hi : Nat) : (s.memClear lo hi).latches = s.latches := rfl
@[simp] theorem State.memClear_resp (lo hi : Nat) : (s.memClear lo hi).resp = s.resp := rfl
@[simp] theorem State.memClear_rdata (lo hi : Nat) : (s.memClear lo hi).rdata = s.rdata := rfl
@[simp] theorem State.memClear_rbytes (lo hi : Nat) : (s.memClear lo hi).rbytes = s.rbytes := rfl
@[simp] theorem State.memClear_free (lo hi : Nat) : (s.memClear lo hi).free = s.free := rfl

/-! `State.ok` -/

@[simp] theorem State.ok_pending : (s.ok).pending = s.pending := rfl
@[simp] theorem State.ok_regs : (s.ok).regs = s.regs := rfl
@[simp] theorem State.ok_mem : (s.ok).mem = s.mem := rfl
@[simp] theorem State.ok_sys : (s.ok).sys = s.sys := rfl
@[simp] theorem State.ok_te : (s.ok).te = s.te := rfl
@[simp] theorem State.ok_md : (s.ok).md = s.md := rfl
@[simp] theorem State.ok_mig : (s.ok).mig = s.mig := rfl
@[simp] theorem State.ok_dom : (s.ok).dom = s.dom := rfl
@[simp] theorem State.ok_rt : (s.ok).rt = s.rt := rfl
@[simp] theorem State.ok_pdm : (s.ok).pdm = s.pdm := rfl
@[simp] theorem State.ok_tp : (s.ok).tp = s.tp := rfl
@[simp] theorem State.ok_asrc : (s.ok).asrc = s.asrc := rfl
@[simp] theorem State.ok_sm : (s.ok).sm = s.sm := rfl
@[simp] theorem State.ok_vat : (s.ok).vat = s.vat := rfl
@[simp] theorem State.ok_ig : (s.ok).ig = s.ig := rfl
@[simp] theorem State.ok_dma : (s.ok).dma = s.dma := rfl
@[simp] theorem State.ok_chime : (s.ok).chime = s.chime := rfl
@[simp] theorem State.ok_veh : (s.ok).veh = s.veh := rfl
@[simp] theorem State.ok_oc : (s.ok).oc = s.oc := rfl
@[simp] theorem State.ok_clk : (s.ok).clk = s.clk := rfl
@[simp] theorem State.ok_boot : (s.ok).boot = s.boot := rfl
@[simp] theorem State.ok_hp : (s.ok).hp = s.hp := rfl
@[simp] theorem State.ok_latches : (s.ok).latches = s.latches := rfl
@[simp] theorem State.ok_rdata : (s.ok).rdata = s.rdata := rfl
@[simp] theorem State.ok_rbytes : (s.ok).rbytes = s.rbytes := rfl
@[simp] theorem State.ok_free : (s.ok).free = s.free := rfl

/-! `State.denied` -/

@[simp] theorem State.denied_pending : (s.denied).pending = s.pending := rfl
@[simp] theorem State.denied_regs : (s.denied).regs = s.regs := rfl
@[simp] theorem State.denied_mem : (s.denied).mem = s.mem := rfl
@[simp] theorem State.denied_sys : (s.denied).sys = s.sys := rfl
@[simp] theorem State.denied_te : (s.denied).te = s.te := rfl
@[simp] theorem State.denied_md : (s.denied).md = s.md := rfl
@[simp] theorem State.denied_mig : (s.denied).mig = s.mig := rfl
@[simp] theorem State.denied_dom : (s.denied).dom = s.dom := rfl
@[simp] theorem State.denied_rt : (s.denied).rt = s.rt := rfl
@[simp] theorem State.denied_pdm : (s.denied).pdm = s.pdm := rfl
@[simp] theorem State.denied_tp : (s.denied).tp = s.tp := rfl
@[simp] theorem State.denied_asrc : (s.denied).asrc = s.asrc := rfl
@[simp] theorem State.denied_sm : (s.denied).sm = s.sm := rfl
@[simp] theorem State.denied_vat : (s.denied).vat = s.vat := rfl
@[simp] theorem State.denied_ig : (s.denied).ig = s.ig := rfl
@[simp] theorem State.denied_dma : (s.denied).dma = s.dma := rfl
@[simp] theorem State.denied_chime : (s.denied).chime = s.chime := rfl
@[simp] theorem State.denied_veh : (s.denied).veh = s.veh := rfl
@[simp] theorem State.denied_oc : (s.denied).oc = s.oc := rfl
@[simp] theorem State.denied_clk : (s.denied).clk = s.clk := rfl
@[simp] theorem State.denied_boot : (s.denied).boot = s.boot := rfl
@[simp] theorem State.denied_hp : (s.denied).hp = s.hp := rfl
@[simp] theorem State.denied_latches : (s.denied).latches = s.latches := rfl
@[simp] theorem State.denied_rdata : (s.denied).rdata = s.rdata := rfl
@[simp] theorem State.denied_rbytes : (s.denied).rbytes = s.rbytes := rfl
@[simp] theorem State.denied_free : (s.denied).free = s.free := rfl

/-! `State.atCyc` -/

@[simp] theorem State.atCyc_pending (c : Nat) : (s.atCyc c).pending = s.pending := by
  unfold State.atCyc; split <;> rfl
@[simp] theorem State.atCyc_regs (c : Nat) : (s.atCyc c).regs = s.regs := by
  unfold State.atCyc; split <;> rfl
@[simp] theorem State.atCyc_mem (c : Nat) : (s.atCyc c).mem = s.mem := by
  unfold State.atCyc; split <;> rfl
@[simp] theorem State.atCyc_te (c : Nat) : (s.atCyc c).te = s.te := by
  unfold State.atCyc; split <;> rfl
@[simp] theorem State.atCyc_md (c : Nat) : (s.atCyc c).md = s.md := by
  unfold State.atCyc; split <;> rfl
@[simp] theorem State.atCyc_mig (c : Nat) : (s.atCyc c).mig = s.mig := by
  unfold State.atCyc; split <;> rfl
@[simp] theorem State.atCyc_dom (c : Nat) : (s.atCyc c).dom = s.dom := by
  unfold State.atCyc; split <;> rfl
@[simp] theorem State.atCyc_rt (c : Nat) : (s.atCyc c).rt = s.rt := by
  unfold State.atCyc; split <;> rfl
@[simp] theorem State.atCyc_pdm (c : Nat) : (s.atCyc c).pdm = s.pdm := by
  unfold State.atCyc; split <;> rfl
@[simp] theorem State.atCyc_tp (c : Nat) : (s.atCyc c).tp = s.tp := by
  unfold State.atCyc; split <;> rfl
@[simp] theorem State.atCyc_asrc (c : Nat) : (s.atCyc c).asrc = s.asrc := by
  unfold State.atCyc; split <;> rfl
@[simp] theorem State.atCyc_sm (c : Nat) : (s.atCyc c).sm = s.sm := by
  unfold State.atCyc; split <;> rfl
@[simp] theorem State.atCyc_vat (c : Nat) : (s.atCyc c).vat = s.vat := by
  unfold State.atCyc; split <;> rfl
@[simp] theorem State.atCyc_ig (c : Nat) : (s.atCyc c).ig = s.ig := by
  unfold State.atCyc; split <;> rfl
@[simp] theorem State.atCyc_dma (c : Nat) : (s.atCyc c).dma = s.dma := by
  unfold State.atCyc; split <;> rfl
@[simp] theorem State.atCyc_chime (c : Nat) : (s.atCyc c).chime = s.chime := by
  unfold State.atCyc; split <;> rfl
@[simp] theorem State.atCyc_veh (c : Nat) : (s.atCyc c).veh = s.veh := by
  unfold State.atCyc; split <;> rfl
@[simp] theorem State.atCyc_oc (c : Nat) : (s.atCyc c).oc = s.oc := by
  unfold State.atCyc; split <;> rfl
@[simp] theorem State.atCyc_clk (c : Nat) : (s.atCyc c).clk = s.clk := by
  unfold State.atCyc; split <;> rfl
@[simp] theorem State.atCyc_boot (c : Nat) : (s.atCyc c).boot = s.boot := by
  unfold State.atCyc; split <;> rfl
@[simp] theorem State.atCyc_hp (c : Nat) : (s.atCyc c).hp = s.hp := by
  unfold State.atCyc; split <;> rfl
@[simp] theorem State.atCyc_latches (c : Nat) : (s.atCyc c).latches = s.latches := by
  unfold State.atCyc; split <;> rfl
@[simp] theorem State.atCyc_resp (c : Nat) : (s.atCyc c).resp = s.resp := by
  unfold State.atCyc; split <;> rfl
@[simp] theorem State.atCyc_rdata (c : Nat) : (s.atCyc c).rdata = s.rdata := by
  unfold State.atCyc; split <;> rfl
@[simp] theorem State.atCyc_rbytes (c : Nat) : (s.atCyc c).rbytes = s.rbytes := by
  unfold State.atCyc; split <;> rfl
@[simp] theorem State.atCyc_free (c : Nat) : (s.atCyc c).free = s.free := by
  unfold State.atCyc; split <;> rfl

/-! `State.fire` -/

@[simp] theorem State.fire_pending (k : Nat) : (s.fire k).pending = s.pending := rfl
@[simp] theorem State.fire_regs (k : Nat) : (s.fire k).regs = s.regs := rfl
@[simp] theorem State.fire_mem (k : Nat) : (s.fire k).mem = s.mem := rfl
@[simp] theorem State.fire_te (k : Nat) : (s.fire k).te = s.te := rfl
@[simp] theorem State.fire_md (k : Nat) : (s.fire k).md = s.md := rfl
@[simp] theorem State.fire_mig (k : Nat) : (s.fire k).mig = s.mig := rfl
@[simp] theorem State.fire_dom (k : Nat) : (s.fire k).dom = s.dom := rfl
@[simp] theorem State.fire_rt (k : Nat) : (s.fire k).rt = s.rt := rfl
@[simp] theorem State.fire_pdm (k : Nat) : (s.fire k).pdm = s.pdm := rfl
@[simp] theorem State.fire_tp (k : Nat) : (s.fire k).tp = s.tp := rfl
@[simp] theorem State.fire_asrc (k : Nat) : (s.fire k).asrc = s.asrc := rfl
@[simp] theorem State.fire_sm (k : Nat) : (s.fire k).sm = s.sm := rfl
@[simp] theorem State.fire_vat (k : Nat) : (s.fire k).vat = s.vat := rfl
@[simp] theorem State.fire_ig (k : Nat) : (s.fire k).ig = s.ig := rfl
@[simp] theorem State.fire_dma (k : Nat) : (s.fire k).dma = s.dma := rfl
@[simp] theorem State.fire_chime (k : Nat) : (s.fire k).chime = s.chime := rfl
@[simp] theorem State.fire_veh (k : Nat) : (s.fire k).veh = s.veh := rfl
@[simp] theorem State.fire_oc (k : Nat) : (s.fire k).oc = s.oc := rfl
@[simp] theorem State.fire_clk (k : Nat) : (s.fire k).clk = s.clk := rfl
@[simp] theorem State.fire_boot (k : Nat) : (s.fire k).boot = s.boot := rfl
@[simp] theorem State.fire_hp (k : Nat) : (s.fire k).hp = s.hp := rfl
@[simp] theorem State.fire_latches (k : Nat) : (s.fire k).latches = s.latches := rfl
@[simp] theorem State.fire_resp (k : Nat) : (s.fire k).resp = s.resp := rfl
@[simp] theorem State.fire_rdata (k : Nat) : (s.fire k).rdata = s.rdata := rfl
@[simp] theorem State.fire_rbytes (k : Nat) : (s.fire k).rbytes = s.rbytes := rfl
@[simp] theorem State.fire_free (k : Nat) : (s.fire k).free = s.free := rfl

/-! `State.setEng` -/

@[simp] theorem State.setEng_pending (e : Nat) (g : Engine → Engine) : (s.setEng e g).pending = s.pending := rfl
@[simp] theorem State.setEng_regs (e : Nat) (g : Engine → Engine) : (s.setEng e g).regs = s.regs := rfl
@[simp] theorem State.setEng_mem (e : Nat) (g : Engine → Engine) : (s.setEng e g).mem = s.mem := rfl
@[simp] theorem State.setEng_sys (e : Nat) (g : Engine → Engine) : (s.setEng e g).sys = s.sys := rfl
@[simp] theorem State.setEng_md (e : Nat) (g : Engine → Engine) : (s.setEng e g).md = s.md := rfl
@[simp] theorem State.setEng_mig (e : Nat) (g : Engine → Engine) : (s.setEng e g).mig = s.mig := rfl
@[simp] theorem State.setEng_dom (e : Nat) (g : Engine → Engine) : (s.setEng e g).dom = s.dom := rfl
@[simp] theorem State.setEng_rt (e : Nat) (g : Engine → Engine) : (s.setEng e g).rt = s.rt := rfl
@[simp] theorem State.setEng_pdm (e : Nat) (g : Engine → Engine) : (s.setEng e g).pdm = s.pdm := rfl
@[simp] theorem State.setEng_tp (e : Nat) (g : Engine → Engine) : (s.setEng e g).tp = s.tp := rfl
@[simp] theorem State.setEng_asrc (e : Nat) (g : Engine → Engine) : (s.setEng e g).asrc = s.asrc := rfl
@[simp] theorem State.setEng_sm (e : Nat) (g : Engine → Engine) : (s.setEng e g).sm = s.sm := rfl
@[simp] theorem State.setEng_vat (e : Nat) (g : Engine → Engine) : (s.setEng e g).vat = s.vat := rfl
@[simp] theorem State.setEng_ig (e : Nat) (g : Engine → Engine) : (s.setEng e g).ig = s.ig := rfl
@[simp] theorem State.setEng_dma (e : Nat) (g : Engine → Engine) : (s.setEng e g).dma = s.dma := rfl
@[simp] theorem State.setEng_chime (e : Nat) (g : Engine → Engine) : (s.setEng e g).chime = s.chime := rfl
@[simp] theorem State.setEng_veh (e : Nat) (g : Engine → Engine) : (s.setEng e g).veh = s.veh := rfl
@[simp] theorem State.setEng_oc (e : Nat) (g : Engine → Engine) : (s.setEng e g).oc = s.oc := rfl
@[simp] theorem State.setEng_clk (e : Nat) (g : Engine → Engine) : (s.setEng e g).clk = s.clk := rfl
@[simp] theorem State.setEng_boot (e : Nat) (g : Engine → Engine) : (s.setEng e g).boot = s.boot := rfl
@[simp] theorem State.setEng_hp (e : Nat) (g : Engine → Engine) : (s.setEng e g).hp = s.hp := rfl
@[simp] theorem State.setEng_latches (e : Nat) (g : Engine → Engine) : (s.setEng e g).latches = s.latches := rfl
@[simp] theorem State.setEng_resp (e : Nat) (g : Engine → Engine) : (s.setEng e g).resp = s.resp := rfl
@[simp] theorem State.setEng_rdata (e : Nat) (g : Engine → Engine) : (s.setEng e g).rdata = s.rdata := rfl
@[simp] theorem State.setEng_rbytes (e : Nat) (g : Engine → Engine) : (s.setEng e g).rbytes = s.rbytes := rfl
@[simp] theorem State.setEng_free (e : Nat) (g : Engine → Engine) : (s.setEng e g).free = s.free := rfl

/-! `State.setCore` -/

@[simp] theorem State.setCore_pending (c : Nat) (g : Core → Core) : (s.setCore c g).pending = s.pending := rfl
@[simp] theorem State.setCore_regs (c : Nat) (g : Core → Core) : (s.setCore c g).regs = s.regs := rfl
@[simp] theorem State.setCore_mem (c : Nat) (g : Core → Core) : (s.setCore c g).mem = s.mem := rfl
@[simp] theorem State.setCore_sys (c : Nat) (g : Core → Core) : (s.setCore c g).sys = s.sys := rfl
@[simp] theorem State.setCore_te (c : Nat) (g : Core → Core) : (s.setCore c g).te = s.te := rfl
@[simp] theorem State.setCore_md (c : Nat) (g : Core → Core) : (s.setCore c g).md = s.md := rfl
@[simp] theorem State.setCore_mig (c : Nat) (g : Core → Core) : (s.setCore c g).mig = s.mig := rfl
@[simp] theorem State.setCore_dom (c : Nat) (g : Core → Core) : (s.setCore c g).dom = s.dom := rfl
@[simp] theorem State.setCore_rt (c : Nat) (g : Core → Core) : (s.setCore c g).rt = s.rt := rfl
@[simp] theorem State.setCore_pdm (c : Nat) (g : Core → Core) : (s.setCore c g).pdm = s.pdm := rfl
@[simp] theorem State.setCore_tp (c : Nat) (g : Core → Core) : (s.setCore c g).tp = s.tp := rfl
@[simp] theorem State.setCore_asrc (c : Nat) (g : Core → Core) : (s.setCore c g).asrc = s.asrc := rfl
@[simp] theorem State.setCore_sm (c : Nat) (g : Core → Core) : (s.setCore c g).sm = s.sm := rfl
@[simp] theorem State.setCore_vat (c : Nat) (g : Core → Core) : (s.setCore c g).vat = s.vat := rfl
@[simp] theorem State.setCore_dma (c : Nat) (g : Core → Core) : (s.setCore c g).dma = s.dma := rfl
@[simp] theorem State.setCore_chime (c : Nat) (g : Core → Core) : (s.setCore c g).chime = s.chime := rfl
@[simp] theorem State.setCore_veh (c : Nat) (g : Core → Core) : (s.setCore c g).veh = s.veh := rfl
@[simp] theorem State.setCore_oc (c : Nat) (g : Core → Core) : (s.setCore c g).oc = s.oc := rfl
@[simp] theorem State.setCore_clk (c : Nat) (g : Core → Core) : (s.setCore c g).clk = s.clk := rfl
@[simp] theorem State.setCore_boot (c : Nat) (g : Core → Core) : (s.setCore c g).boot = s.boot := rfl
@[simp] theorem State.setCore_hp (c : Nat) (g : Core → Core) : (s.setCore c g).hp = s.hp := rfl
@[simp] theorem State.setCore_latches (c : Nat) (g : Core → Core) : (s.setCore c g).latches = s.latches := rfl
@[simp] theorem State.setCore_resp (c : Nat) (g : Core → Core) : (s.setCore c g).resp = s.resp := rfl
@[simp] theorem State.setCore_rdata (c : Nat) (g : Core → Core) : (s.setCore c g).rdata = s.rdata := rfl
@[simp] theorem State.setCore_rbytes (c : Nat) (g : Core → Core) : (s.setCore c g).rbytes = s.rbytes := rfl
@[simp] theorem State.setCore_free (c : Nat) (g : Core → Core) : (s.setCore c g).free = s.free := rfl

/-! `State.setSys` -/

@[simp] theorem State.setSys_pending (g : Sys → Sys) : (s.setSys g).pending = s.pending := rfl
@[simp] theorem State.setSys_regs (g : Sys → Sys) : (s.setSys g).regs = s.regs := rfl
@[simp] theorem State.setSys_mem (g : Sys → Sys) : (s.setSys g).mem = s.mem := rfl
@[simp] theorem State.setSys_te (g : Sys → Sys) : (s.setSys g).te = s.te := rfl
@[simp] theorem State.setSys_md (g : Sys → Sys) : (s.setSys g).md = s.md := rfl
@[simp] theorem State.setSys_mig (g : Sys → Sys) : (s.setSys g).mig = s.mig := rfl
@[simp] theorem State.setSys_dom (g : Sys → Sys) : (s.setSys g).dom = s.dom := rfl
@[simp] theorem State.setSys_rt (g : Sys → Sys) : (s.setSys g).rt = s.rt := rfl
@[simp] theorem State.setSys_pdm (g : Sys → Sys) : (s.setSys g).pdm = s.pdm := rfl
@[simp] theorem State.setSys_tp (g : Sys → Sys) : (s.setSys g).tp = s.tp := rfl
@[simp] theorem State.setSys_asrc (g : Sys → Sys) : (s.setSys g).asrc = s.asrc := rfl
@[simp] theorem State.setSys_sm (g : Sys → Sys) : (s.setSys g).sm = s.sm := rfl
@[simp] theorem State.setSys_vat (g : Sys → Sys) : (s.setSys g).vat = s.vat := rfl
@[simp] theorem State.setSys_ig (g : Sys → Sys) : (s.setSys g).ig = s.ig := rfl
@[simp] theorem State.setSys_dma (g : Sys → Sys) : (s.setSys g).dma = s.dma := rfl
@[simp] theorem State.setSys_chime (g : Sys → Sys) : (s.setSys g).chime = s.chime := rfl
@[simp] theorem State.setSys_veh (g : Sys → Sys) : (s.setSys g).veh = s.veh := rfl
@[simp] theorem State.setSys_oc (g : Sys → Sys) : (s.setSys g).oc = s.oc := rfl
@[simp] theorem State.setSys_clk (g : Sys → Sys) : (s.setSys g).clk = s.clk := rfl
@[simp] theorem State.setSys_boot (g : Sys → Sys) : (s.setSys g).boot = s.boot := rfl
@[simp] theorem State.setSys_hp (g : Sys → Sys) : (s.setSys g).hp = s.hp := rfl
@[simp] theorem State.setSys_latches (g : Sys → Sys) : (s.setSys g).latches = s.latches := rfl
@[simp] theorem State.setSys_resp (g : Sys → Sys) : (s.setSys g).resp = s.resp := rfl
@[simp] theorem State.setSys_rdata (g : Sys → Sys) : (s.setSys g).rdata = s.rdata := rfl
@[simp] theorem State.setSys_rbytes (g : Sys → Sys) : (s.setSys g).rbytes = s.rbytes := rfl
@[simp] theorem State.setSys_free (g : Sys → Sys) : (s.setSys g).free = s.free := rfl

/-! `State.setBoot` -/

@[simp] theorem State.setBoot_pending (g : Boot → Boot) : (s.setBoot g).pending = s.pending := rfl
@[simp] theorem State.setBoot_regs (g : Boot → Boot) : (s.setBoot g).regs = s.regs := rfl
@[simp] theorem State.setBoot_mem (g : Boot → Boot) : (s.setBoot g).mem = s.mem := rfl
@[simp] theorem State.setBoot_sys (g : Boot → Boot) : (s.setBoot g).sys = s.sys := rfl
@[simp] theorem State.setBoot_te (g : Boot → Boot) : (s.setBoot g).te = s.te := rfl
@[simp] theorem State.setBoot_md (g : Boot → Boot) : (s.setBoot g).md = s.md := rfl
@[simp] theorem State.setBoot_mig (g : Boot → Boot) : (s.setBoot g).mig = s.mig := rfl
@[simp] theorem State.setBoot_dom (g : Boot → Boot) : (s.setBoot g).dom = s.dom := rfl
@[simp] theorem State.setBoot_rt (g : Boot → Boot) : (s.setBoot g).rt = s.rt := rfl
@[simp] theorem State.setBoot_pdm (g : Boot → Boot) : (s.setBoot g).pdm = s.pdm := rfl
@[simp] theorem State.setBoot_tp (g : Boot → Boot) : (s.setBoot g).tp = s.tp := rfl
@[simp] theorem State.setBoot_asrc (g : Boot → Boot) : (s.setBoot g).asrc = s.asrc := rfl
@[simp] theorem State.setBoot_sm (g : Boot → Boot) : (s.setBoot g).sm = s.sm := rfl
@[simp] theorem State.setBoot_vat (g : Boot → Boot) : (s.setBoot g).vat = s.vat := rfl
@[simp] theorem State.setBoot_ig (g : Boot → Boot) : (s.setBoot g).ig = s.ig := rfl
@[simp] theorem State.setBoot_dma (g : Boot → Boot) : (s.setBoot g).dma = s.dma := rfl
@[simp] theorem State.setBoot_chime (g : Boot → Boot) : (s.setBoot g).chime = s.chime := rfl
@[simp] theorem State.setBoot_veh (g : Boot → Boot) : (s.setBoot g).veh = s.veh := rfl
@[simp] theorem State.setBoot_oc (g : Boot → Boot) : (s.setBoot g).oc = s.oc := rfl
@[simp] theorem State.setBoot_clk (g : Boot → Boot) : (s.setBoot g).clk = s.clk := rfl
@[simp] theorem State.setBoot_hp (g : Boot → Boot) : (s.setBoot g).hp = s.hp := rfl
@[simp] theorem State.setBoot_latches (g : Boot → Boot) : (s.setBoot g).latches = s.latches := rfl
@[simp] theorem State.setBoot_resp (g : Boot → Boot) : (s.setBoot g).resp = s.resp := rfl
@[simp] theorem State.setBoot_rdata (g : Boot → Boot) : (s.setBoot g).rdata = s.rdata := rfl
@[simp] theorem State.setBoot_rbytes (g : Boot → Boot) : (s.setBoot g).rbytes = s.rbytes := rfl
@[simp] theorem State.setBoot_free (g : Boot → Boot) : (s.setBoot g).free = s.free := rfl

/-! `State.setVat` -/

@[simp] theorem State.setVat_pending (g : VatS → VatS) : (s.setVat g).pending = s.pending := rfl
@[simp] theorem State.setVat_regs (g : VatS → VatS) : (s.setVat g).regs = s.regs := rfl
@[simp] theorem State.setVat_mem (g : VatS → VatS) : (s.setVat g).mem = s.mem := rfl
@[simp] theorem State.setVat_sys (g : VatS → VatS) : (s.setVat g).sys = s.sys := rfl
@[simp] theorem State.setVat_te (g : VatS → VatS) : (s.setVat g).te = s.te := rfl
@[simp] theorem State.setVat_md (g : VatS → VatS) : (s.setVat g).md = s.md := rfl
@[simp] theorem State.setVat_mig (g : VatS → VatS) : (s.setVat g).mig = s.mig := rfl
@[simp] theorem State.setVat_dom (g : VatS → VatS) : (s.setVat g).dom = s.dom := rfl
@[simp] theorem State.setVat_rt (g : VatS → VatS) : (s.setVat g).rt = s.rt := rfl
@[simp] theorem State.setVat_pdm (g : VatS → VatS) : (s.setVat g).pdm = s.pdm := rfl
@[simp] theorem State.setVat_tp (g : VatS → VatS) : (s.setVat g).tp = s.tp := rfl
@[simp] theorem State.setVat_asrc (g : VatS → VatS) : (s.setVat g).asrc = s.asrc := rfl
@[simp] theorem State.setVat_sm (g : VatS → VatS) : (s.setVat g).sm = s.sm := rfl
@[simp] theorem State.setVat_ig (g : VatS → VatS) : (s.setVat g).ig = s.ig := rfl
@[simp] theorem State.setVat_dma (g : VatS → VatS) : (s.setVat g).dma = s.dma := rfl
@[simp] theorem State.setVat_chime (g : VatS → VatS) : (s.setVat g).chime = s.chime := rfl
@[simp] theorem State.setVat_veh (g : VatS → VatS) : (s.setVat g).veh = s.veh := rfl
@[simp] theorem State.setVat_oc (g : VatS → VatS) : (s.setVat g).oc = s.oc := rfl
@[simp] theorem State.setVat_clk (g : VatS → VatS) : (s.setVat g).clk = s.clk := rfl
@[simp] theorem State.setVat_boot (g : VatS → VatS) : (s.setVat g).boot = s.boot := rfl
@[simp] theorem State.setVat_hp (g : VatS → VatS) : (s.setVat g).hp = s.hp := rfl
@[simp] theorem State.setVat_latches (g : VatS → VatS) : (s.setVat g).latches = s.latches := rfl
@[simp] theorem State.setVat_resp (g : VatS → VatS) : (s.setVat g).resp = s.resp := rfl
@[simp] theorem State.setVat_rdata (g : VatS → VatS) : (s.setVat g).rdata = s.rdata := rfl
@[simp] theorem State.setVat_rbytes (g : VatS → VatS) : (s.setVat g).rbytes = s.rbytes := rfl
@[simp] theorem State.setVat_free (g : VatS → VatS) : (s.setVat g).free = s.free := rfl

/-! `State.setChime` -/

@[simp] theorem State.setChime_pending (g : Chime → Chime) : (s.setChime g).pending = s.pending := rfl
@[simp] theorem State.setChime_regs (g : Chime → Chime) : (s.setChime g).regs = s.regs := rfl
@[simp] theorem State.setChime_mem (g : Chime → Chime) : (s.setChime g).mem = s.mem := rfl
@[simp] theorem State.setChime_sys (g : Chime → Chime) : (s.setChime g).sys = s.sys := rfl
@[simp] theorem State.setChime_te (g : Chime → Chime) : (s.setChime g).te = s.te := rfl
@[simp] theorem State.setChime_md (g : Chime → Chime) : (s.setChime g).md = s.md := rfl
@[simp] theorem State.setChime_mig (g : Chime → Chime) : (s.setChime g).mig = s.mig := rfl
@[simp] theorem State.setChime_dom (g : Chime → Chime) : (s.setChime g).dom = s.dom := rfl
@[simp] theorem State.setChime_rt (g : Chime → Chime) : (s.setChime g).rt = s.rt := rfl
@[simp] theorem State.setChime_pdm (g : Chime → Chime) : (s.setChime g).pdm = s.pdm := rfl
@[simp] theorem State.setChime_tp (g : Chime → Chime) : (s.setChime g).tp = s.tp := rfl
@[simp] theorem State.setChime_asrc (g : Chime → Chime) : (s.setChime g).asrc = s.asrc := rfl
@[simp] theorem State.setChime_sm (g : Chime → Chime) : (s.setChime g).sm = s.sm := rfl
@[simp] theorem State.setChime_vat (g : Chime → Chime) : (s.setChime g).vat = s.vat := rfl
@[simp] theorem State.setChime_ig (g : Chime → Chime) : (s.setChime g).ig = s.ig := rfl
@[simp] theorem State.setChime_dma (g : Chime → Chime) : (s.setChime g).dma = s.dma := rfl
@[simp] theorem State.setChime_veh (g : Chime → Chime) : (s.setChime g).veh = s.veh := rfl
@[simp] theorem State.setChime_oc (g : Chime → Chime) : (s.setChime g).oc = s.oc := rfl
@[simp] theorem State.setChime_clk (g : Chime → Chime) : (s.setChime g).clk = s.clk := rfl
@[simp] theorem State.setChime_boot (g : Chime → Chime) : (s.setChime g).boot = s.boot := rfl
@[simp] theorem State.setChime_hp (g : Chime → Chime) : (s.setChime g).hp = s.hp := rfl
@[simp] theorem State.setChime_latches (g : Chime → Chime) : (s.setChime g).latches = s.latches := rfl
@[simp] theorem State.setChime_resp (g : Chime → Chime) : (s.setChime g).resp = s.resp := rfl
@[simp] theorem State.setChime_rdata (g : Chime → Chime) : (s.setChime g).rdata = s.rdata := rfl
@[simp] theorem State.setChime_rbytes (g : Chime → Chime) : (s.setChime g).rbytes = s.rbytes := rfl
@[simp] theorem State.setChime_free (g : Chime → Chime) : (s.setChime g).free = s.free := rfl

/-! `State.setClk` -/

@[simp] theorem State.setClk_pending (g : Clk → Clk) : (s.setClk g).pending = s.pending := rfl
@[simp] theorem State.setClk_regs (g : Clk → Clk) : (s.setClk g).regs = s.regs := rfl
@[simp] theorem State.setClk_mem (g : Clk → Clk) : (s.setClk g).mem = s.mem := rfl
@[simp] theorem State.setClk_sys (g : Clk → Clk) : (s.setClk g).sys = s.sys := rfl
@[simp] theorem State.setClk_te (g : Clk → Clk) : (s.setClk g).te = s.te := rfl
@[simp] theorem State.setClk_md (g : Clk → Clk) : (s.setClk g).md = s.md := rfl
@[simp] theorem State.setClk_mig (g : Clk → Clk) : (s.setClk g).mig = s.mig := rfl
@[simp] theorem State.setClk_dom (g : Clk → Clk) : (s.setClk g).dom = s.dom := rfl
@[simp] theorem State.setClk_rt (g : Clk → Clk) : (s.setClk g).rt = s.rt := rfl
@[simp] theorem State.setClk_pdm (g : Clk → Clk) : (s.setClk g).pdm = s.pdm := rfl
@[simp] theorem State.setClk_tp (g : Clk → Clk) : (s.setClk g).tp = s.tp := rfl
@[simp] theorem State.setClk_asrc (g : Clk → Clk) : (s.setClk g).asrc = s.asrc := rfl
@[simp] theorem State.setClk_sm (g : Clk → Clk) : (s.setClk g).sm = s.sm := rfl
@[simp] theorem State.setClk_vat (g : Clk → Clk) : (s.setClk g).vat = s.vat := rfl
@[simp] theorem State.setClk_ig (g : Clk → Clk) : (s.setClk g).ig = s.ig := rfl
@[simp] theorem State.setClk_dma (g : Clk → Clk) : (s.setClk g).dma = s.dma := rfl
@[simp] theorem State.setClk_chime (g : Clk → Clk) : (s.setClk g).chime = s.chime := rfl
@[simp] theorem State.setClk_veh (g : Clk → Clk) : (s.setClk g).veh = s.veh := rfl
@[simp] theorem State.setClk_oc (g : Clk → Clk) : (s.setClk g).oc = s.oc := rfl
@[simp] theorem State.setClk_boot (g : Clk → Clk) : (s.setClk g).boot = s.boot := rfl
@[simp] theorem State.setClk_hp (g : Clk → Clk) : (s.setClk g).hp = s.hp := rfl
@[simp] theorem State.setClk_latches (g : Clk → Clk) : (s.setClk g).latches = s.latches := rfl
@[simp] theorem State.setClk_resp (g : Clk → Clk) : (s.setClk g).resp = s.resp := rfl
@[simp] theorem State.setClk_rdata (g : Clk → Clk) : (s.setClk g).rdata = s.rdata := rfl
@[simp] theorem State.setClk_rbytes (g : Clk → Clk) : (s.setClk g).rbytes = s.rbytes := rfl
@[simp] theorem State.setClk_free (g : Clk → Clk) : (s.setClk g).free = s.free := rfl

/-! `State.setHp` -/

@[simp] theorem State.setHp_pending (h : Nat) (g : Port → Port) : (s.setHp h g).pending = s.pending := rfl
@[simp] theorem State.setHp_regs (h : Nat) (g : Port → Port) : (s.setHp h g).regs = s.regs := rfl
@[simp] theorem State.setHp_mem (h : Nat) (g : Port → Port) : (s.setHp h g).mem = s.mem := rfl
@[simp] theorem State.setHp_sys (h : Nat) (g : Port → Port) : (s.setHp h g).sys = s.sys := rfl
@[simp] theorem State.setHp_te (h : Nat) (g : Port → Port) : (s.setHp h g).te = s.te := rfl
@[simp] theorem State.setHp_md (h : Nat) (g : Port → Port) : (s.setHp h g).md = s.md := rfl
@[simp] theorem State.setHp_mig (h : Nat) (g : Port → Port) : (s.setHp h g).mig = s.mig := rfl
@[simp] theorem State.setHp_dom (h : Nat) (g : Port → Port) : (s.setHp h g).dom = s.dom := rfl
@[simp] theorem State.setHp_rt (h : Nat) (g : Port → Port) : (s.setHp h g).rt = s.rt := rfl
@[simp] theorem State.setHp_pdm (h : Nat) (g : Port → Port) : (s.setHp h g).pdm = s.pdm := rfl
@[simp] theorem State.setHp_tp (h : Nat) (g : Port → Port) : (s.setHp h g).tp = s.tp := rfl
@[simp] theorem State.setHp_asrc (h : Nat) (g : Port → Port) : (s.setHp h g).asrc = s.asrc := rfl
@[simp] theorem State.setHp_sm (h : Nat) (g : Port → Port) : (s.setHp h g).sm = s.sm := rfl
@[simp] theorem State.setHp_vat (h : Nat) (g : Port → Port) : (s.setHp h g).vat = s.vat := rfl
@[simp] theorem State.setHp_ig (h : Nat) (g : Port → Port) : (s.setHp h g).ig = s.ig := rfl
@[simp] theorem State.setHp_dma (h : Nat) (g : Port → Port) : (s.setHp h g).dma = s.dma := rfl
@[simp] theorem State.setHp_chime (h : Nat) (g : Port → Port) : (s.setHp h g).chime = s.chime := rfl
@[simp] theorem State.setHp_veh (h : Nat) (g : Port → Port) : (s.setHp h g).veh = s.veh := rfl
@[simp] theorem State.setHp_oc (h : Nat) (g : Port → Port) : (s.setHp h g).oc = s.oc := rfl
@[simp] theorem State.setHp_clk (h : Nat) (g : Port → Port) : (s.setHp h g).clk = s.clk := rfl
@[simp] theorem State.setHp_boot (h : Nat) (g : Port → Port) : (s.setHp h g).boot = s.boot := rfl
@[simp] theorem State.setHp_latches (h : Nat) (g : Port → Port) : (s.setHp h g).latches = s.latches := rfl
@[simp] theorem State.setHp_resp (h : Nat) (g : Port → Port) : (s.setHp h g).resp = s.resp := rfl
@[simp] theorem State.setHp_rdata (h : Nat) (g : Port → Port) : (s.setHp h g).rdata = s.rdata := rfl
@[simp] theorem State.setHp_rbytes (h : Nat) (g : Port → Port) : (s.setHp h g).rbytes = s.rbytes := rfl
@[simp] theorem State.setHp_free (h : Nat) (g : Port → Port) : (s.setHp h g).free = s.free := rfl

/-! `State.setPort` -/

@[simp] theorem State.setPort_pending (n : Nat) (g : Tp → Tp) : (s.setPort n g).pending = s.pending := rfl
@[simp] theorem State.setPort_regs (n : Nat) (g : Tp → Tp) : (s.setPort n g).regs = s.regs := rfl
@[simp] theorem State.setPort_mem (n : Nat) (g : Tp → Tp) : (s.setPort n g).mem = s.mem := rfl
@[simp] theorem State.setPort_sys (n : Nat) (g : Tp → Tp) : (s.setPort n g).sys = s.sys := rfl
@[simp] theorem State.setPort_te (n : Nat) (g : Tp → Tp) : (s.setPort n g).te = s.te := rfl
@[simp] theorem State.setPort_md (n : Nat) (g : Tp → Tp) : (s.setPort n g).md = s.md := rfl
@[simp] theorem State.setPort_mig (n : Nat) (g : Tp → Tp) : (s.setPort n g).mig = s.mig := rfl
@[simp] theorem State.setPort_dom (n : Nat) (g : Tp → Tp) : (s.setPort n g).dom = s.dom := rfl
@[simp] theorem State.setPort_rt (n : Nat) (g : Tp → Tp) : (s.setPort n g).rt = s.rt := rfl
@[simp] theorem State.setPort_pdm (n : Nat) (g : Tp → Tp) : (s.setPort n g).pdm = s.pdm := rfl
@[simp] theorem State.setPort_asrc (n : Nat) (g : Tp → Tp) : (s.setPort n g).asrc = s.asrc := rfl
@[simp] theorem State.setPort_sm (n : Nat) (g : Tp → Tp) : (s.setPort n g).sm = s.sm := rfl
@[simp] theorem State.setPort_vat (n : Nat) (g : Tp → Tp) : (s.setPort n g).vat = s.vat := rfl
@[simp] theorem State.setPort_ig (n : Nat) (g : Tp → Tp) : (s.setPort n g).ig = s.ig := rfl
@[simp] theorem State.setPort_dma (n : Nat) (g : Tp → Tp) : (s.setPort n g).dma = s.dma := rfl
@[simp] theorem State.setPort_chime (n : Nat) (g : Tp → Tp) : (s.setPort n g).chime = s.chime := rfl
@[simp] theorem State.setPort_veh (n : Nat) (g : Tp → Tp) : (s.setPort n g).veh = s.veh := rfl
@[simp] theorem State.setPort_oc (n : Nat) (g : Tp → Tp) : (s.setPort n g).oc = s.oc := rfl
@[simp] theorem State.setPort_clk (n : Nat) (g : Tp → Tp) : (s.setPort n g).clk = s.clk := rfl
@[simp] theorem State.setPort_boot (n : Nat) (g : Tp → Tp) : (s.setPort n g).boot = s.boot := rfl
@[simp] theorem State.setPort_hp (n : Nat) (g : Tp → Tp) : (s.setPort n g).hp = s.hp := rfl
@[simp] theorem State.setPort_latches (n : Nat) (g : Tp → Tp) : (s.setPort n g).latches = s.latches := rfl
@[simp] theorem State.setPort_resp (n : Nat) (g : Tp → Tp) : (s.setPort n g).resp = s.resp := rfl
@[simp] theorem State.setPort_rdata (n : Nat) (g : Tp → Tp) : (s.setPort n g).rdata = s.rdata := rfl
@[simp] theorem State.setPort_rbytes (n : Nat) (g : Tp → Tp) : (s.setPort n g).rbytes = s.rbytes := rfl
@[simp] theorem State.setPort_free (n : Nat) (g : Tp → Tp) : (s.setPort n g).free = s.free := rfl

/-! `State.setGrp` -/

@[simp] theorem State.setGrp_pending (n : Nat) (g : Asrc → Asrc) : (s.setGrp n g).pending = s.pending := rfl
@[simp] theorem State.setGrp_regs (n : Nat) (g : Asrc → Asrc) : (s.setGrp n g).regs = s.regs := rfl
@[simp] theorem State.setGrp_mem (n : Nat) (g : Asrc → Asrc) : (s.setGrp n g).mem = s.mem := rfl
@[simp] theorem State.setGrp_sys (n : Nat) (g : Asrc → Asrc) : (s.setGrp n g).sys = s.sys := rfl
@[simp] theorem State.setGrp_te (n : Nat) (g : Asrc → Asrc) : (s.setGrp n g).te = s.te := rfl
@[simp] theorem State.setGrp_md (n : Nat) (g : Asrc → Asrc) : (s.setGrp n g).md = s.md := rfl
@[simp] theorem State.setGrp_mig (n : Nat) (g : Asrc → Asrc) : (s.setGrp n g).mig = s.mig := rfl
@[simp] theorem State.setGrp_dom (n : Nat) (g : Asrc → Asrc) : (s.setGrp n g).dom = s.dom := rfl
@[simp] theorem State.setGrp_rt (n : Nat) (g : Asrc → Asrc) : (s.setGrp n g).rt = s.rt := rfl
@[simp] theorem State.setGrp_pdm (n : Nat) (g : Asrc → Asrc) : (s.setGrp n g).pdm = s.pdm := rfl
@[simp] theorem State.setGrp_tp (n : Nat) (g : Asrc → Asrc) : (s.setGrp n g).tp = s.tp := rfl
@[simp] theorem State.setGrp_sm (n : Nat) (g : Asrc → Asrc) : (s.setGrp n g).sm = s.sm := rfl
@[simp] theorem State.setGrp_vat (n : Nat) (g : Asrc → Asrc) : (s.setGrp n g).vat = s.vat := rfl
@[simp] theorem State.setGrp_ig (n : Nat) (g : Asrc → Asrc) : (s.setGrp n g).ig = s.ig := rfl
@[simp] theorem State.setGrp_dma (n : Nat) (g : Asrc → Asrc) : (s.setGrp n g).dma = s.dma := rfl
@[simp] theorem State.setGrp_chime (n : Nat) (g : Asrc → Asrc) : (s.setGrp n g).chime = s.chime := rfl
@[simp] theorem State.setGrp_veh (n : Nat) (g : Asrc → Asrc) : (s.setGrp n g).veh = s.veh := rfl
@[simp] theorem State.setGrp_oc (n : Nat) (g : Asrc → Asrc) : (s.setGrp n g).oc = s.oc := rfl
@[simp] theorem State.setGrp_clk (n : Nat) (g : Asrc → Asrc) : (s.setGrp n g).clk = s.clk := rfl
@[simp] theorem State.setGrp_boot (n : Nat) (g : Asrc → Asrc) : (s.setGrp n g).boot = s.boot := rfl
@[simp] theorem State.setGrp_hp (n : Nat) (g : Asrc → Asrc) : (s.setGrp n g).hp = s.hp := rfl
@[simp] theorem State.setGrp_latches (n : Nat) (g : Asrc → Asrc) : (s.setGrp n g).latches = s.latches := rfl
@[simp] theorem State.setGrp_resp (n : Nat) (g : Asrc → Asrc) : (s.setGrp n g).resp = s.resp := rfl
@[simp] theorem State.setGrp_rdata (n : Nat) (g : Asrc → Asrc) : (s.setGrp n g).rdata = s.rdata := rfl
@[simp] theorem State.setGrp_rbytes (n : Nat) (g : Asrc → Asrc) : (s.setGrp n g).rbytes = s.rbytes := rfl
@[simp] theorem State.setGrp_free (n : Nat) (g : Asrc → Asrc) : (s.setGrp n g).free = s.free := rfl

/-! `State.setDch` -/

@[simp] theorem State.setDch_pending (n : Nat) (g : DmaCh → DmaCh) : (s.setDch n g).pending = s.pending := rfl
@[simp] theorem State.setDch_regs (n : Nat) (g : DmaCh → DmaCh) : (s.setDch n g).regs = s.regs := rfl
@[simp] theorem State.setDch_mem (n : Nat) (g : DmaCh → DmaCh) : (s.setDch n g).mem = s.mem := rfl
@[simp] theorem State.setDch_sys (n : Nat) (g : DmaCh → DmaCh) : (s.setDch n g).sys = s.sys := rfl
@[simp] theorem State.setDch_te (n : Nat) (g : DmaCh → DmaCh) : (s.setDch n g).te = s.te := rfl
@[simp] theorem State.setDch_md (n : Nat) (g : DmaCh → DmaCh) : (s.setDch n g).md = s.md := rfl
@[simp] theorem State.setDch_mig (n : Nat) (g : DmaCh → DmaCh) : (s.setDch n g).mig = s.mig := rfl
@[simp] theorem State.setDch_dom (n : Nat) (g : DmaCh → DmaCh) : (s.setDch n g).dom = s.dom := rfl
@[simp] theorem State.setDch_rt (n : Nat) (g : DmaCh → DmaCh) : (s.setDch n g).rt = s.rt := rfl
@[simp] theorem State.setDch_pdm (n : Nat) (g : DmaCh → DmaCh) : (s.setDch n g).pdm = s.pdm := rfl
@[simp] theorem State.setDch_tp (n : Nat) (g : DmaCh → DmaCh) : (s.setDch n g).tp = s.tp := rfl
@[simp] theorem State.setDch_asrc (n : Nat) (g : DmaCh → DmaCh) : (s.setDch n g).asrc = s.asrc := rfl
@[simp] theorem State.setDch_sm (n : Nat) (g : DmaCh → DmaCh) : (s.setDch n g).sm = s.sm := rfl
@[simp] theorem State.setDch_vat (n : Nat) (g : DmaCh → DmaCh) : (s.setDch n g).vat = s.vat := rfl
@[simp] theorem State.setDch_ig (n : Nat) (g : DmaCh → DmaCh) : (s.setDch n g).ig = s.ig := rfl
@[simp] theorem State.setDch_chime (n : Nat) (g : DmaCh → DmaCh) : (s.setDch n g).chime = s.chime := rfl
@[simp] theorem State.setDch_veh (n : Nat) (g : DmaCh → DmaCh) : (s.setDch n g).veh = s.veh := rfl
@[simp] theorem State.setDch_oc (n : Nat) (g : DmaCh → DmaCh) : (s.setDch n g).oc = s.oc := rfl
@[simp] theorem State.setDch_clk (n : Nat) (g : DmaCh → DmaCh) : (s.setDch n g).clk = s.clk := rfl
@[simp] theorem State.setDch_boot (n : Nat) (g : DmaCh → DmaCh) : (s.setDch n g).boot = s.boot := rfl
@[simp] theorem State.setDch_hp (n : Nat) (g : DmaCh → DmaCh) : (s.setDch n g).hp = s.hp := rfl
@[simp] theorem State.setDch_latches (n : Nat) (g : DmaCh → DmaCh) : (s.setDch n g).latches = s.latches := rfl
@[simp] theorem State.setDch_resp (n : Nat) (g : DmaCh → DmaCh) : (s.setDch n g).resp = s.resp := rfl
@[simp] theorem State.setDch_rdata (n : Nat) (g : DmaCh → DmaCh) : (s.setDch n g).rdata = s.rdata := rfl
@[simp] theorem State.setDch_rbytes (n : Nat) (g : DmaCh → DmaCh) : (s.setDch n g).rbytes = s.rbytes := rfl
@[simp] theorem State.setDch_free (n : Nat) (g : DmaCh → DmaCh) : (s.setDch n g).free = s.free := rfl

end Sys2Proof.Machine
end

