-- ==== Sys2Proof/Machine/Pins.lean ====
section
/-! DEFINITION. What the pins carry: TDM ports (R274, R275, R278, R280, R291), host ports (R375, R376, R387, R388, R398 to R401),
clock outputs (R306, R312), interrupts (R396), and their states while PD1 is off (R460). -/

namespace Sys2Proof.Machine

/-- The level of a pin: high impedance, driven low, driven high, or driven to a level that the spec does not state. -/
inductive Level where
  | z
  | low
  | high
  | any
  deriving DecidableEq, Repr

/-- A bit driven on a pin. -/
def drive (b : Bool) : Level := if b then .high else .low

/-- Bit `i` of bytes in wire order, MSB first. -/
def wireBit (l : List Byte) (i : Nat) : Bool := ((l[i / 8]?).getD 0#8).getLsbD (7 - i % 8)

/-! ## TDM ports -/

/-- What drives BCLK: nothing (an input or high impedance), a low level, the APLL's DCO divided by `div` and delayed by `dly`
steps, or a REFIN input divided by `div`. -/
inductive Bclk where
  | z
  | low
  | apll (div dly : Nat)
  | refin (r div : Nat)
  deriving DecidableEq, Repr

/-- RDIV of port `n`; 0 acts as 64 (TPn_CLK). -/
def State.tpRdiv (s : State) (n : Nat) : Nat := if s.get (F.tpClkRdiv n) == 0 then 64 else s.get (F.tpClkRdiv n)

/-- BCLK of port `n`: an APLL master's is ENG_CLK × F ÷ C_A with the fine delay in force of its output (R278, R311). -/
def State.tpBclk (s : State) (n : Nat) : Bclk :=
  if !s.pd1On || !s.tpMaster n then .z
  else if s.tpState n == tpStopped || !s.tpClocked n then .low
  else if s.tpApll n then .apll (s.outDiv 1 (n + 5)) (ng s.clk.dly (outNo 1 (n + 5)) 0)
  else .refin (s.get (F.tpCfgClksrc n) - 1) (s.tpRdiv n)

/-- BCLK periods from the active FSYNC edge to the first slot bit (Table 10-1). -/
def State.tpOffset (s : State) (n : Nat) : Nat :=
  match s.get (F.tpCfgFmt n) with
  | 0 => 1
  | 1 => 0
  | _ => s.get (F.tpCfgDly1 n)

/-- FSYNC in BCLK period `b` after its active edge: 50 % duty with slot 0 low (I²S) or high (left-justified), or a pulse of
1 BCLK; FS_INV inverts it (Table 10-1). -/
def State.fsLevel (s : State) (n b : Nat) : Bool :=
  let plain :=
    match s.get (F.tpCfgFmt n) with
    | 0 => !decide (2 * b < s.tpF n)
    | 1 => decide (2 * b < s.tpF n)
    | _ => b == 0
  plain != s.flag (F.tpCfgFsInv n)

/-- FSYNC as the port drives it. -/
def State.tpFsync (s : State) (n b : Nat) : Level :=
  match s.tpBclk n with
  | .z => .z
  | .low => .low
  | _ => drive (s.fsLevel n b)

/-- SDOUT and FSYNC change with the falling edge of BCLK, and the inputs are sampled with the rising one; BCLK_INV exchanges the
edges (R275). True: outputs change with the falling edge. -/
def State.tpDriveFall (s : State) (n : Nat) : Bool := !s.flag (F.tpCfgBclkInv n)

/-- SDOUT in the BCLK period that is number `j` from the first slot bit of the running frame: MSB first; past the F-th bit as a
masked slot (R274, R280, R291). -/
def State.tpSdout (s : State) (n j : Nat) : Level :=
  let w := s.tpWidth n
  if !s.pd1On || s.tpState n == tpStopped || (s.port n).wire.isEmpty then .z
  else if s.tpF n ≤ j then (if s.flag (F.tpCfgMaskHiz n) then .z else .low)
  else match (s.port n).wire[j / w]? with
    | some (some v) => drive (v.testBit (w - 1 - j % w))
    | _ => .z

/-! ## Host ports -/

/-- An SPI clock that the part drives: idle level, phase, and T_SCK in PORT_CLK periods. -/
structure Sck where
  cpol : Bool
  cpha : Bool
  period : Nat
  deriving DecidableEq, Repr

/-- The header's FLASH byte (R426). -/
def State.flashByte (s : State) : Nat := leAt s.boot.hdr 0x1D 1

/-- The first address of the flash read under way, and whether it has 4 bytes: the header's reads at 0, then the stage's first
byte, for stage 0 behind the header (R426, R431). -/
def State.bootAddr (s : State) : Nat × Bool :=
  match s.boot.ph with
  | 1 => (0, false)
  | 2 => (0, true)
  | _ => (if s.boot.stage = 0 then 0x40 else s.stageFrom s.boot.stage, s.flashByte.testBit 1)

/-- The bytes with which a flash read begins on SDO: command, address, and the dummy clocks of a fast read (R401, R426). -/
def State.bootCmd (s : State) : List Byte :=
  let fast := s.boot.ph == 3 && s.flashByte.testBit 0
  let a := BitVec.ofNat 32 s.bootAddr.1
  [if fast then 0x0B#8 else 0x03#8] ++ (if s.bootAddr.2 then beBytes a else (beBytes a).drop 1) ++ (if fast then [0#8] else [])

/-- SDIV of the flash read under way: 12.5 MHz for a header, else the header's, from 2 to 8 (R426). -/
def State.bootDiv (s : State) : Nat := if s.boot.ph == 3 then max 2 (min 8 (fieldOf s.flashByte 4 4)) else 8

/-- SCK as port `h` drives it: the boot sequencer's in mode 0, a master port's until another master is seen (R398, R400, R401). -/
def State.sckOut (s : State) (h : Nat) : Option Sck :=
  if !s.pd1On then none
  else if s.bootMasters h then (if (s.hport h).off && !s.bootReading then none else some ⟨false, false, 2 * s.bootDiv⟩)
  else if s.flag (F.hpCfgMaster h) && !(s.hport h).off then
    some ⟨s.flag (F.hpCfgCpol h), s.flag (F.hpCfgCpha h), 2 * max 2 (s.get (F.hpCfgSdiv h))⟩
  else none

/-- Port `h` drives SEL_N low; released, it is pulled up (R398, R399). -/
def State.selOut (s : State) (h : Nat) : Level :=
  if s.pd1On && ((s.bootMasters h && s.bootReading) || (s.hport h).mrun) then .low else .z

/-- PORT_CLK periods from the fall of SEL_N to the first SCK edge, and from the last edge to its release, of a master frame
(Table 13-8). -/
def State.mLead (s : State) (h : Nat) : Nat := s.get (F.hpDlyLead h) + max 2 (s.get (F.hpCfgSdiv h))
def State.mLag (s : State) (h : Nat) : Nat := s.get (F.hpDlyLag h) + max 2 (s.get (F.hpCfgSdiv h))

/-- What a slave shifts as bit `i` of the frame in progress: its ready reply and then 0, the busy pattern, or 0 (R387, R388). -/
def State.slaveBit (s : State) (h i : Nat) : Bool :=
  match (s.hport h).mode, (s.hport h).ready with
  | 1, some r => wireBit (r.wire (s.flag (F.hpCfgRcrc h))) i
  | 2, _ => wireBit [0x5A#8] (i % 8)
  | _, _ => false

/-- Bit `i` that SDO of port `h` carries in the frame in progress. A slave is at high impedance while SEL_N is high or EN is 0
(R375); a master shifts HPn_MTX from bit 31 of word 0 on (R399); the boot sequencer shifts its read command (R401). -/
def State.sdo (s : State) (h i : Nat) : Level :=
  if !s.pd1On then .z
  else if s.bootMasters h then
    (if (s.hport h).off && !s.bootReading then .z
     else if s.bootReading && decide (i < 8 * s.bootCmd.length) then drive (wireBit s.bootCmd i) else .any)
  else if s.flag (F.hpCfgMaster h) then
    (if (s.hport h).off then .z
     else if (s.hport h).mrun && decide (i < s.get (F.hpLenLen h)) then drive ((s.rd (R.hpMtx h (i / 32))).getLsbD (31 - i % 32))
     else .any)
  else if !s.flag (F.hpCfgEn h) || !(s.hport h).low then .z
  else drive (s.slaveBit h i)

/-! ## Clock outputs, interrupts and the chime -/

/-- Output `k` of PLL `p` runs; gated or disabled it is held low (R306, R312). -/
def State.outRuns (s : State) (p k : Nat) : Bool :=
  s.pd1On && s.pllLocked p && (if isMclk p k then s.flag (F.pllOutCfgAct 1 k) else s.outEn p k)

/-- IRQn_N is low, or released (R396, R460). -/
def State.irqPin (s : State) (h : Nat) : Level := if s.pd1On && s.irqOut h then .low else .z

/-- CHIMEP and CHIMEN at `t` 512ths of a tone period (R419); at high impedance while PD0 is in reset (R460). -/
def State.chimePins (s : State) (t : Nat) : Level × Level :=
  if s.boot.step == 0 then (.z, .z)
  else match s.chimeOut with
    | some (_, level) => (drive (decide (t < level)), drive (decide (256 ≤ t) && decide (t < 256 + level)))
    | none => (.low, .low)

end Sys2Proof.Machine
end

