-- ==== Sys2Proof/WellFormed.lean ====
section
/-! DEFINITION. Which commands are well-formed: the operands lie in the ranges that their rows and registers give. `exec` is
total on the others too; the check says which commands the world outside can send. -/

namespace Sys2Proof

/-- `lo` ≤ `a` ≤ `hi`. -/
def inRange (lo hi a : Nat) : Bool := decide (lo ≤ a) && decide (a ≤ hi)

/-- The access sizes of R332, in bytes. -/
def sizeOk (n : Nat) : Bool := [1, 2, 4, 8, 16].contains n

/-- A cycle of a domain-A tick, at the longest of Table 01-5. -/
def cycOk (c : Nat) : Bool := decide (c < 12288)

/-- Output `k` exists at PLL `p` (Table 11-2). -/
def outOk (p : Fin 2) (k : Fin 14) : Bool := p == 1 || decide (k.val < 4)

/-- The identifier fits its format, a remote frame is classical, only an FD frame switches its rate, and the data field has a length of its format (R405). -/
def CanFrame.wf (f : CanFrame) : Bool :=
  decide (f.id < if f.ext then 2 ^ 29 else 2 ^ 11) && !(f.rtr && f.fd) && (!f.brs || f.fd) && (!f.rtr || f.data.isEmpty) &&
  (if f.fd then [0, 1, 2, 3, 4, 5, 6, 7, 8, 12, 16, 20, 24, 32, 48, 64].contains f.data.length
   else decide (f.data.length ≤ 8))

/-- The command is well-formed. A command whose operands are all of bounded types needs no check. -/
def Instr.wf : Instr → Bool
  | .registerWrite _ a _ size cyc => inRange 0x08000000 0x0FFFFFFF a.toNat && sizeOk size && cycOk cyc
  | .readToClear _ a => inRange 0x08000000 0x0FFFFFFF a.toNat
  | .rlLowRead _ a => inRange 0x08000000 0x0FFFFFFF a.toNat
  | .engineStartRequest _ _ cyc => cycOk cyc
  | .engineStopRequest _ _ cyc => cycOk cyc
  | .liveHold _ _ _ cyc => cycOk cyc
  | .programMemoryWrite _ _ off _ => decide (off < 0x18000) && decide (off % 4 = 0)
  | .liveWordWrite _ _ _ _ cyc => cycOk cyc
  | .delayStoreFabricAccess _ _ off _ x => decide (off < 0x100000) && sizeOk x.bytes.length
  | .commitRequest _ seq mask cyc => decide (seq < 2 ^ 16) && decide (mask < 2 ^ 12) && cycOk cyc
  | .shadowWrite _ a _ => decide (a.toNat % 4 = 0)
  | .activeViewWrite _ a _ => decide (a.toNat % 4 = 0)
  | .migrationMove _ v => v.getLsbD 31 && v.extractLsb' 12 2 == 0#2
  | .twinJoin _ v => v.getLsbD 31 && v.extractLsb' 12 2 == 1#2
  | .lateStart _ v => v.getLsbD 31 && v.extractLsb' 12 2 == 2#2
  | .bridgeEnable _ _ v => v.getLsbD 0
  | .bridgeDisable _ _ v => !v.getLsbD 0
  | .transitionEnd i => decide (i < 2048)
  | .gateBlockEnd n => decide (n < 256)
  | .scaleRampEnd n => decide (n < 256)
  | .igSubmit c => cycOk c.cyc
  | .fldComplete c _ => cycOk c.cyc
  | .fstComplete c _ => cycOk c.cyc
  | .itemCompletion c => cycOk c.cyc
  | .localMemoryFabricAccess _ _ off _ x _ => decide (off < 0x40000) && sizeOk x.bytes.length
  | .itemRelease flow => decide (flow < 64)
  | .inputFrameComplete _ _ _ words => decide (words.length ≤ 16)
  | .pllDividerWrite _ p k _ => outOk p k
  | .outputDelayWrite _ p k _ => outOk p k
  | .ochreWindowEnd offs => decide (offs.length ≤ 8)
  | .sharedMemoryAccess _ a _ data ecc _ => inRange 0 0x07FFFFFF a.toNat && sizeOk data.length && decide (ecc ≤ 2)
  | .bitSetWrite _ _ data _ => sizeOk data.length
  | .bitClearWrite _ _ data _ => sizeOk data.length
  | .mramWrite _ a size data => inRange 0x07000000 0x0707FFFF a.toNat && sizeOk size && decide (data.length ≤ 16)
  | .dmaAccessComplete n => cycOk n.cyc
  | .frameEnd _ _ extra cyc => decide (extra < 8) && cycOk cyc
  | .linkRead x => decide (x.n ≤ 126) && cycOk x.cyc
  | .linkWrite x => decide (x.n ≤ 126) && cycOk x.cyc
  | .linkRmw h => cycOk h.cyc
  | .linkCommit h => cycOk h.cyc
  | .masterFrameDone _ rx => decide (rx.length ≤ 128)
  | .mmFault x => decide (x.n ≤ 4096) && decide (x.rx.length ≤ 128)
  | .canFrameReceived f cyc => f.wf && cycOk cyc
  | .signalTimeout _ cyc => cycOk cyc
  | .eventPinChange i _ => cycOk i.cyc
  | .debounceExpiry _ cyc => cycOk cyc
  | .chatterWindow _ cyc => cycOk cyc
  | .stuckTimeout _ cyc => cycOk cyc
  | .bootReadDone x => cycOk x.cyc
  | .warmVerifyDone cyc => cycOk cyc
  | .powerDomainUp d => decide (d ≠ 0)
  | .powerDomainDown d => decide (d ≠ 0)
  | .thermalEvaluation t0 t1 t2 t3 => [t0, t1, t2, t3].all (fun t => decide (-0x8000 ≤ t) && decide (t < 0x8000))
  | .outputDelayArrival p k => outOk p k
  | .headerReadDone bytes => decide (bytes.length ≤ 64)
  | .reepoch _ | .engineStart _ | .engineStop _ | .clrstate _ _ | .engineClearDone _ | .teMacSlot _ | .teDelayRead _
  | .teInterpolatedRead _ | .teDelayWrite _ | .teIllegalSlot _ | .teNop _ | .teLdi _ | .teMov _ | .teLdc _ | .teAdd _
  | .teSub _ | .teRsb _ | .teAdds _ | .teSubs _ | .teAnd _ | .teOr _ | .teXor _ | .teMin _ | .teMax _ | .teMinu _
  | .teMaxu _ | .teAsr _ | .teLsr _ | .teLsl _ | .teAbs _ | .teNeg _ | .teCmp _ | .teFop _ | .teFset _ | .teAmov _
  | .teAint _ | .teAadd _ | .teAccld _ | .teAccadd _ | .teEmit _ | .glideEnd _ _ | .overrideWordWrite _ _ _
  | .overrideSinkWrite _ _ _ | .pairStart _ _ | .twinDisable _ _ | .lockstepExit _ | .migrationAbort _
  | .migAliasWrite _ _ | .domainApply _ | .bridgeStart _ | .bridgeStop _ | .testGeneratorConfig _ _ _
  | .testGeneratorStep _ _ _ | .vatDispatch _ | .affinityWaitExpiry _ | .igNop _ | .igMac _ | .igMacp _ | .igMac2 _
  | .igMacq _ | .igMpy _ | .igClr _ | .igMova _ | .igMovac _ | .igAdd _ | .igSub _ | .igAdds _ | .igSubs _ | .igAnd _
  | .igOr _ | .igXor _ | .igMin _ | .igMax _ | .igMov _ | .igCmp _ | .igAddi _ | .igAsr _ | .igLsr _ | .igLsl _
  | .igNsb _ | .igAgset _ | .igAgadd _ | .igMts _ | .igMfs _ | .igLdiw _ | .igBr _ | .igCall _ | .igRet _ | .igRte _
  | .igRep _ | .igDone _ | .igFld _ | .igFst _ | .igFence _ | .igBkpt _ | .igLoad _ | .igStore _ | .igScaledStore _
  | .igIllegalBundle _ | .repeatIterationEnd _ | .exceptionTake _ | .watchdogExpiry _ | .debugHalt _ _
  | .debugStep _ _ | .debugResume _ _ | .doorbellWrite _ _ _ | .icinv _ _ | .icacheFillDone _ _ | .vatSubmit _ _
  | .completionRecordRead _ _ | .partitionConfig _ _ _ | .frameClockEnable _ _ _ | .frameClockStart _ | .frameFence _
  | .captureWindowOpen _ | .fenceCutoff _ | .portEnable _ _ | .portDisable _ _ | .portResyncRequest _ _
  | .portEnterRun _ | .outputFrameStart _ | .takePoint _ | .slotmaskWrite _ _ _ _ | .fsyncLoss _ | .fsyncReturn _
  | .asrcConfig _ _ _ _ | .asrcLoopTimer _ | .pdmGroupEnable _ _ _ | .pdmClockStart _ | .pdmWakeExpiry _
  | .pdmChannelEnable _ _ _ | .micStuck _ | .micStuckClear _ | .pllLock _ | .pllLossOfLock _ | .pllMultiplierWrite _ _
  | .pllApply _ | .mclkEnable _ _ _ | .mclkOutputStart _ | .referenceLos _ | .referenceEdgeReturn _ | .phaseStep _ _
  | .retentionRequest _ _ | .retentionEntered _ | .wakeRequest _ _ | .groupWakeDone _ | .unlock _ | .lock _
  | .vermSeal _ | .wipe _ | .wipeDone _ | .counterIncrement _ _ | .dmaStart _ _ _ | .dmaAbort _ _ _ | .dmaResume _ _ _
  | .dmaLinkReadDone _ | .dmaDescriptorLoaded _ | .frameStart _ | .linkNop _ | .linkSubmit _ | .linkSnapArm _
  | .linkSnapTrigger _ | .linkResend _ | .replyReady _ | .hostDoorbellWrite _ _ _ | .masterModeChange _ _ _ | .go _ _
  | .masterFrameStart _ _ | .canEnable _ _ | .test _ _ | .testStop _ | .reload _ | .resetPin _ | .stageReadStart _
  | .powerRequest _ _ | .pd1Fault _ | .sleepRetain _ | .sleepAonOnly _ | .arm _ | .trig _
  | .lifeCycleRequest _ _ | .drainBegin | .drainClearDone | .epochStart | .tickBoundary | .mirrorRingWrite
  | .commitCutoff | .commitApply | .reconcileEnd | .pairStartCheckDone | .migrationCheckDone | .sweepEnd
  | .handoverCutoff | .handover | .handoverVerify | .rateSetBoundary | .retuneStep | .mclkDividerBoundary
  | .mclkRestart | .crystalLoss | .crystalGood | .ochreSecond | .slewEnd | .sealDone | .tamper | .voltageGlitch
  | .clockGlitch | .mramWordWriteDone | .vinBrownOut | .canIntegrationDone | .chimeTonePeriod | .chimeStepEnd
  | .chimeOvercurrent | .vinValid | .powerOnReset | .crystalStartTimeout | .bootRetryBackoff | .warmStartWrite
  | .pd1FaultRetry | .sleepEntry | .parkInterval | .safeStateExit | .otpProgrammingDone => true

end Sys2Proof
end

