-- ==== Sys2Proof/Tests/Slice0.lean ====
section
/-! SUPPORT. Tests: ill-formed commands that the check refuses; for each statement with hypotheses, states and operands that
meet them, with what the command does there worked out from the spec by hand. -/

namespace Sys2Proof.Tests

set_option Elab.async false

open Sys2Proof.Machine

/-! ## Helpers -/

/-- Fields set one after another. -/
def up (l : List (Fld × Nat)) (s : State) : State := l.foldl (fun t p => t.put p.1 p.2) s

/-- The command answers a next state for which `p` holds. -/
def does (i : Instr) (s : State) (p : State → Bool) : Bool :=
  match exec i s with
  | .next t => p t
  | _ => false

/-- Every domain on, an epoch running, boot complete, the crystal good and the PLLs locked. -/
def live : State :=
  let s := up ((F.sysStateState, 1) :: (F.clkXtalXtalOk, 1) :: (F.pllStatusLocked 0, 1) :: (F.pllStatusLocked 1, 1) ::
    (F.pllStatusState 0, plLocked) :: (F.pllStatusState 1, plLocked) :: (List.range 9).map (fun d => (F.pwrStatState d, 3)))
    State.reset
  { s with sys := { s.sys with engClk := true }, boot := { s.boot with step := 11 } }

/-! ## Ill-formed commands that the check refuses -/

theorem wf_refuses_register_below_range : (Instr.registerWrite .boot 0x07FFFFFC#32 0#32 4 0).wf = false := by decide +kernel
theorem wf_refuses_register_size : (Instr.registerWrite .boot 0x08000000#32 0#32 3 0).wf = false := by decide +kernel
theorem wf_refuses_register_cycle : (Instr.registerWrite .boot 0x08000000#32 0#32 4 12288).wf = false := by decide +kernel
theorem wf_refuses_reads : (Instr.readToClear .boot 0#32).wf = false ∧ (Instr.rlLowRead .boot 0x10000000#32).wf = false := by decide +kernel
theorem wf_refuses_engine_cycles : (Instr.engineStartRequest .boot 0 12288).wf = false ∧
    (Instr.engineStopRequest .boot 0 12288).wf = false ∧ (Instr.liveHold .boot 0 true 12288).wf = false ∧
    (Instr.liveWordWrite .boot 0 0 0#32 12288).wf = false := by decide +kernel
theorem wf_refuses_program_offset : (Instr.programMemoryWrite .boot 0 0x18000 0#32).wf = false ∧
    (Instr.programMemoryWrite .boot 0 2 0#32).wf = false := by decide +kernel
theorem wf_refuses_delay_word : (Instr.delayStoreFabricAccess .boot 0 0x100000 true ⟨[0#8], 0⟩).wf = false ∧
    (Instr.delayStoreFabricAccess .boot 0 0 true ⟨List.replicate 3 0#8, 0⟩).wf = false := by decide +kernel
theorem wf_refuses_commit : (Instr.commitRequest .boot 0x10000 0 0).wf = false ∧ (Instr.commitRequest .boot 0 0x1000 0).wf = false := by decide +kernel
theorem wf_refuses_unaligned_shadow : (Instr.shadowWrite .boot 0x06100001#32 0#32).wf = false ∧
    (Instr.activeViewWrite .boot 0x06108002#32 0#32).wf = false := by decide +kernel
theorem wf_refuses_migration_modes : (Instr.migrationMove .boot 0x80001000#32).wf = false ∧
    (Instr.twinJoin .boot 0x80000000#32).wf = false ∧ (Instr.lateStart .boot 0x00002000#32).wf = false := by decide +kernel
theorem wf_refuses_bridge_bits : (Instr.bridgeEnable .boot 0 0#32).wf = false ∧ (Instr.bridgeDisable .boot 0 1#32).wf = false := by decide +kernel
theorem wf_refuses_fabric_numbers : (Instr.transitionEnd 2048).wf = false ∧ (Instr.gateBlockEnd 256).wf = false ∧
    (Instr.scaleRampEnd 256).wf = false := by decide +kernel
theorem wf_refuses_flow : (Instr.itemRelease 64).wf = false := by decide +kernel
theorem wf_refuses_far_cycles : (Instr.fldComplete ⟨0, 12288⟩ 0).wf = false ∧ (Instr.fstComplete ⟨0, 12288⟩ 0).wf = false ∧
    (Instr.igSubmit ⟨0, 12288⟩).wf = false ∧ (Instr.itemCompletion ⟨0, 12288⟩).wf = false ∧ (Instr.dmaAccessComplete ⟨0, 12288⟩).wf = false := by decide +kernel
theorem wf_refuses_local_offset : (Instr.localMemoryFabricAccess .boot 0 0x40000 true ⟨[0#8], 0⟩ false).wf = false ∧
    (Instr.localMemoryFabricAccess .boot 0 0 true ⟨List.replicate 17 0#8, 0⟩ false).wf = false := by decide +kernel
theorem wf_refuses_long_frame : (Instr.inputFrameComplete 0 0 0 (List.replicate 17 0#32)).wf = false := by decide +kernel
theorem wf_refuses_pll_output : (Instr.pllDividerWrite .boot 0 4 0#32).wf = false ∧
    (Instr.outputDelayWrite .boot 0 4 0#32).wf = false ∧ (Instr.outputDelayArrival 0 13).wf = false := by decide +kernel
theorem wf_refuses_nine_offsets : (Instr.ochreWindowEnd (List.replicate 9 0)).wf = false := by decide +kernel
theorem wf_refuses_memory_access : (Instr.sharedMemoryAccess .boot 0x08000000#32 true [0#8] 0 0).wf = false ∧
    (Instr.sharedMemoryAccess .boot 0#32 true (List.replicate 5 0#8) 0 0).wf = false ∧ (Instr.sharedMemoryAccess .boot 0#32 true [0#8] 3 0).wf = false ∧
    (Instr.bitSetWrite .boot 0#32 [] 0).wf = false ∧ (Instr.bitClearWrite .boot 0#32 [] 0).wf = false ∧
    (Instr.mramWrite .boot 0#32 4 []).wf = false := by decide +kernel
theorem wf_refuses_link_bits : (Instr.frameEnd 0 [] 8 0).wf = false ∧ (Instr.masterFrameDone 0 (List.replicate 129 0#32)).wf = false ∧
    (Instr.linkRead ⟨0, 127, 0⟩).wf = false ∧ (Instr.linkWrite ⟨0, 127, 0⟩).wf = false ∧ (Instr.linkRmw ⟨0, 12288⟩).wf = false ∧
    (Instr.linkCommit ⟨0, 12288⟩).wf = false ∧ (Instr.mmFault ⟨0, 4097, []⟩).wf = false := by decide +kernel
theorem wf_refuses_can_frames : (Instr.canFrameReceived ⟨0x800, false, false, false, false, [], false, false, false, false⟩ 0).wf = false ∧
    (Instr.canFrameReceived ⟨0, false, true, false, false, List.replicate 9 0#8, false, false, false, false⟩ 0).wf = false ∧
    (Instr.canFrameReceived ⟨0, false, true, false, true, [], false, false, false, false⟩ 0).wf = false ∧
    (Instr.canFrameReceived ⟨0, false, false, false, true, [0#8], false, false, false, false⟩ 0).wf = false ∧
    (Instr.canFrameReceived ⟨0, false, false, true, false, [], false, false, false, false⟩ 0).wf = false := by decide +kernel
theorem wf_refuses_vehicle_cycles : (Instr.signalTimeout 0 12288).wf = false ∧ (Instr.debounceExpiry 0 12288).wf = false ∧
    (Instr.chatterWindow 0 12288).wf = false ∧ (Instr.stuckTimeout 0 12288).wf = false ∧
    (Instr.eventPinChange ⟨0, 12288⟩ true).wf = false ∧ (Instr.bootReadDone ⟨[], 12288⟩).wf = false ∧ (Instr.warmVerifyDone 12288).wf = false := by decide +kernel
theorem wf_refuses_long_header : (Instr.headerReadDone (List.replicate 65 0#8)).wf = false := by decide +kernel
theorem wf_refuses_domain_0 : (Instr.powerDomainUp 0).wf = false ∧ (Instr.powerDomainDown 0).wf = false := by decide +kernel
theorem wf_refuses_temperature : (Instr.thermalEvaluation 0x8000 0 0 0).wf = false := by decide +kernel

/-- No word spells a command: the table gives its rows no bits. -/
theorem decode_refuses_every_word : decodeTableWord 32 0 = none ∧ decodeTableWord 8 0xFF = none := by decide +kernel

/-! ## Queue, registers, epochs -/

/-- An engine with a program length, a domain in use, and its state. -/
def engine (e st : Nat) (s : State) : State := up [(F.teProgLenLen e, 16), (F.teStatusState e, st), (F.teCtrlRun e, b2n (st == 1 || st == 2))] s

theorem witness_queue : State.reset.pending = [] ∧ step State.reset = .next State.reset := ⟨rfl, rfl⟩
theorem witness_registerAccess :
    does (.registerWrite (.host 1) 0x08010203#32 5#32 2 0) live (fun t => t.rd 0x08010200 == 0#32) = true ∧
    does (.registerWrite (.host 1) 0x08017200#32 5#32 4 0) live (fun t => t.rd 0x08017200 == 5#32) = true ∧ live.sys.trig = 0 ∧
    live.powered 1 = true ∧ live.tePowered 7 = true ∧
    does (.readToClear .boot (BitVec.ofNat 32 (R.teSatCnt 7))) (live.put (F.teSatCntCount 7) 9)
      (fun t => t.rdata == 9#32 && t.rd (R.teSatCnt 7) == 0#32) = true ∧
    does (.rlLowRead (.host 3) (BitVec.ofNat 32 R.sysTstampLo)) { live with sys := { live.sys with qt := 4 * (2 ^ 40 + 7) } }
      (fun t => t.rdata == 7#32 && t.latchOf (.host 3) R.sysTstampLo == 0x100#32) = true := by decide +kernel
theorem witness_reepoch : live.st = stRun ∧ State.reset.st ≠ stRun ∧
    does (.reepoch (.host 0)) live (fun t => t.sys.dueHost) = true := by decide +kernel
theorem witness_drainBegin :
    let s := engine 3 teRunning { live with sys := { live.sys with dueHost := true } }
    s.st = stRun ∧ s.atCommon = true ∧ s.drainDue = true ∧
    ({ live with sys := { live.sys with qt := 1 } } : State).atCommon = false ∧
    does .drainBegin s (fun t => t.st == stDrain && t.sys.clearing) = true := by decide +kernel
theorem witness_drainClear :
    let s := { live.put F.sysStateState stDrain with sys := { live.sys with clearing := true } }
    s.st = stDrain ∧ s.sys.clearing = true ∧ s.sys.engClk = true ∧ s.tePowered 0 = true ∧
    does .drainClearDone s (fun t => t.sys.cleared) = true := by decide +kernel
theorem witness_epochStart :
    let s := { (live.put F.sysStateState stDrain).put F.sysEpochEpoch 0xFFFF with sys := { live.sys with cleared := true } }
    s.mayEpoch = true ∧ s.get F.sysEpochEpoch = 0xFFFF ∧ State.reset.sys.engClk = false ∧ live.sys.engClk = true ∧
    (live.put F.sysStateState stDrain).st = stDrain ∧ (live.put F.sysStateState stDrain).sys.cleared = false ∧
    does .epochStart s (fun t => t.get F.sysEpochEpoch == 1 && t.tstamp == 0) = true := by decide +kernel
theorem witness_tickBoundary : live.st = stRun ∧ live.sys.engClk = true ∧ State.reset.st ≠ stRun ∧
    does .tickBoundary live (fun t => t.sys.qt == 4 && t.tstamp == 1) = true := by decide +kernel

/-- Engine 3 ends a run with a live word pending, two EMITs queued, a glide channel at its last run and FLAGCLR; engine 2 ends its last
run with its live words held; generator 0 makes noise. -/
def edge : State :=
  let s := up [(F.tgCfgEn 0, 1), (F.tgCfgWave 0, 2), (F.tgCfgLevel 0, 3), (F.teCtrlDomain 7, 3)] (engine 3 teRunning (engine 2 teStopPending live))
  let t := ((s.wr (R.tgStep 0) 77#32).wr (R.teScaleAct 3) 0x200#32).setEng 2 (fun g => { g with
    active := true, slot := 15, lpend := g.lpend.set 2 (some 8#32), hold := true })
  { t with md := { t.md with glides := [⟨3, 0, 0, 1, 2, 2, 4⟩, ⟨3, 1, 0, 1, 2, 2, 3⟩] } }.setEng 3 (fun g => { g with
    active := true, slot := 15, d := g.d.set 1 7#32, out := g.out.set 4 9#32, f := 5#4, acc := g.acc.set 1 3#72
    lpend := g.lpend.set 2 (some 8#32), lnext := g.lnext.set 3 (some 9#32), emits := [(0, 5#32), (15, 6#32)] })
theorem witness_boundaryActions :
    let s := edge
    s.st = stRun ∧ s.sys.engClk = true ∧ s.drainDue = false ∧ s.boot.slp = 0 ∧ s.md.frz = none ∧ s.mig.kind = 0 ∧
    s.get F.migStatusState = 0 ∧ (∀ p, p < 4 → s.get (F.twinStatusState p) = 0) ∧ runsEndAt s = [2, 3] ∧
    ((slotsEnded s).eng 2).emits = [] ∧ (s.eng 2).hold = true ∧ (s.eng 3).hold = false ∧ s.inUse .a = true ∧
    s.flag (F.tgCfgEn 0) = true ∧ (7 : Nat) ∉ s.engsIn (s.domsAt (s.sys.qt + s.stepQ)) ∧
    does .tickBoundary s (fun t => ng (t.eng 3).cap 4 0#32 == 9#32 && (t.eng 3).f == 0#4 && (t.eng 3).acc == Vector.replicate 4 0#72 &&
      ng (t.eng 3).live 2 0#32 == 8#32 && ng (t.eng 3).lpend 3 none == some 9#32 && ng (t.eng 3).insD 1 0#32 == 7#32 &&
      (t.eng 3).slot == 0 && (t.eng 3).active) = true ∧
    does .tickBoundary s (fun t => !(t.eng 2).active && ng (t.eng 2).live 2 0#32 == 0#32 && t.get (F.teEmitCntRefused 3) == 2 &&
      t.md.glides.map (fun c => (c.ch, c.j)) == [(1, 4)] && t.get (F.teFlagsF 3) == 5 && (t.tg 0).phase == 77#32 &&
      (t.tg 0).lfsr == 0x80200003#32) = true := by decide +kernel

/-- Pair 0 in LOCKSTEP with ACTION `act`, its members at the end of a run with two tapped words of engine 1 apart where `df`. -/
def twins (act : Nat) (df : Bool) : State :=
  let s := up [(F.twinStatusState 0, 1), (F.twinCtrlAction 0, act), (F.twinCtrlEn 0, 1)]
    ((engine 1 teRunning (engine 0 teRunning live)).wr (R.twinTapLo 0) 0xFF#32)
  (s.setEng 0 (fun g => { g with active := true, slot := 15 })).setEng 1 (fun g => { g with
    active := true, slot := 15, out := if df then (g.out.set 4 9#32).set 6 1#32 else g.out })
theorem witness_twinCompare :
    let s := twins 0 true
    s.get (F.twinStatusState 0) = 1 ∧ (∀ r, r < 4 → r ≠ 0 → s.get (F.twinStatusState r) ≠ 1) ∧ runsEndAt s = [0, 1] ∧
    s.engDom 0 = some .a ∧ s.st = stRun ∧ s.sys.engClk = true ∧ s.drainDue = false ∧ s.boot.slp = 0 ∧ s.mig.kind = 0 ∧
    does .tickBoundary (twins 0 false) (fun t => t.get (F.twinStatusState 0) == 1 && t.teState 1 == teRunning) = true ∧
    does .tickBoundary s (fun t => t.get (F.twinStatusState 0) == 2 && t.get (F.twinMisInfoWord 0) == 4 &&
      t.get (F.twinMisInfoCount 0) == 2 && t.get (F.twinMisStampStamp 0) == 0 && t.teState 1 == teStopped) = true ∧
    does .tickBoundary (twins 1 true) (fun t => t.get (F.twinStatusVoice 0) == 1 && t.teState 0 == teStopped) = true ∧
    does .tickBoundary (twins 3 true) (fun t => t.get (F.twinStatusState 0) == 3 && t.mig.chimeReq == 1) = true := by decide +kernel

/-! ## Tick engines -/

theorem witness_engineRequests :
    live.tePowered 3 = true ∧ live.flag (F.teCtrlRun 3) = false ∧ live.migStartHeld 3 = false ∧ live.teState 3 = teStopped ∧
    (engine 3 teStopped live).lenOk 3 = true ∧ (live.put (F.teProgLenLen 3) 12289).lenOk 3 = false ∧
    (let p := (live.put (F.teStatusState 3) teStopPending)
     p.teState 3 = teStopPending ∧ p.flag (F.teCtrlRun 3) = false) ∧
    (engine 3 teRunning live).flag (F.teCtrlRun 3) = true ∧ (engine 3 teStartPending live).flag (F.teCtrlRun 3) = true ∧
    does (.engineStartRequest .boot 3 0) (live.put (F.teProgLenLen 3) 12288)
      (fun t => t.teState 3 == teStartPending && t.flag (F.teCtrlRun 3)) = true ∧
    does (.engineStopRequest .boot 3 0) (engine 3 teRunning live) (fun t => t.teState 3 == teStopPending) = true := by decide +kernel
theorem witness_engineEdges :
    let p := engine 3 teStartPending live
    let q := engine 3 teStopPending live
    p.atCommon = true ∧ p.mayStart 3 = true ∧ ({ p with sys := { p.sys with qt := 1 } } : State).atCommon = false ∧
    (p.put (F.teStatusClrBusy 3) 1).flag (F.teStatusClrBusy 3) = true ∧
    q.st = stRun ∧ q.teState 3 = teStopPending ∧ q.atEngTick 3 = true ∧ (q.eng 3).active = false ∧ q.mig.kind = 0 ∧
    does (.engineStart 3) p (fun t => t.teState 3 == teRunning && (t.eng 3).active) = true ∧
    does (.engineStop 3) q (fun t => t.teState 3 == teStopped) = true := by decide +kernel
theorem witness_liveWords :
    live.tePowered 0 = true ∧ live.lockstep 0 = false ∧ live.mig.kind = 0 ∧ live.engDom 0 = some .a ∧
    live.cycIn .a (max live.sys.cyc 12280) ≤ live.cD .a - 8 ∧ live.cD .a - 8 < live.cycIn .a (max live.sys.cyc 12281) ∧
    does (.liveWordWrite .listener 0 15 7#32 12280) live (fun t => ng (t.eng 0).lpend 15 none == some 7#32) = true ∧
    does (.liveWordWrite .events 0 15 7#32 12281) live (fun t => ng (t.eng 0).lnext 15 none == some 7#32) = true ∧
    does (.liveHold .boot 0 true 0) live (fun t => t.flag (F.teCtrlLiveHold 0) && (t.eng 0).hold) = true := by decide +kernel
theorem witness_joinedLiveWords :
    let l := live.put (F.twinStatusState 3) 1
    let g := { live with mig := { live.mig with kind := 1, x := 2, y := 5 } }
    let h := g.put F.migStatusState 4
    let w := fun (t : State) (e : Nat) => ng (t.eng e).lpend 15 none == some 7#32
    l.lockstep 7 = true ∧ partner 7 = 6 ∧ l.mig.kind = 0 ∧ l.tePowered 7 = true ∧ l.tePowered 6 = true ∧ g.lockstep 2 = false ∧
    g.lockstep 5 = false ∧ g.get F.migStatusState ≠ 4 ∧ (g.atCyc 0).lastWriter (R.teLive 2 15) (writerPlace .boot) = true ∧
    does (.liveWordWrite .boot 7 15 7#32 0) l (fun t => w t 7 && w t 6 && !w t 5) = true ∧
    does (.liveWordWrite .boot 2 15 7#32 0) g (fun t => w t 2 && w t 5) = true ∧
    does (.liveWordWrite .boot 5 15 7#32 0) g (fun t => !w t 2 && !w t 5) = true ∧
    does (.liveWordWrite .boot 5 15 7#32 0) h (fun t => w t 2 && w t 5) = true := by decide +kernel
theorem witness_engineStores :
    let b := (live.put (F.teStatusClrBusy 5) 1).ww (dlyBase 5) 9#32
    live.teState 5 = teStopped ∧ (engine 5 teRunning live).teState 5 ≠ teStopped ∧ b.flag (F.teStatusClrBusy 5) = true ∧
    live.migNames 5 = false ∧ 0x17FFC < 0x18000 ∧
    does (.engineClearDone 5) b (fun t => t.dlyRd 5 0 == 0#32 && !t.flag (F.teStatusClrBusy 5)) = true ∧
    does (.programMemoryWrite .boot 5 0x17FFC 3#32) live (fun t => t.rw 0x060B7FFC == 3#32) = true ∧
    does (.programMemoryWrite .boot 5 0 3#32) (engine 5 teRunning live)
      (fun t => t.rw 0x060A0000 == 0#32 && t.flag (F.teStatusPmemIgn 5)) = true := by decide +kernel
theorem witness_delayStore :
    live.mig.kind = 0 ∧ live.tePowered 7 = true ∧ State.reset.tePowered 7 = false ∧
    accessOk (dlyBase 7 + 0xFFFFC) 4 = true ∧ accessOk (dlyBase 7 + 2) 4 = false ∧
    does (.delayStoreFabricAccess .boot 7 0xFFFFC true ⟨[5#8, 0#8, 0#8, 1#8], 3⟩) live
      (fun t => t.rw 0x057FFFFC == 0x01000005#32 && t.resp == .ok) = true ∧
    does (.delayStoreFabricAccess .boot 7 0 false ⟨[0#8, 0#8], 0⟩) (live.ww (dlyBase 7) 0x0403#32) (fun t => t.rbytes == [3#8, 4#8]) = true ∧
    does (.delayStoreFabricAccess .boot 7 2 true ⟨[5#8, 0#8, 0#8, 0#8], 0⟩) live (fun t => t.resp == .error errAlign) = true ∧
    (let m := { live with mig := { live.mig with kind := 1, x := 2, y := 5 } }.put F.migStatusState 2
     let p := { m with mig := { m.mig with ring := [⟨5, 262143, 4#32, false⟩] } }
     let i := fun (e : Fin 8) => Instr.delayStoreFabricAccess .boot e (4 * 262143) true ⟨wordBytes 9#32, 0⟩
     m.mirrors 2 = true ∧ p.mirrors 2 = true ∧ m.tePowered 2 = true ∧
     does (i 2) m (fun t => t.dlyRd 2 262143 == 9#32 && t.dlyRd 5 262143 == 9#32 && (t.eng 5).dirty == [262143]) = true ∧
     does (i 2) p (fun t => t.dlyRd 2 262143 == 9#32 && t.dlyRd 5 262143 == 0#32 && t.mig.ring.length == 2) = true ∧
     does (i 5) m (fun t => t.dlyRd 2 262143 == 0#32 && t.dlyRd 5 262143 == 0#32 && t.resp == .ok) = true) ∧
    does .mirrorRingWrite { live with mig := { live.mig with ring := [⟨7, 1, 4#32, false⟩] } }
      (fun t => t.rw 0x05700004 == 4#32 && (t.eng 7).dirty == [1] && t.mig.ring == []) = true := by decide +kernel

/-- Engine 0 about to execute the slot `w` of a run at slot 0. -/
def at0 (w : DWord) : State :=
  let s := engine 0 teRunning ((live.ww (pmBase 0) (w.extractLsb' 0 32)).ww (pmBase 0 + 4) (w.extractLsb' 32 32))
  s.setEng 0 (fun g => { g with active := true, d := g.d.set 1 0x80000000#32, inp := g.inp.set 0 0x40000000#32 })

/-- A format-X slot: operation, XD, XS1, AUX and the immediate (Table 03-5). -/
def xs (op xd xs1 aux imm : Nat) : DWord :=
  BitVec.ofNat 64 (2 * 2 ^ 58 + op * 2 ^ 52 + xd * 2 ^ 45 + xs1 * 2 ^ 38 + aux * 2 ^ 32 + imm)

/-- The hypotheses of a slot statement, and D2 after the slot. -/
def slotGives (i : Instr) (kind : DWord → Bool) (w : DWord) (v : Word) : Bool :=
  let s := at0 w
  s.slotReady 0 && slotLegal (s.eng 0).slot (s.nextSlot 0) && kind (s.nextSlot 0) && predHolds (slPred (s.nextSlot 0)) (s.eng 0).f &&
  does i s (fun t => ng (t.eng 0).d 2 0#32 == v && (t.eng 0).slot == 1)

/-- D1 holds the most negative number, and operand 2 is the immediate (AUX bit 5). -/
theorem witness_teTwoOperand :
    slotGives (.teAdd 0) (isX 0x04) (xs 0x04 2 1 32 0xFFFFFFFF) 0x7FFFFFFF#32 = true ∧
    slotGives (.teSub 0) (isX 0x05) (xs 0x05 2 1 32 1) 0x7FFFFFFF#32 = true ∧
    slotGives (.teRsb 0) (isX 0x06) (xs 0x06 2 1 32 1) 0x80000001#32 = true ∧
    slotGives (.teAdds 0) (isX 0x07) (xs 0x07 2 1 32 0xFFFFFFFF) 0x80000000#32 = true ∧
    slotGives (.teSubs 0) (isX 0x08) (xs 0x08 2 1 32 1) 0x80000000#32 = true ∧
    slotGives (.teAnd 0) (isX 0x09) (xs 0x09 2 1 32 0xC0000001) 0x80000000#32 = true ∧
    slotGives (.teOr 0) (isX 0x0A) (xs 0x0A 2 1 32 1) 0x80000001#32 = true ∧
    slotGives (.teXor 0) (isX 0x0B) (xs 0x0B 2 1 32 0xC0000000) 0x40000000#32 = true ∧
    slotGives (.teMin 0) (isX 0x0C) (xs 0x0C 2 1 32 1) 0x80000000#32 = true ∧
    slotGives (.teMax 0) (isX 0x0D) (xs 0x0D 2 1 32 1) 1#32 = true ∧
    slotGives (.teMinu 0) (isX 0x0E) (xs 0x0E 2 1 32 1) 1#32 = true ∧
    slotGives (.teMaxu 0) (isX 0x0F) (xs 0x0F 2 1 32 1) 0x80000000#32 = true := by decide +kernel
theorem witness_teOneOperand :
    slotGives (.teMov 0) (isX 0x02) (xs 0x02 2 1 0 0) 0x80000000#32 = true ∧
    slotGives (.teAbs 0) (isX 0x13) (xs 0x13 2 1 0 0) 0x7FFFFFFF#32 = true ∧
    slotGives (.teNeg 0) (isX 0x14) (xs 0x14 2 1 0 0) 0x7FFFFFFF#32 = true ∧
    slotGives (.teLdi 0) (isX 0x01) (xs 0x01 2 0 0 0xFFFFFFFF) 0xFFFFFFFF#32 = true ∧
    slotGives (.teLdc 0) (isX 0x03) (xs 0x03 2 0 0 8191) 0#32 = true ∧
    slotGives (.teAsr 0) (isX 0x10) (xs 0x10 2 1 31 0) 0xFFFFFFFF#32 = true ∧
    slotGives (.teLsr 0) (isX 0x11) (xs 0x11 2 1 31 0) 1#32 = true ∧
    slotGives (.teLsl 0) (isX 0x12) (xs 0x12 2 1 1 0) 0#32 = true := by decide +kernel
theorem witness_teFlags :
    slotGives (.teCmp 0) (isX 0x15) (xs 0x15 0 1 (32 + 2 * 4 + 3) 0) 0#32 = true ∧
    does (.teCmp 0) (at0 (xs 0x15 0 1 (32 + 2 * 4 + 3) 0)) (fun t => (t.eng 0).f == 8#4) = true ∧
    does (.teCmp 0) (at0 (xs 0x15 0 1 (32 + 4 * 4 + 3) 0)) (fun t => (t.eng 0).f == 0#4) = true ∧
    does (.teFset 0) (at0 (xs 0x17 0 0 2 1)) (fun t => (t.eng 0).f == 4#4) = true ∧
    slotGives (.teFset 0) (isX 0x17) (xs 0x17 0 0 2 1) 0#32 = true ∧
    slotGives (.teFop 0) (isX 0x16) (xs 0x16 0 0 1 (3 * 16)) 0#32 = true ∧
    does (.teFop 0) (at0 (xs 0x16 0 0 1 (3 * 16))) (fun t => (t.eng 0).f == 2#4) = true := by decide +kernel
theorem witness_teAddress :
    does (.teAmov 0) (at0 (xs 0x18 0 1 7 0)) (fun t => ng (t.eng 0).a 7 0#34 == 0x200000000#34) = true ∧
    does (.teAint 0) (at0 (xs 0x19 0 0x40 7 0)) (fun t => ng (t.eng 0).a 7 1#34 == 0#34) = true ∧
    does (.teAadd 0) (at0 (xs 0x1A 0 1 7 0)) (fun t => ng (t.eng 0).a 7 0#34 == 0x200000000#34) = true ∧
    slotGives (.teAmov 0) (isX 0x18) (xs 0x18 0 1 7 0) 0#32 = true ∧ slotGives (.teAint 0) (isX 0x19) (xs 0x19 0 1 7 0) 0#32 = true ∧
    slotGives (.teAadd 0) (isX 0x1A) (xs 0x1A 0 1 7 0) 0#32 = true := by decide +kernel
theorem witness_teAccLoad :
    let low := (at0 (xs 0x1C 0 1 0 0)).setEng 0 (fun g => { g with acc := g.acc.set 0 (BitVec.intMin 72) })
    slotGives (.teAccld 0) (isX 0x1B) (xs 0x1B 0 1 3 0) 0#32 = true ∧
    does (.teAccld 0) (at0 (xs 0x1B 0 1 3 0)) (fun t => (ng (t.eng 0).acc 3 0#72).toInt == -2 ^ 61) = true ∧
    does (.teAccadd 0) (at0 (xs 0x1C 0 1 0 0)) (fun t => (ng (t.eng 0).acc 0 0#72).toInt == -2 ^ 61) = true ∧
    low.slotReady 0 = true ∧ does (.teAccadd 0) low
      (fun t => ng (t.eng 0).acc 0 0#72 == BitVec.intMin 72 && t.flag (F.teStatusAccOvf 0)) = true := by decide +kernel

/-- Slot 7 of Table 03-11, ACC0 += D5 × C[4], with D5 0.5 and C[4] 1.5. -/
theorem witness_teMac :
    let s := ((at0 0x0102800000800000#64).setEng 0 (fun g => { g with d := g.d.set 5 0x40000000#32 })).ww
      (cfBase 0 + 0x8010) 0x60000000#32
    let w := s.nextSlot 0
    s.slotReady 0 = true ∧ slotLegal 0 w = true ∧ isM w = true ∧ predHolds (slPred w) (s.eng 0).f = true ∧
    does (.teMacSlot 0) s (fun t => (ng (t.eng 0).acc 0 0#72).toInt == 3 * 2 ^ 59) = true := by decide +kernel

/-- MAC-A starts, subtracts from or adds to ACC3 the product D1 × D1 in register mode, and MAC-B adds the same product: D1 is -1. Added
to the greatest number, the products hold ACC3 there. -/
theorem witness_teMacBoth :
    let w := fun (opA : Nat) => BitVec.ofNat 64 (opA * 2 ^ 56 + 3 * 2 ^ 54 + 1 * 2 ^ 47 + 1 * 2 ^ 45 + 3 * 2 ^ 43 + 1 * 2 ^ 36 + 3 * 2 ^ 34 +
      (1 + 1 * 32) * 2 ^ 21)
    let s := fun (opA : Nat) (a : BitVec 72) => (at0 (w opA)).setEng 0 (fun g => { g with acc := g.acc.set 3 a })
    slotLegal 0 (w 3) = true ∧ slotLegal 0 (w 2) = true ∧ slotLegal 0 (w 1) = true ∧
    does (.teMacSlot 0) (s 3 5#72) (fun t => (ng (t.eng 0).acc 3 0#72).toInt == 2 ^ 63) = true ∧
    does (.teMacSlot 0) (s 2 5#72) (fun t => (ng (t.eng 0).acc 3 0#72).toInt == 5) = true ∧
    does (.teMacSlot 0) (s 1 (BitVec.intMax 72)) (fun t => ng (t.eng 0).acc 3 0#72 == BitVec.intMax 72 && t.flag (F.teStatusAccOvf 0)) =
      true := by decide +kernel

/-- A format-M slot that moves ACC0 with the shift code `sh` to D2 (Table 03-3). -/
def mv (sh : Nat) : DWord := BitVec.ofNat 64 (2 ^ 19 + sh * 2 ^ 14 + 2 * 2 ^ 7)

/-- Cases of Table 02-5: the accumulator, S, the slot shift, D2 and the count of clips. -/
def moves (a : Int) (s sh : Nat) (v : Word) (n : Nat) : Bool :=
  let u := ((at0 (mv sh)).wr (R.teScaleAct 0) (BitVec.ofNat 32 s)).setEng 0 (fun g => { g with acc := g.acc.set 0 (BitVec.ofInt 72 a) })
  u.slotReady 0 && slotLegal 0 (u.nextSlot 0) && isM (u.nextSlot 0) && slF (u.nextSlot 0) 19 2 == 1 &&
  does (.teMacSlot 0) u (fun t => ng (t.eng 0).d 2 0#32 == v && t.get (F.teSatCntCount 0) == n)
theorem witness_teScaledMove :
    moves (3 * 2 ^ 59) 0 0 0x60000000#32 0 = true ∧ moves (3 * 2 ^ 60) 0 0 0x7FFFFFFF#32 1 = true ∧
    moves (3 * 2 ^ 60) 15 0 0x60000000#32 0 = true ∧ moves (-3 * 2 ^ 61) 14 0 0xA0000000#32 0 = true ∧
    moves (40 * 2 ^ 61) 13 5 0x50000000#32 0 = true ∧ moves (-2 ^ 61) 0 0 0x80000000#32 0 = true ∧
    moves (2 ^ 29) 0 0 1#32 0 = true ∧ moves (-2 ^ 29) 0 0 0#32 0 = true ∧
    moves (2 ^ 61 / 10) 7 3 0x7FFFFFFF#32 1 = true := by decide +kernel

/-- The intercom chorus of chapter 02 (R75): y = 0x2400_0000; and slots 0 and 2 of Table 03-11. -/
theorem witness_teDelay :
    let w : DWord := BitVec.ofNat 64 (2 ^ 58 + 2 ^ 56 + 2 ^ 55 + 3 * 2 ^ 52 + 1000 * 2 ^ 34 + 2 * 2 ^ 26)
    let s := (((at0 w).setEng 0 (fun g => { g with a := g.a.set 3 (BitVec.ofNat 34 (480 * 2 ^ 16 + 0x4000)) })).ww
      (dlyBase 0 + 4 * 68520) 0x20000000#32).ww (dlyBase 0 + 4 * 68519) 0x30000000#32
    let u := { s with sys := { s.sys with qt := 280000 } }
    u.slotReady 0 = true ∧ slotLegal 0 (u.nextSlot 0) = true ∧ isD 1 (u.nextSlot 0) = true ∧ u.engWp 0 = 70000 ∧
    u.mig.ring = [] ∧ slF (u.nextSlot 0) 21 2 = 0 ∧ slF (u.nextSlot 0) 26 7 = 2 ∧
    does (.teInterpolatedRead 0) u (fun t => ng (t.eng 0).d 2 0#32 == 0x24000000#32) = true ∧
    does (.teDelayRead 0) ((at0 0x0400000404000000#64).ww (dlyBase 0 + 4 * 262143) 7#32) (fun t => ng (t.eng 0).d 1 0#32 == 7#32) = true ∧
    isD 0 ((at0 0x0400000404000000#64).nextSlot 0) = true ∧ isD 2 ((at0 0x0600000100000000#64).nextSlot 0) = true ∧
    does (.teDelayWrite 0) (at0 0x0600000100000000#64) (fun t => t.rw (dlyBase 0) == 0x40000000#32) = true := by decide +kernel

/-- Format-D slots that write ACC3 with shift 0 and move-and-clear ACC0 to D2, and that read into D1 with the same transfer. -/
theorem witness_teDelayTransfers :
    let x := 2 * 2 ^ 21 + 2 * 2 ^ 9
    let w := BitVec.ofNat 64 (2 ^ 58 + 2 * 2 ^ 56 + 2 ^ 33 + 3 * 2 ^ 26 + x)
    let r := BitVec.ofNat 64 (2 ^ 58 + 1 * 2 ^ 26 + x)
    let s := fun (v : DWord) => (at0 v).setEng 0 (fun g => { g with acc := (g.acc.set 0 (BitVec.ofInt 72 (2 ^ 61))).set 3 (BitVec.ofInt 72 (3 * 2 ^ 59)) })
    slotLegal 0 w = true ∧ isD 2 w = true ∧ slotLegal 0 r = true ∧ isD 0 r = true ∧ (s w).slotReady 0 = true ∧
    does (.teDelayWrite 0) (s w) (fun t => t.rw (dlyBase 0) == 0x60000000#32 && ng (t.eng 0).d 2 0#32 == 0x7FFFFFFF#32 &&
      ng (t.eng 0).acc 0 1#72 == 0#72 && t.get (F.teSatCntCount 0) == 1) = true ∧
    does (.teDelayRead 0) ((s r).ww (dlyBase 0) 8#32) (fun t => ng (t.eng 0).d 1 0#32 == 8#32 && ng (t.eng 0).d 2 0#32 == 0x7FFFFFFF#32 &&
      ng (t.eng 0).acc 0 1#72 == 0#72) = true := by decide +kernel
theorem witness_teNopEmit :
    let s := at0 (xs 0x1D 0 1 15 0)
    let f := s.setEng 0 (fun g => { g with emits := List.replicate 4 (0, 0#32) })
    slotGives (.teNop 0) (isX 0x00) (xs 0x00 0 0 0 0) 0#32 = true ∧
    slotGives (.teEmit 0) (isX 0x1D) (xs 0x1D 0 1 15 0) 0#32 = true ∧ (s.eng 0).emits.length < 4 ∧ 4 ≤ (f.eng 0).emits.length ∧
    does (.teEmit 0) s (fun t => (t.eng 0).emits == [(15, 0x80000000#32)]) = true ∧
    does (.teEmit 0) f (fun t => t.flag (F.teStatusEmitDrop 0) && t.get (F.teEmitCntDropped 0) == 1) = true := by decide +kernel
theorem witness_teIllegal :
    let s := at0 (BitVec.ofNat 64 (8 * 2 ^ 60 + (xs 0x01 2 0 0 5).toNat))
    (at0 0x0C00000000000000#64).slotReady 0 = true ∧ slotLegal 0 0x0C00000000000000#64 = false ∧
    does (.teIllegalSlot 0) (at0 0x0C00000000000000#64) (fun t => t.flag (F.teStatusIllegal 0) && (t.eng 0).slot == 1) = true ∧
    slotLegal 0 (s.nextSlot 0) = true ∧ predHolds (slPred (s.nextSlot 0)) (s.eng 0).f = false ∧ isX 1 (s.nextSlot 0) = true ∧
    does (.teLdi 0) s (fun t => ng (t.eng 0).d 2 0#32 == 0#32 && (t.eng 0).slot == 1) = true := by decide +kernel

/-! ## Mordant, twins, migration, domains, bridges, routes -/

theorem witness_commitRequest :
    requester (.host 0) = some 0 ∧ requester .boot = some 4 ∧ live.permCommit 0 0xFFF = true ∧ live.unpoweredIn 0xFFF = false ∧
    (State.reset.put (F.pwrStatState 1) 3).unpoweredIn 0x80 = true ∧
    does (.commitRequest (.host 0) 0xFFFF 0xFFF 0) live
      (fun t => t.get F.mdPendMask == 0xFFF && t.get F.mdPendSeq == 0xFFFF && t.get (F.mdHostAccSeq 0) == 0xFFFF) = true ∧
    does (.commitRequest .boot 1 0x80 0) State.reset (fun t => t.resp == .refused && t.flag F.mdErrUnpowered) = true ∧
    live.permCommit 3 1 = false ∧ does (.commitRequest (.host 3) 1 1 0) live (fun t => t.resp == .denied) = true := by
  decide +kernel
/-- A commit that names engine 0 and the route table. -/
def com : Commit := ⟨0x101, 7, 1, [(1, 7)]⟩
theorem witness_commitBoundary :
    let s := { live with md := { live.md with acc := some com } }
    let f := ({ live with md := { live.md with frz := some com } }.ww (cfBase 0) 5#32).wr 0x08030000 6#32
    s.isCommon (s.tstamp + 1) = true ∧ s.beforeCutoff = true ∧ s.mayFreeze com (s.tstamp + 1) = true ∧
    ({ s with md := { s.md with recons := [1] } } : State).reconMask &&& com.mask ≠ 0 ∧ f.md.frz ≠ none ∧
    (s.put F.domStatusM 2).isCommon ((s.put F.domStatusM 2).tstamp + 1) = false ∧
    f.atEdge = true ∧ f.tstamp = f.md.frzAt ∧ f.md.frzEpoch = false ∧ f.boot.wait = false ∧ f.sys.trig = 0 ∧
    f.endsHere = false ∧ ({ f with sys := { f.sys with dueHost := true } } : State).endsHere = true ∧
    Memory.wf f.mem ∧ Regs.wf f.regs ∧
    does .commitCutoff s (fun t => t.md.frz == some com && t.md.acc == none && t.sys.cyc == 11264) = true ∧
    does .commitApply f (fun t => t.rw (cfBase 0 + 0x8000) == 5#32 && t.rd 0x08038000 == 6#32 && t.rw (cfBase 0) == 0#32 &&
      t.get F.mdStatusCount == 1 && t.get F.mdAppliedHiSeq == 7) = true := by decide +kernel
theorem witness_shadowWrite :
    let l := live.put (F.twinStatusState 0) 1
    let z := { live with md := { live.md with recons := [1] } }
    live.tePowered 7 = true ∧ live.frozen 7 = false ∧ live.lockstep 7 = false ∧ l.lockstep 1 = true ∧ l.frozen 1 = false ∧
    z.frozen 0 = true ∧ State.reset.tePowered 0 = false ∧
    does (.shadowWrite .boot 0x06177FFC#32 9#32) live (fun t => t.rw 0x06177FFC == 9#32 && t.md.dirty == [0x06177FFC]) = true ∧
    does (.shadowWrite .boot 0x06110000#32 9#32) l (fun t => t.rw 0x06110000 == 9#32 && t.rw 0x06100000 == 9#32) = true ∧
    does (.shadowWrite (.host 0) 0x06100000#32 9#32) z (fun t => t.resp == .held && t.rw 0x06100000 == 0#32) = true := by
  decide +kernel
theorem witness_reconcile :
    let s := ({ live with md := { live.md with recons := [1, 2], dirty := [0x06100000, 0x06110000] } } : State).ww 0x06108000 4#32
    s.md.held = [] ∧ (∀ a ∈ s.md.dirty, a % 4 = 0) ∧ s.md.recons = 1 :: [2] ∧ live.md.recons = [] ∧
    does .reconcileEnd s (fun t => t.rw 0x06100000 == 4#32 && t.md.dirty == [0x06110000] && t.md.recons == [2]) = true ∧
    does .reconcileEnd { s with md := { s.md with recons := [1] } } (fun t => t.get F.mdReconObj == 15 && t.md.recons == []) = true := by
  decide +kernel
theorem witness_activeViews :
    isActiveView 0x0617FFFC = true ∧ isActiveView 0x08050800 = true ∧
    does (.activeViewWrite .boot 0x06108000#32 1#32) live (fun t => t.flag F.mdErrActiveWr && t.rw 0x06108000 == 0#32) = true ∧
    does (.overrideWordWrite (.host 0) 31 0xFFFFFFFF#32) live (fun t => t.rd (R.ovrWord 31) == 0xC0FFFFFF#32) = true := by
  decide +kernel

/-- Pair 1 enabled with one tap, both members stopped and equal. -/
def pair : State := up [(F.twinCtrlEn 1, 1), (F.teProgLenLen 2, 4), (F.teProgLenLen 3, 4)] (live.wr (R.twinTapLo 1) 1#32)
theorem witness_twinPairs :
    let c := { pair with mig := { pair.mig with kind := 4, x := 2, y := 3 } }
    let d := c.put (F.teProgLenLen 3) 5
    let z := up [(F.teProgLenLen 2, 0), (F.teProgLenLen 3, 0)] c
    let k := (pair.put (F.twinStatusState 1) 1)
    let x := { k with mig := { k.mig with exitDue := 2 } }
    pair.pairFails 1 (pair.mig.kind != 0) = [] ∧ live.flag (F.twinCtrlEn 1) = false ∧ c.sameProg 2 3 = true ∧
    c.sameSet 2 3 = true ∧ c.pairFails 1 false = [] ∧ c.lenOk 2 = true ∧ c.lenOk 3 = true ∧ z.lenOk 2 = false ∧
    z.sameProg 2 3 = true ∧ z.sameSet 2 3 = true ∧ z.pairFails 1 false = [] ∧ d.sameProg d.mig.x d.mig.y = false ∧
    k.flag (F.twinCtrlEn 1) = true ∧ k.get (F.twinStatusState 1) = 1 ∧ k.mig.fresh.testBit 1 = false ∧
    (pair.put (F.twinStatusState 1) 2).get (F.twinStatusState 1) = 2 ∧ x.mig.exitDue.testBit 1 = true ∧
    live.mig.exitDue.testBit 1 = false ∧
    does (.pairStart (.host 0) 1) pair (fun t => t.get F.migStatusState == 1 && t.mig.kind == 4) = true ∧
    does .pairStartCheckDone c (fun t => t.get (F.twinStatusState 1) == 1 && t.teState 2 == teStartPending) = true ∧
    does .pairStartCheckDone z (fun t => t.teState 2 == teStopped && t.flag (F.teStatusLenErr 2)) = true ∧
    does .pairStartCheckDone d (fun t => t.flag F.migStatusProg) = true ∧
    does (.twinDisable (.host 0) 1) k (fun t => t.mig.exits == 2 && !t.flag (F.twinCtrlEn 1)) = true ∧
    does (.lockstepExit 1) x (fun t => t.get (F.twinStatusState 1) == 0 && t.teState 3 == teStopped) = true := by decide +kernel
theorem witness_migrationCommands :
    let s := engine 0 teRunning live
    let j := engine 2 teRunning pair
    let b := s.put F.migStatusState 1
    let r := { b with mig := { b.mig with kind := 1 } }
    s.get F.migStatusState = 0 ∧ s.migFails 0 0 7 false = [] ∧ j.migFails 1 2 3 false = [] ∧  s.migFails 2 0 7 true = [] ∧
    (engine 7 teRunning s).teState 7 ≠ teStopped ∧ b.get F.migStatusState ≠ 0 ∧ r.get F.migStatusState ≠ 4 ∧ r.mig.armed = false ∧
    does (.migrationMove (.host 0) 0x80000700#32) s (fun t => t.get F.migStatusState == 1 && t.mig.y == 7) = true ∧
    does (.twinJoin .boot 0x80001302#32) j (fun t => t.mig.kind == 2) = true ∧
    s.lenOk 7 = false ∧ (s.put (F.teProgLenLen 7) 16).lenOk 7 = true ∧ (s.put (F.teProgLenLen 7) 16).migFails 2 0 7 true = [] ∧
    does (.lateStart .boot 0x80022700#32) (s.put (F.teProgLenLen 7) 16) (fun t => t.get F.migStatusState == 3 && t.mig.srcEn) = true ∧
    does (.lateStart .boot 0x80022700#32) s (fun t => t.flag (F.teStatusLenErr 7) && t.mig.kind == 0) = true ∧
    does (.migrationMove .boot 0x80000700#32) b (fun t => t.flag F.migStatusBusy) = true ∧
    does (.migrationAbort .boot) r (fun t => t.flag F.migStatusAbandoned && t.mig.kind == 0) = true := by decide +kernel
theorem witness_migrationRun :
    let s := engine 0 teRunning { live with mig := { live.mig with kind := 1, x := 0, y := 7 } }
    let c := (s.put F.migStatusState 1).put (F.teProgLenLen 7) 16
    let w := s.put F.migStatusState 2
    let a := (s.put F.migStatusState 3).put F.migCtrlTauto 1
    let h := { a with mig := { a.mig with armed := true, t := 0 } }
    let v := { s.put F.migStatusState 4 with mig := { s.mig with cmp := 1 }, sys := { s.sys with qt := 8 } }
    c.sameProg 0 7 = true ∧ c.sameSet 0 7 = true ∧ (c.put (F.teProgLenLen 7) 15).sameProg 0 7 = false ∧
    w.get F.migStatusState = 2 ∧ a.beforeCutoff = true ∧ a.drainDue = false ∧ a.mig.nb ≤ a.tickNo + 1 ∧
    a.isCommon (a.tickNo + 1) = true ∧ a.yInUse = true ∧ h.atEdge = true ∧ h.tickNo = h.mig.t ∧ Memory.wf s.mem ∧
    h.endsHere = false ∧ v.endsHere = false ∧
    v.engDom 0 = some .a ∧ v.atTick .a = true ∧ v.dtick .a = (v.dtickAt .a (4 * v.mig.t) + v.mig.cmp + 1) % 2 ^ 48 ∧ v.sys.trig = 0 ∧
    does .migrationCheckDone c (fun t => t.get F.migStatusState == 2) = true ∧
    does .handoverCutoff a (fun t => t.mig.armed && t.mig.t == 1 && t.get F.migTactLoTLo == 1) = true ∧
    does .handover h (fun t => t.get F.migStatusState == 4 && t.teState 7 == teRunning && t.aliasOf 0 == 7) = true ∧
    does .handoverVerify v (fun t => t.teState 0 == teStopped && t.flag F.migStatusDone) = true := by decide +kernel
theorem witness_domainChanges :
    let q := live.wr R.domCfg 0x4401#32
    let f := live.wr R.domCfg 0x4402#32
    let p := { live with dom := { live.dom with apply := some 0x4201#32 } }
    cfgValid 0x4406#32 = false ∧ cfgValid (q.rd R.domCfg) = true ∧ live.st ≠ stDrain ∧ live.st ≠ stHalt ∧ State.reset.st = stBoot ∧
    famOf (cfgFsa (f.rd R.domCfg)) ≠ famOf (cfgFsa live.domAct) ∧ p.applyRebase = true ∧ p.dom.applyNb ≤ p.tstamp ∧
    p.atEdge = true ∧ p.tstamp % 12 = 0 ∧ ({ live with sys := { live.sys with qt := 44 } } : State).tstamp % 12 ≠ 0 ∧
    does (.domainApply .boot) (live.wr R.domCfg 0x4406#32) (fun t => t.flag F.domStatusErrCode) = true ∧
    does (.domainApply .boot) (State.reset.wr R.domCfg 0x4402#32) (fun t => t.domAct == 0x4402#32) = true ∧
    cfgValid (live.rd R.domCfg) = true ∧ live.rd R.domCfg = live.domAct ∧
    (let k := (live.wr R.domCfg 0x4201#32).put F.domStatusUseB 1
     k.rd R.domCfg ≠ k.domAct ∧ famOf (cfgFsa (k.rd R.domCfg)) = famOf (cfgFsa k.domAct) ∧
     does (.domainApply .boot) k (fun t => t.dom.apply == some 0x4201#32 && t.sys.dueRate == (cfgKb 0x4201#32 != cfgKb live.domAct)) = true) ∧
    does (.domainApply .boot) p (fun t => t.dom.apply == none) = true ∧
    does (.domainApply .boot) f (fun t => t.sys.dueFam && t.flag F.domStatusPend && t.domAct == 0x4401#32) = true ∧
    does .rateSetBoundary p (fun t => t.domAct == 0x4201#32) = true := by decide +kernel
theorem witness_bridges :
    let s := live.wr R.domAct 0x4301#32
    let p := up [(F.brCfgInDom 15, 0), (F.brCfgOutDom 15, 1), (F.brStatusState 15, 1), (F.domStatusUseB, 1)] s
    (s.wr (R.brCfg 15) 0x10#32).brBad 15 = false ∧ (s.wr (R.brCfg 15) 0#32).brBad 15 = true ∧ p.brInUse 15 = true ∧
    p.atCommon = true ∧ ng p.dom.brNb 15 0 ≤ p.tstamp ∧ p.get (F.brStatusState 15) = 1 ∧
    does (.bridgeEnable .boot 15 0x101#32) s (fun t => t.get (F.brStatusState 15) == 1) = true ∧
    does (.bridgeEnable .boot 15 1#32) s (fun t => t.flag (F.brStatusCfgErr 15)) = true ∧
    does (.bridgeStart 15) p (fun t => t.get (F.brStatusState 15) == 2) = true ∧
    does (.bridgeDisable .boot 15 0#32) (up [(F.brStatusState 15, 2), (F.brCfgEn 15, 1)] s)
      (fun t => t.get (F.brStatusState 15) == 3) = true ∧
    does (.bridgeStop 15) (p.put (F.brStatusState 15) 3) (fun t => t.get (F.brStatusState 15) == 0) = true := by decide +kernel
theorem witness_routes :
    let e : REnt := ⟨5, 0, 0, 0, 0, true, 0, 0, false, false⟩
    let rt := { live.rt with
      run := [⟨5, e, [], 1, 0, 4, false, 4, false⟩, ⟨5, e, [], 3, 0, 4, false, 4, false⟩]
      gates := [⟨32 * 255, false, 0, true, some (2 ^ 60)⟩]
      nodes := [(255, ⟨1, 0, 0, 5, 1, 2, true⟩)] }
    let s := { live with rt := rt }
    (s.node 255).live = true ∧ 2 ^ (s.node 255).k ≤ (s.node 255).j ∧ (live.node 255).j < 2 ^ (live.node 255).k ∧
    (live.rd (R.tgCfg 7)).getLsbD 31 = false ∧
    does (.transitionEnd 5) s (fun t => t.rt.run.length == 1) = true ∧
    does (.scaleRampEnd 255) s (fun t => t.get (F.sumStatRamp 255) == 0) = true ∧
    does (.testGeneratorStep .boot 7 9#32) live (fun t => t.rd (R.tgStep 7) == 9#32) = true ∧
    does (.testGeneratorConfig .boot 7 0x80000000#32) live (fun t => t.rd (R.tgCfg 7) == 0x80000000#32) = true ∧
    does (.testGeneratorConfig .boot 7 0#32) (live.wr (R.tgCfg 7) 0x80000000#32) (fun t => !(t.tg 7).running) = true := by
  decide +kernel

/-- A route record in steady state from source `src` to input `inp` of `sink`, with gain `g` in Q3.29. -/
def rrun (mode src sink inp : Nat) (g : Int) (delay : Nat) (h : List Word) : RRun :=
  ⟨0, ⟨0, src, sink, inp, delay, true, g, 0, false, false⟩, h, mode, 2 ^ 29, 64, true, 31, false⟩
/-- Override 3 of input word 0 of engine 0, with MODE and GAIN. -/
def overridden (md g : Nat) : State := up [(F.ovrSinkEn 3, 1), (F.ovrSinkSink 3, 0x200), (F.ovrWordMode 3, md), (F.ovrWordGain 3, g)] live
theorem witness_sinkSamples :
    let r := fun (m d : Nat) => rrun m 0x5A7 0x200 0 (2 ^ 28) d (List.replicate 64 4#32)
    let v := fun (s : State) (x : Int) => (s.sinkValue ⟨(0x200, 0), 0x200, x⟩).1
    let two := { live with rt := { live.rt with run := [r 0 0, r 0 0], now := [(0x5A7, 8#32)] } }
    (r 1 63).cur.delay ≤ (r 1 63).hist.length ∧ 0 < (r 1 63).n ∧ (r 2 0).j < (r 2 0).n ∧ two.rt.run ≠ [] ∧ live.md.ovr = [] ∧
    (∀ q ∈ two.rt.run, q.cur.sink = 0x200 ∧ two.sinkKey q.cur.sink q.cur.inp = (0x200, 0)) ∧
    ((r 0 0).sample 8#32 2#32 true).1 = 2 ^ 31 ∧ ((r 0 1).sample 8#32 2#32 true).1 = 2 ^ 29 ∧ ((r 0 63).sample 8#32 2#32 true).1 = 2 ^ 30 ∧
    ((r 1 0).sample 8#32 2#32 true).1 = 3 * 2 ^ 30 ∧ ((r 0 0).sample 8#32 2#32 false).1 = 0 ∧
    (r 2 0).law = true ∧ ((r 2 0).sample 8#32 2#32 true).1 = 1518500250 ∧ ((r 3 0).sample 8#32 2#32 true).1 = 3037000500 ∧
    (two.sumRuns (fun id => id == 0x200)).1 = [⟨(0x200, 0), 0x200, 2 ^ 32⟩] ∧
    v live (2 ^ 28) = 1#32 ∧ v live (2 ^ 28 - 1) = 0#32 ∧ v live (2 ^ 60) = 0x7FFFFFFF#32 ∧ v (overridden 1 5) (2 ^ 40) = 0#32 ∧
    v (overridden 2 0x200000) (2 ^ 40) = 0x400#32 ∧ v (overridden 0 5) (2 ^ 40) = 0x800#32 ∧
    ((live.sinkValue ⟨(0x4FF, 31), 0x4FF, 2 ^ 60⟩).2.rd R.rtSatSink) = 0x1F4FF#32 := by decide +kernel
theorem witness_routedSample :
    let s := { (engine 7 teRunning live).setTg 7 ⟨0#32, 1#32, true, 0x12345678#32, 0⟩ with
      rt := { live.rt with run := [rrun 0 0x5A7 0x3FF 0 (2 ^ 30) 0 []], tg := live.rt.tg.set 7 ⟨0#32, 1#32, true, 0x12345678#32, 0⟩ } }
    s.st = stRun ∧ s.sys.engClk = true ∧ s.drainDue = false ∧ s.boot.slp = 0 ∧ s.md.frz = none ∧ s.mig.kind = 0 ∧
    s.get F.migStatusState = 0 ∧ (∀ p, p < 4 → s.get (F.twinStatusState p) ≠ 1) ∧ s.rt.chk.order = [] ∧ s.engDom 7 = some .a ∧
    domOf (s.get (F.tgCfgDomain 7)) = some .a ∧ s.domsAt (s.sys.qt + s.stepQ) = [.a, .b, .c] ∧ s.inUse .a = true ∧ s.tePowered 7 = true ∧
    s.aliasOf 7 = 7 ∧ (∀ m, m < 32 → s.get (F.ovrSinkEn m) = 0) ∧ s.md.ovr = [] ∧ s.rt.inj = [] ∧
    does .tickBoundary s (fun t => ng (t.eng 7).inp 63 0#32 == 0x2468ACF0#32) = true := by decide +kernel

/-- Node 255 with LAW and K 7, its record `x`, and five inputs that a running generator feeds. -/
def node255 (law : Nat) (x : Node) : State :=
  let s := { live.setTg 7 ⟨0#32, 1#32, true, 0#32, 0⟩ with rt := { live.rt with
    tg := live.rt.tg.set 7 ⟨0#32, 1#32, true, 0#32, 0⟩
    run := (List.range 5).map (fun i => rrun 0 0x5A7 0x4FF i (2 ^ 29) 0 []) } }
  ((s.put (F.tgCfgEn 7) 1).wr (0x08044000 + 64 * 255) (BitVec.ofNat 32 (2 ^ 31 + law * 2 ^ 24 + 7 * 2 ^ 16))).setNode 255 x
theorem witness_nodeSamples :
    let x : Node := ⟨0, 2 ^ 30, 2 ^ 29, 2 ^ 31, 7, 3, true⟩
    let y := fun (law : Nat) (x : Node) => (node255 law x).nodeSample 255 0 48000 [((0x4FF, 0), 0x7FFFFFFF#32), ((0x4FF, 4), 0x7FFFFFFF#32)]
    ((List.range 32).filter (fun i => (node255 0 x).inputActive 255 i)).length = 5 ∧ (live.node 255).live = false ∧
    (node255 0 x).nodeTarget tabActive 255 5 = 2 ^ 31 ∧ (node255 1 x).nodeTarget tabActive 255 5 = 429496730 ∧
    (node255 2 x).nodeTarget tabActive 255 5 = 960383883 ∧ (node255 3 x).nodeTarget tabActive 255 5 = 0 ∧
    ((y 0 x).node 255).scale = 587202560 ∧ ((y 0 x).node 255).j = 4 ∧
    ((y 1 x).node 255).sTo = 429496730 ∧ ((y 1 x).node 255).j = 0 ∧ ((y 1 x).node 255).k = 7 ∧ (y 1 x).get (F.sumStatRamp 255) = 1 ∧
    ((y 1 { x with live := false }).node 255).scale = 429496730 ∧ (y 1 { x with live := false }).get (F.sumStatRamp 255) = 0 ∧
    ((y 0 { x with j := 128, scale := 2 ^ 31 }).node 255).scale = 2 ^ 31 ∧
    (y 0 { x with j := 128, scale := 2 ^ 31 }).flag (F.sumStatSat 255) = true ∧
    spGet (fun _ => 0#32) (y 0 { x with j := 128, scale := 2 ^ 30 }).rt.now 0x4FF = 0x7FFFFFFF#32 ∧
    (y 0 x).get (F.sumStatNact 255) = 5 := by decide +kernel
theorem witness_umberSamples :
    let s := (live.wr 0x08050800 0x80000000#32).setUmb 0 { Umb.zero with dly := 0, line := [3#32] }
    (s.umbW tabActive (s.umbLead tabActive 0) 0).testBit 25 = false ∧ (0 : Nat) ∈ s.umbGroup tabActive 0 ∧
    s.umbDelay tabActive 0 = (s.umb 0).dly ∧ s.umbLook tabActive 0 = (s.umb 0).look ∧ (s.umb 0).old = none ∧
    s.umbW tabActive (s.umbLead tabActive 0) 2 % 2 ^ 8 ≤ 240 ∧
    umbStatic 0 1024 0 0 (2 ^ 24) = -(3 * 2 ^ 22) ∧ umbStatic 1 0 0 0 5 = -5 ∧ umbStatic 2 512 0 0 (-2 ^ 24) = -(2 ^ 24) ∧
    umbStatic 2 65535 0 0 (-2 ^ 24) = -(96 * 2 ^ 24) ∧ umbStatic 3 0 0 12 (-1) = -(12 * 2 ^ 24) ∧ pow20 0 = 2 ^ 40 ∧
    log2Fix (2 ^ 31) = 31 * 2 ^ 32 := by decide +kernel
theorem witness_sourceSamples :
    live.srcIn [.a] 0xC0 = true ∧ live.brRuns 0 = false ∧
    spGet (fun _ => 1#32) (live.brOut [.a]).rt.inj 0xC7 = 1#32 ∧
    (tgWave 1 9 ⟨0x80000000#32, 0#32, true, 0#32, 0⟩).toInt = -9 ∧ (tgWave 2 0x7FFFFFFF ⟨0#32, 0x80000000#32, true, 0#32, 0⟩).toInt = -0x7FFFFFFF ∧
    (tgWave 3 0x7FFFFFFF ⟨0#32, 0#32, true, 0#32, 0⟩).toInt = 0x7FFFFFFF ∧ lfsrStep 1#32 = 0x80200003#32 ∧ lfsrStep 2#32 = 1#32 ∧
    |sinPhase (2 ^ 30)| ≤ 2 ^ 96 ∧ |sinPhase (2 ^ 29)| ≤ 2 ^ 96 := by decide +kernel

/-! ## The Vat and the Indigo cores -/

/-- A descriptor for FLOW 0, partition 0, entry 0x80000, with action code `act` and target `tgt`. -/
def dscr (act tgt : Nat) : List Word := [0x80000#32, 5#32, 0x300#32, 0#32, BitVec.ofNat 32 (tgt * 256 + act), 0x77#32, 0#32, 0#32]

/-- Partition 0 holds core 0, takes host 0, and all eight words but the last are staged by host 0. -/
def vatUp : State :=
  let s := up [(F.vatPartCfgEn 0, 1), (F.vatPartCfgHosts 0, 1), (F.igStatusState 0, 1)] live
  { s with vat := { s.vat with stage := (List.range 7).map (fun i => (8 * latchNo (.host 0) + i, (dscr 2 0).getD i 0#32)) } }

/-- The item that the descriptor makes. -/
def item0 : Item := ⟨0, 0x80000, 5#32, 0, 3, 0, 0, 2, 0, 0x77#32, 0, false⟩

theorem witness_vatSubmit :
    vatUp.dscCheck (dscr 2 0) (some 0) = 0 ∧ vatUp.dscInvalid (dscr 2 0) = false ∧ vatUp.dscInvalid (dscr 5 0) = true ∧
    (vatUp.get (F.vatPartCfgHosts 0)).testBit 3 = false ∧ live.flag (F.vatPartCfgEn 0) = false ∧
    1024 ≤ ({ vatUp with vat := { vatUp.vat with pend := List.replicate 1024 item0 } } : State).vat.pend.length ∧
    does (.vatSubmit (.host 0) 0#32) vatUp (fun t => t.vat.pend == [item0] && t.vatRes (.host 0) == 0x00010000#32) = true := by
  decide +kernel
theorem witness_vatDispatch :
    let s := { vatUp with vat := { vatUp.vat with pend := [item0] } }
    let r := ({ vatUp with vat := { vatUp.vat with run := [(0, item0)] } }.put (F.igStatusState 0) 2).setCore 0 (fun k => { k with fin := 1 })
    s.eligible 0 = true ∧ s.pick 0 = some item0 ∧ live.eligible 0 = false ∧ r.igRuns 0 = true ∧ (r.core 0).fin ≠ 0 ∧
    (r.core 0).fst_ = [] ∧ r.mustHold item0 = false ∧ r.vat.run.find? (fun p => p.1 == 0) = some (0, item0) ∧
    (r.setCore 0 (fun k => { k with fst_ := [⟨0, 0#32, true, false⟩] }) |>.core 0).fst_ ≠ [] ∧
    does (.vatDispatch 0) s (fun t => t.igState 0 == 2 && (t.core 0).pc == 0x80000 && (t.core 0).r 0 == 5#32) = true ∧
    does (.affinityWaitExpiry 0) s (fun t => (t.vat.pend.map (fun i => i.expired)) == [true]) = true ∧
    (let i := { item0 with id := 9, flow := 1 }
     let h := { r with vat := { r.vat with run := [(0, i)], pend := [{ i with id := 1 }], done := List.replicate 256 ({ i with id := 5 }, 0) } }
     h.mustHold i = true ∧ does (.itemCompletion ⟨0, 7⟩) h (fun t => (t.core 0).stall == 4 && t.igState 0 == 2) = true) ∧
    does (.itemCompletion ⟨0, 7⟩) r (fun t => t.igState 0 == 1 && t.vat.done == [(item0, 0)] && (t.core 0).cyc == 0) = true ∧
    does (.itemCompletion ⟨0, 7⟩) (r.setCore 0 (fun k => { k with stall := 4 })) (fun t => (t.core 0).cyc == 7) = true := by decide +kernel
theorem witness_vatRelease :
    let s := { vatUp with vat := { vatUp.vat with done := [(item0, 1)] } }
    let f := { s with vat := { s.vat with cpl := s.vat.cpl.set 0 (List.replicate 32 (0#32, 0)) } }
    let c := { s with vat := { s.vat with cpl := s.vat.cpl.set 0 [(9#32, 2)] } }
    s.vat.done.find? (fun p => p.1.flow == 0) = some (item0, 1) ∧ item0.flow = 0 ∧ item0.act = 2 ∧ item0.tgt = 0 ∧
    (ng s.vat.cpl 0 []).length < 32 ∧ 32 ≤ (ng f.vat.cpl 0 []).length ∧
    (∀ p ∈ s.vat.done, p.1.flow = 31 → s.isHead p.1 = false) ∧ ng c.vat.cpl 0 [] = [(9#32, 2)] ∧
    does (.itemRelease 0) s (fun t => ng t.vat.cpl 0 [] == [(0x77#32, 1)] && t.vat.done == []) = true ∧
    does (.itemRelease 0) f (fun t => t.flag (F.vatCplStatOvf 0)) = true ∧
    does (.completionRecordRead (.host 0) 0) c (fun t => t.rdata == 9#32 && ng t.vat.cpl 0 [(0#32, 0)] == []) = true ∧
    does (.completionRecordRead (.host 1) 0) c (fun t => t.rdata == 0#32 && ng t.vat.cpl 0 [] == [(9#32, 2)]) = true := by
  decide +kernel
theorem witness_vatFrames :
    let e := up [(F.vatFclkEn 7, 1), (F.vatFclkLen 7, 5)] live
    let r := e.put (F.vatFclkRun 7) 1
    let p := { r with sys := { r.sys with qt := 4 * 1023 } }
    vatUp.partBad 1 0xA1000000#32 = true ∧ vatUp.partBad 1 0x81000000#32 = false ∧
    (0x80000025#32 : Word).extractLsb' 4 2 ≠ 3#2 ∧ (0x80000025#32 : Word).extractLsb' 0 3 ≤ 5#3 ∧ live.flag (F.vatFclkEn 7) = false ∧
    domOf (e.get (F.vatFclkDom 7)) = some .a ∧ e.inUse .a = true ∧ e.atFence 7 = true ∧ e.atCommon = true ∧
    (e.fclk 7).startNb ≤ e.tickNo ∧ (r.fclk 7).at_ ≠ some r.sys.qt ∧ 0 ≤ frameDiff 0 ((r.put (F.vatFnumFnum 7) 1).fclk 7).first ∧ frameDiff 0xFFFFFFFE (r.fclk 7).first < 0 ∧
    (p.dtick .a + (1024 + p.cD .a - 1) / p.cD .a) % p.frameLen 7 = 0 ∧ (p.fclk 7).cut ≠ some ((p.fnum 7 + 2 ^ 32 - 1) % 2 ^ 32) ∧
    does (.partitionConfig (.host 0) 1 0xA1000000#32) vatUp (fun t => t.flag F.vatEvtCfgErr) = true ∧
    does (.frameClockEnable .boot 7 0x80000005#32) live (fun t => t.flag (F.vatFclkEn 7) && t.get (F.vatFclkLen 7) == 5) = true ∧
    does (.frameClockEnable .boot 7 0x80000006#32) live (fun t => t.flag F.vatEvtCfgErr && !t.flag (F.vatFclkEn 7)) = true ∧
    does (.frameClockEnable .boot 7 0#32) r (fun t => !t.flag (F.vatFclkEn 7) && t.flag (F.vatFclkRun 7)) = true ∧
    does (.frameClockStart 7) e (fun t => t.flag (F.vatFclkRun 7) && t.fnum 7 == 0) = true ∧
    does (.frameFence 7) r (fun t => t.fnum 7 == 0) = true ∧
    does (.frameFence 7) (r.put (F.vatFclkEn 7) 0) (fun t => !t.flag (F.vatFclkRun 7) && t.fnum 7 == 0xFFFFFFFF) = true ∧
    does (.captureWindowOpen 7) (r.put (F.vatFnumFnum 7) 1) (fun t => (t.fclk 7).opened == some 0) = true ∧
    does (.fenceCutoff 7) p (fun t => (t.fclk 7).cut == some 0xFFFFFFFE) = true := by decide +kernel

/-- A bundle: OP, D, A, B of the compute operation, the rest of its fields, and the two memory operations (Table 08-2). -/
def bun (op d a b rest ma mb : Nat) : DWord :=
  BitVec.ofNat 64 (op * 2 ^ 58 + d * 2 ^ 53 + a * 2 ^ 48 + b * 2 ^ 43 + rest * 2 ^ 40 + ma * 2 ^ 20 + mb)

/-- Core 15 in RUN at address 0 with the bundle `x` in its cache; W1 is the most negative number, W2 is 1. -/
def core (x : DWord) : State :=
  (live.put (F.igStatusState 15) 2).setCore 15 (fun k => { k with
    ic := [⟨0, 0, List.replicate 8 x⟩]
    w := (k.w.set 1 0x80000000#32).set 2 1#32 })

/-- The hypotheses of a bundle statement, and W3 after the bundle. -/
def bunGives (i : Instr) (x : DWord) (p : Core → Bool) : Bool :=
  let s := core x
  s.igReady 15 && !(s.core 15).ferr && (s.core 15).fetch == some x && bundleLegal (s.core 15) x &&
  does i s (fun t => p (t.core 15))

theorem witness_igAlu :
    bunGives (.igAdd 15) (bun 0x10 3 1 1 0 0 0) (fun k => k.r 3 == 0#32) = true ∧
    bunGives (.igSub 15) (bun 0x11 3 1 2 0 0 0) (fun k => k.r 3 == 0x7FFFFFFF#32) = true ∧
    bunGives (.igAdds 15) (bun 0x12 3 1 1 0 0 0) (fun k => k.r 3 == 0x80000000#32) = true ∧
    bunGives (.igSubs 15) (bun 0x13 3 1 2 0 0 0) (fun k => k.r 3 == 0x80000000#32) = true ∧
    bunGives (.igAnd 15) (bun 0x14 3 1 1 0 0 0) (fun k => k.r 3 == 0x80000000#32) = true ∧
    bunGives (.igOr 15) (bun 0x15 3 1 2 0 0 0) (fun k => k.r 3 == 0x80000001#32) = true ∧
    bunGives (.igXor 15) (bun 0x16 3 1 1 0 0 0) (fun k => k.r 3 == 0#32) = true ∧
    bunGives (.igMin 15) (bun 0x17 3 1 2 0 0 0) (fun k => k.r 3 == 0x80000000#32) = true ∧
    bunGives (.igMax 15) (bun 0x18 3 1 2 0 0 0) (fun k => k.r 3 == 1#32) = true ∧
    bunGives (.igMov 15) (bun 0x19 3 1 0 0 0 0) (fun k => k.r 3 == 0x80000000#32) = true ∧
    bunGives (.igAddi 15) (bun 0x1B 3 2 31 6 0 0) (fun k => k.r 3 == 0xFFFFFFFF#32) = true ∧
    bunGives (.igAsr 15) (bun 0x1C 3 1 3 7 0 0) (fun k => k.r 3 == 0xFFFFFFFF#32) = true ∧
    bunGives (.igLsr 15) (bun 0x1D 3 1 3 7 0 0) (fun k => k.r 3 == 1#32) = true ∧
    bunGives (.igLsl 15) (bun 0x1E 3 2 3 7 0 0) (fun k => k.r 3 == 0x80000000#32) = true ∧
    bunGives (.igLdiw 15) (bun 0x30 3 0 0 0 0xFFF 0xFFFFF) (fun k => k.r 3 == 0xFFFFFFFF#32) = true := by decide +kernel
theorem witness_igNsbMfs :
    bunGives (.igNsb 15) (bun 0x1F 3 0 0 0 0 0) (fun k => k.r 3 == 31#32) = true ∧
    bunGives (.igNsb 15) (bun 0x1F 3 1 0 0 0 0) (fun k => k.r 3 == 0#32) = true ∧
    bunGives (.igMfs 15) (bun 0x23 3 0 0 5 0 0) (fun k => k.r 3 == 1#32) = true ∧
    bunGives (.igMfs 15) (bun 0x23 3 0 0 3 0 0) (fun k => k.r 3 == 0#32) = true := by decide +kernel

/-- X, Y and the accumulator of a MAC: X = W(x), Y = W(y), bits [15] NEG low in `rest`. -/
def mac (op acc x y neg : Nat) : DWord := BitVec.ofNat 64 (op * 2 ^ 58 + acc * 2 ^ 55 + x * 2 ^ 50 + y * 2 ^ 45 + neg * 2 ^ 44)

theorem witness_igAccumulate :
    bunGives (.igNop 15) 0#64 (fun k => k.a 0 == 0#72) = true ∧
    bunGives (.igMac 15) (mac 0x01 7 1 2 1) (fun k => (k.a 7).toInt == 2 ^ 31) = true ∧
    bunGives (.igMacp 15) (mac 0x02 7 2 2 0) (fun k => (k.a 7).toInt == 1) = true ∧
    bunGives (.igMac2 15) (mac 0x03 6 0 0 0) (fun k => (k.a 7).toInt == 2 ^ 62) = true ∧
    bunGives (.igMpy 15) (mac 0x05 7 1 1 0) (fun k => (k.a 7).toInt == 2 ^ 62) = true ∧
    bunGives (.igClr 15) (bun 0x06 0 28 0 0 0 0) (fun k => k.a 7 == 0#72) = true ∧
    bunGives (.igMacq 15) (mac 0x04 7 0 0 0) (fun k => ((k.a 7).extractLsb' 36 36).toInt == 2 ^ 30) = true := by decide +kernel
theorem witness_igMove :
    let s := fun (op : Nat) => (core (bun op 3 28 0 0 0 0)).setCore 15 (fun k => { k with acc := k.acc.set 7 (BitVec.ofInt 72 (2 ^ 62)) })
    (s 0x07).igReady 15 = true ∧ bundleLegal ((s 0x07).core 15) (bun 0x07 3 28 0 0 0 0) = true ∧ cF (bun 0x07 3 28 0 0 0 0) 9 1 = 0 ∧
    cF (bun 0x07 3 28 0 0 0 0) 10 3 = 7 ∧
    does (.igMova 15) (s 0x07) (fun t => (t.core 15).r 3 == 0x7FFFFFFF#32 && t.flag (F.igStatusSat 15)) = true ∧
    does (.igMovac 15) (s 0x08) (fun t => (t.core 15).r 3 == 0x7FFFFFFF#32 && (t.core 15).a 7 == 0#72) = true := by decide +kernel
theorem witness_igState :
    bunGives (.igCmp 15) (bun 0x1A 0 1 2 0 0 0) (fun k => k.n && !k.z && !k.c) = true ∧
    bunGives (.igAgset 15) (BitVec.ofNat 64 (0x20 * 2 ^ 58 + 7 * 2 ^ 55 + 3 * 2 ^ 52 + 2 * 2 ^ 47)) (fun k => (k.gen 7).len == 1) = true ∧
    bunGives (.igAgadd 15) (BitVec.ofNat 64 (0x21 * 2 ^ 58 + 7 * 2 ^ 55 + 2 * 2 ^ 47)) (fun k => (k.gen 7).idx == 1) = true ∧
    bunGives (.igMts 15) (bun 0x22 0 2 0 3 0 0) (fun k => k.z && !k.n && !k.c) = true := by decide +kernel

/-- A memory operation: MOP, generator, register, post-modify (Table 08-4). -/
def mop (op ag reg pm : Nat) : Nat := op * 2 ^ 18 + ag * 2 ^ 14 + pm * 2 ^ 13 + reg * 2 ^ 8
theorem witness_igLocal :
    let x := bun 0 0 0 0 0 (mop 1 7 3 1) 0
    let s := ((core x).setCore 15 (fun k => { k with ag := k.ag.set 7 ⟨0x3FFFC, 0, 8, 0, 0⟩ })).ww (lmBase 15 + 0x3FFFC) 6#32
    s.igReady 15 = true ∧ bundleLegal (s.core 15) x = true ∧ isLong x = false ∧ memOp x true = 0 ∧ mPair (memOp x false) = false ∧
    mMop (memOp x false) = 1 ∧
    does (.igLoad 15) s (fun t => (t.core 15).ld == [(3, 6#32)] && ((t.core 15).gen 7).idx == 8) = true ∧
    does (.igStore 15) (core (bun 0 0 0 0 0 (mop 2 7 1 0) 0)) (fun t => t.rw (lmBase 15) == 0x80000000#32) = true ∧
    mMop (mop 2 7 1 0) = 2 ∧ mMop (mop 3 7 1 0) = 3 ∧ bundleLegal Core.zero (bun 0 0 0 0 0 (mop 3 7 1 0) 0) = true ∧
    does (.igScaledStore 15) ((core (bun 0 0 0 0 0 (mop 3 7 1 0) 0)).setCore 15 (fun k => { k with acc := k.acc.set 1 (BitVec.ofInt 72 (3 * 2 ^ 31)) }))
      (fun t => t.rw (lmBase 15) == 3#32) = true := by decide +kernel
theorem witness_igControl :
    let s := (core 0#64).setCore 15 (fun k => { k with dly := 1, after_ := 1, tgt := 0x100 })
    let r := ((s.setCore 15 (fun k => { k with after_ := 3, inH := true })).put (F.igEpcPc 15) 0x40).put (F.igEstatFlags 15) 1
    let w := r.setCore 15 (fun k => { k with limit := 1 })
    bunGives (.igBr 15) (bun 0x31 0 0 0 0 0 4) (fun k => k.dly == 2 && k.after_ == 1 && k.tgt == 32) = true ∧
    bunGives (.igBr 15) (BitVec.ofNat 64 (0x31 * 2 ^ 58 + 1 * 2 ^ 54 + 4)) (fun k => k.dly == 2 && k.after_ == 0) = true ∧
    bunGives (.igCall 15) (bun 0x32 0 0 0 0 0 4) (fun k => k.r 31 == 24#32 && k.tgt == 32) = true ∧
    bunGives (.igRet 15) (bun 0x33 0 0 0 0 0 0) (fun k => k.after_ == 1 && k.tgt == 0) = true ∧
    bunGives (.igRte 15) (bun 0x34 0 0 0 0 0 0) (fun k => k.after_ == 3) = true ∧
    bunGives (.igDone 15) (bun 0x36 0 0 0 0 0 0) (fun k => k.after_ == 2) = true ∧
    bunGives (.igRep 15) (BitVec.ofNat 64 (0x35 * 2 ^ 58 + 64 * 2 ^ 24 + 1)) (fun k => k.rep == [⟨8, 16, 64⟩] && k.pc == 8) = true ∧
    bunGives (.igRep 15) (BitVec.ofNat 64 (0x35 * 2 ^ 58 + 1)) (fun k => k.rep == [] && k.pc == 24) = true ∧
    s.igReady 15 = true ∧ does (.igNop 15) s (fun t => (t.core 15).pc == 0x100 && (t.core 15).dly == 0) = true ∧
    r.igReady 15 = true ∧ bundleLegal (r.core 15) 0#64 = true ∧ (r.core 15).limit = 0 ∧
    does (.igNop 15) r (fun t => (t.core 15).pc == 0x40 && t.igState 15 == 2 && (t.core 15).z && !(t.core 15).inH) = true ∧
    w.igReady 15 = true ∧ does (.igNop 15) w (fun t => (t.core 15).limit ≤ (t.core 15).wdt && (t.core 15).fin == 2) = true := by decide +kernel
theorem witness_igFar :
    let four : List FarWrite := List.replicate 4 ⟨0, 0#32, true, false⟩
    let f := (core (bun 0x38 0 1 2 0 0 0)).setCore 15 (fun k => { k with fst_ := four })
    bunGives (.igFld 15) (bun 0x37 3 1 0 0 0 0) (fun k => k.stall == 1 && k.fldReg == 3 && k.fldAddr == 0x80000000) = true ∧
    bunGives (.igFst 15) (bun 0x38 0 1 2 0 0 0) (fun k => k.fst_ == [⟨0x80000000, 1#32, true, false⟩]) = true ∧
    f.igReady 15 = true ∧ 4 ≤ (f.core 15).fst_.length ∧ does (.igFst 15) f (fun t => (t.core 15).stall == 3) = true ∧
    bunGives (.igFence 15) (bun 0x39 0 0 0 0 0 0) (fun k => k.stall == 0) = true ∧
    bunGives (.igSubmit ⟨15, 20⟩) (bun 0x3A 0 2 0 0 0 0) (fun k => k.c && k.cyc == 17) = true ∧
    bunGives (.igBkpt 15) (bun 0x3B 0 0 0 0 0 0) (fun k => k.pDbg) = true := by decide +kernel
theorem witness_igFarDone :
    let s := ((core 0#64).setCore 15 (fun k => { k with stall := 1, fldReg := 3, fldAddr := lmBase 0 + 0x3FFFC })).ww (lmBase 0 + 0x3FFFC) 8#32
    let w := (core 0#64).setCore 15 (fun k => { k with fst_ := [⟨lmBase 0, 9#32, true, false⟩] })
    s.igPowered 0 = true ∧ s.sys.trig = 0 ∧ s.igRuns 15 = true ∧ (s.core 15).fst_ = [] ∧ w.igPowered 15 = true ∧
    (w.core 15).fst_ ≠ [] ∧ (s.core 0).st = [] ∧ (s.core 15).stall = 1 ∧
    does (.fldComplete ⟨15, 0⟩ 9) w (fun t => t.core 15 == w.core 15) = true := by decide +kernel
theorem witness_igIllegal :
    let x := bun 0x3F 0 0 0 0 0 0
    let e := (core 0#64).setCore 15 (fun k => { k with ic := [] })
    let l := (core 0#64).setCore 15 (fun k => { k with iterEnd := true, rep := [⟨8, 16, 2⟩], pc := 24 })
    let m := l.setCore 15 (fun k => { k with rep := [⟨8, 16, 1⟩] })
    let b := l.setCore 15 (fun k => { k with scale := 0x81000000#32, det := 4 })
    (core x).igReady 15 = true ∧ bundleLegal ((core x).core 15) x = false ∧
    ((core x).setCore 15 (fun k => { k with inH := true })).igReady 15 = true ∧
    e.igReady 15 = true ∧ (e.core 15).fetch = none ∧ isShared (e.core 15).pc = true ∧ e.grpState (64 * ((e.core 15).pc / 64)) = 0 ∧
    e.lineClean ((e.core 15).pc / 64) = true ∧ e.lineClean ((e.core 15).pc / 64 + 1) = true ∧
    (let d := (core x).setCore 15 (fun k => { k with inH := true, dly := 1, after_ := 3 })
     d.igReady 15 = true ∧ bundleLegal (d.core 15) x = false ∧ does (.igIllegalBundle 15) d (fun t => (t.core 15).fin == 2) = true) ∧ (e.core 15).fst_ = [] ∧ l.igRuns 15 = true ∧ (l.core 15).iterEnd = true ∧
    (l.core 15).scale.getLsbD 31 = false ∧ (b.core 15).scale.getLsbD 31 = true ∧ (b.core 15).rep.length = (b.core 15).lvl ∧
    does (.igIllegalBundle 15) (core x) (fun t => t.flag (F.igStatusIll 15) && (t.core 15).pIll) = true ∧
    does (.repeatIterationEnd 15) l (fun t => (t.core 15).pc == 8) = true ∧
    does (.repeatIterationEnd 15) m (fun t => (t.core 15).pc == 24 && (t.core 15).rep == []) = true ∧
    does (.repeatIterationEnd 15) b (fun t => (t.core 15).exp == 3 && (t.core 15).det == 31) = true := by decide +kernel
theorem witness_igExceptions :
    let b := (core 0#64).setCore 15 (fun k => { k with take := true, pc := 0x40, z := true })
    let p := fun (g : Core → Core) => b.setCore 15 g
    let w := (core 0#64).setCore 15 (fun k => { k with limit := 5, wdt := 5 })
    b.igRuns 15 = true ∧ (b.core 15).fin = 0 ∧ (b.core 15).stall = 0 ∧ (b.core 15).inH = false ∧ w.igRuns 15 = true ∧
    does (.exceptionTake 15) (p (fun k => { k with pDbg := true })) (fun t => t.igState 15 == 4) = true ∧
    does (.exceptionTake 15) (p (fun k => { k with pWdt := true })) (fun t => (t.core 15).pc == 0x40 && t.get (F.igEstatCause 15) == 1) = true ∧
    does (.exceptionTake 15) (p (fun k => { k with pIll := true })) (fun t => (t.core 15).pc == 0 && t.get (F.igEpcPc 15) == 0x40) = true ∧
    does (.exceptionTake 15) (p (fun k => { k with pOvf := true })) (fun t => (t.core 15).pc == 0x80 && t.get (F.igEstatFlags 15) == 1) = true ∧
    does (.exceptionTake 15) (p (fun k => { k with pDbell := true })) (fun t => (t.core 15).pc == 0xC0 && t.igState 15 == 3) = true ∧
    does (.watchdogExpiry 15) w (fun t => (t.core 15).pWdt) = true ∧
    (let q := w.setCore 15 (fun k => { k with wdt := 3, stall := 1 })
     does (.watchdogExpiry 15) q (fun t => (t.core 15).pWdt && (t.core 15).cyc == 2) = true) ∧
    does (.watchdogExpiry 15) (w.setCore 15 (fun k => { k with inH := true })) (fun t => (t.core 15).fin == 2) = true := by
  decide +kernel
theorem witness_igControlRegisters :
    let h := live.put (F.igStatusState 15) 4
    let i := live.put (F.igStatusState 15) 1
    live.igPowered 15 = true ∧ State.reset.igPowered 15 = false ∧ h.igState 15 = 4 ∧ i.igState 15 = 1 ∧
    does (.debugHalt (.host 3) 15) i (fun t => (t.core 15).pDbg) = true ∧
    does (.debugResume (.host 3) 15) h (fun t => t.igState 15 == 2) = true ∧
    does (.debugStep (.host 3) 15) h (fun t => t.igState 15 == 2 && (t.core 15).pDbg) = true ∧
    (let u := h.put (F.pllStatusLocked 0) 0
     u.igState 15 = 4 ∧ u.flag (F.pllStatusLocked 0) = false ∧
     does (.debugResume (.host 3) 15) u (fun t => t.igState 15 == 4 && (t.core 15).dbgReq == 1) = true ∧
     does (.debugStep (.host 3) 15) u (fun t => t.igState 15 == 4 && (t.core 15).dbgReq == 2) = true) ∧
    does (.icinv (.host 3) 15) h (fun t => t.flag (F.igStatusCfgIgn 15)) = true ∧
    does (.doorbellWrite (.dma 31) 15 0x18000#32) i (fun t => t.get (F.igDbellPend 15) == 0x8000) = true ∧
    accessOk (lmBase 15 + 0x3FFF0) 16 = true ∧ accessOk (lmBase 15 + 4) 8 = false ∧
    does (.localMemoryFabricAccess (.dma 31) 15 0x3FFF0 true ⟨List.replicate 16 5#8, 0⟩ false) live
      (fun t => t.rw 0x043FFFFC == 0x05050505#32 && t.rw 0x043FFFEC == 0#32) = true ∧
    does (.localMemoryFabricAccess (.dma 31) 15 4 true ⟨List.replicate 8 5#8, 0⟩ false) live (fun t => t.resp == .error errAlign) = true ∧
    does (.localMemoryFabricAccess (.dma 31) 15 1 false ⟨[0#8], 0⟩ false) (live.ww (lmBase 15) 0x0600#32) (fun t => t.rbytes == [6#8]) = true := by decide +kernel

/-! ## Ports, ASRC and PDM -/

/-- Port 5 as a slave of FSYNC with two slots of 16 bits at 48 kHz, in state `st`. -/
def tport (st : Nat) : State := up [(F.tpCfgMaster 5, 0), (F.tpCfgFmt 5, 0), (F.tpCfgWidth 5, 0), (F.tpCfgSlots 5, 1), (F.tpCfgFrate 5, 8),
  (F.tpStatusState 5, st), (F.tpCtrlEn 5, b2n (st != 0))] live
/-- The same port as a master clocked by the APLL. -/
def mport (st : Nat) : State := (tport st).put (F.tpCfgMaster 5) 1

theorem witness_portControl :
    let s := tport tpStopped
    let m := mport tpStopped
    let b := s.put (F.tpCfgFmt 5) 3
    s.tpState 5 = tpStopped ∧ s.flag (F.tpCtrlEn 5) = false ∧ (s.port 5).stopPend = false ∧ s.tpBad 5 = false ∧ s.tpApll 5 = false ∧
    m.tpBad 5 = false ∧ m.tpApll 5 = true ∧ m.tpBound 5 = false ∧ b.tpBad 5 = true ∧
    does (.portEnable (.host 3) 5) s (fun t => t.tpState 5 == tpResync && t.flag (F.tpCtrlEn 5)) = true ∧
    does (.portEnable (.host 3) 5) m (fun t => (t.port 5).startPend && t.tpState 5 == tpStopped) = true ∧
    does (.portEnable (.host 3) 5) b (fun t => t.flag (F.tpStatusCfgErr 5) && !t.flag (F.tpCtrlEn 5)) = true ∧
    does (.portDisable .boot 5) (tport tpRun) (fun t => (t.port 5).stopPend && t.tpState 5 == tpRun) = true ∧
    does (.portDisable .boot 5) (tport tpLost) (fun t => t.tpState 5 == tpStopped) = true ∧
    does (.portResyncRequest .boot 5) (tport tpRun) (fun t => t.tpState 5 == tpResync) = true ∧
    does (.portResyncRequest .boot 5) (tport tpResync) (fun t => (t.port 5).step == 2) = true ∧
    does (.portResyncRequest .boot 5) (tport tpLost) (fun t => t.flag (F.tpStatusCfgIgn 5)) = true ∧
    does (.slotmaskWrite .boot 5 true 0x1FFFF#32) s (fun t => t.get (F.tpSlotmaskOutShadow 5) == 0xFFFF) = true := by decide +kernel
theorem witness_portStates :
    let p := (mport tpStopped).setPort 5 (fun p => { p with startPend := true })
    let r := (tport tpResync).setPort 5 (fun p => { p with step := 4 })
    p.st = stRun ∧ p.atEdge = true ∧ r.tpState 5 = tpResync ∧ (r.port 5).step = 4 ∧ (tport tpRun).tpApll 5 = false ∧
    does (.portEnterRun 5) p (fun t => t.tpState 5 == tpRun && (t.port 5).outF.length == t.get (F.tpCfgStartLvl 5) + 1) = true ∧
    does (.portEnterRun 5) r (fun t => t.tpState 5 == tpRun) = true ∧
    does (.fsyncLoss 5) (tport tpRun) (fun t => t.tpState 5 == tpLost && t.get (F.tpErrCntClkLoss 5) == 1) = true ∧
    does (.fsyncLoss 5) ((tport tpRun).setPort 5 (fun p => { p with stopPend := true })) (fun t => t.tpState 5 == tpStopped) = true ∧
    does (.fsyncReturn 5) (tport tpLost) (fun t => t.tpState 5 == tpResync) = true := by decide +kernel

/-- Port 5 in RUN with the IN FIFO `i` and the OUT FIFO `o`. -/
def fifos (i o : List (List Word)) : State :=
  (tport tpRun).setPort 5 (fun p => { p with inF := i, outF := o, oph := 2, slots := Vector.replicate 16 ⟨2, 0, 0#32, 0#32⟩ })
theorem witness_portFrames :
    let f : List Word := [0x12340000#32, 0x80000000#32]
    let s := up [(F.tpSlotmaskInActive 5, 3), (F.tpSlotmaskOutActive 5, 3)] (fifos [f] [f])
    let full := (mport tpRun).setPort 5 (fun p => { p with inF := List.replicate 8 f })
    s.tpBound 5 = false ∧ s.tpState 5 = tpRun ∧ s.st = stRun ∧ (full.port 5).inF.length = 8 ∧ full.tpMaster 5 = true ∧
    (s.port 5).pcnt + 1 < 256 ∧ s.get (F.tpCfgStartLvl 5) + 1 ≤ 4 ∧ (s.port 5).stopPend = false ∧
    full.tpApll 5 = true ∧ full.dlySpan 1 10 = (0, 0) ∧ full.sys.qt % 4 = 0 ∧ full.stepQ = 4 ∧ 0 < full.cA ∧ full.frameCyc 5 = some 0 ∧
    (let late := full.setSys (fun y => { y with cyc := 1 })
     late.frameCyc 5 = none ∧ does (.outputFrameStart 5) late (fun t => t.port 5 == full.port 5) = true) ∧
    does (.outputFrameStart 5) ((mport tpRun).setClk (fun c => { c with dly := c.dly.set 14 (256 * 4000) }))
      (fun t => t.sys.cyc == 4000 && t.flag (F.tpStatusOutUnder 5)) = true ∧
    does (.inputFrameComplete 5 32 0 [0x1234#32, 0x8000#32]) ((mport tpRun).put (F.tpSlotmaskInActive 5) 3) (fun t => (t.port 5).inF == [f]) = true ∧
    does (.inputFrameComplete 5 32 0 []) full (fun t => t.flag (F.tpStatusInOver 5) && t.get (F.tpSlipCntInOver 5) == 1) = true ∧
    does (.inputFrameComplete 5 31 0 []) s (fun t => t.flag (F.tpStatusFrameErr 5) && (t.port 5).inF == [f]) = true ∧
    does (.outputFrameStart 5) s (fun t => (t.port 5).wire == [some 0x1234, some 0x8000] && (t.port 5).outF == []) = true ∧
    does (.outputFrameStart 5) (fifos [] []) (fun t => t.flag (F.tpStatusOutUnder 5)) = true ∧
    does (.outputFrameStart 5) (s.setPort 5 (fun p => { p with stopPend := true })) (fun t => t.tpState 5 == tpStopped) = true ∧
    does (.takePoint 5) (s.setPort 5 (fun p => { p with taking := true }))
      (fun t => spGet (fun _ => 0#32) t.rt.inj 80 == 0x12340000#32 && (t.port 5).inF == []) = true := by decide +kernel
theorem witness_asrc :
    let s := (tport tpResync).wr (R.asrcCfg 7) 0x85000000#32
    let a := (s.put (F.asrcStatusState 7) 1).setGrp 7 (fun g => { g with step := 2 }) |>.setPort 5 (fun p => { p with step := 3 })
    s.tpState 5 ≠ tpStopped ∧ (tport tpStopped).get (F.asrcCfgPort 7) ≠ 5 ∧ a.flag (F.asrcCfgEn 7) = true ∧
    a.get (F.asrcCfgPort 7) = 5 ∧ (a.grp 7).step = 2 ∧ a.asrcOn 7 5 = true ∧ (a.port 5).step = 3 ∧
    (0x87000000#32 : Word).extractLsb' 24 3 = 7#3 ∧ (0x85300000#32 : Word).extractLsb' 20 2 = 3#2 ∧
    does (.asrcConfig (.host 0) 7 0 0x80000000#32) s (fun t => t.flag (F.asrcStatusCfgIgn 7)) = true ∧
    does (.asrcConfig (.host 0) 7 0 0x87000000#32) (tport tpStopped) (fun t => t.flag (F.asrcStatusCfgErr 7) && !t.flag (F.asrcCfgEn 7)) = true ∧
    does (.asrcConfig (.host 0) 7 0 0x85300000#32) (tport tpStopped) (fun t => t.flag (F.asrcStatusCfgErr 7)) = true ∧
    does (.asrcConfig (.host 0) 7 0 0x05000000#32) (tport tpStopped) (fun t => t.rd (R.asrcCfg 7) == 0x05000000#32) = true ∧
    (let u := (tport tpStopped).ok.wr (R.asrcCfg 7) 0x85000000#32
     u.tpApll 5 = false ∧ u.asrcDup 5 = false ∧
     does (.asrcConfig .boot 7 0 0x85000000#32) (tport tpStopped) (fun t => t.rd (R.asrcCfg 7) == 0x85000000#32) = true) ∧
    (let e := (tport tpStopped).wr (R.asrcCfg 7) 0x85000000#32
     (e.ok.wr (R.asrcCfg 7 + 4) (0x80808080#32 &&& 0xCFCFCFCF#32)).asrcDup 5 = true ∧
     does (.asrcConfig .boot 7 1 0x80808080#32) e (fun t => t.flag (F.asrcStatusCfgErr 7) && t.rd (R.asrcCfg 7 + 4) == 0#32) = true ∧
     does (.asrcConfig .boot 7 1 0x80#32) e (fun t => t.rd (R.asrcCfg 7 + 4) == 0x80#32) = true) ∧
    does (.asrcLoopTimer 7) a (fun t => t.get (F.asrcStatusState 7) == 2 && (t.port 5).step == 4) = true := by decide +kernel
theorem witness_pdm :
    let s := live.put F.pdmCtrlVout18En 1
    let w : Word := 0x800000C0#32
    let n := w &&& 0x300003FF#32
    let z := s.wr (R.pdmClkcfg 2) w
    let o := { z with pdm := { z.pdm with cfg := z.pdm.cfg.set 2 w } }
    let r := o.put F.pdmStatusRun 4
    let q := ((r.setMic 23 (fun x => { x with on := true })).put (F.pdmChcfgEn 23) 1).pdmReady 2 true
    let k := q.put F.pdmStuckMicStuck 0x800000
    s.flag (F.pdmClkcfgEn 2) = false ∧ (s.ok.wr (R.pdmClkcfg 2) n).pdmBad n = false ∧
    (live.ok.wr (R.pdmClkcfg 2) n).pdmBad n = true ∧ o.flag (F.pdmClkcfgEn 2) = true ∧ o.runs = true ∧
    o.atEdge = true ∧ (o.pdmCfg 2).getLsbD 31 = true ∧ o.pdmOn 2 = false ∧ o.pdmBad (o.pdmCfg 2) = false ∧ r.pdmOn 2 = true ∧
    ng r.pdm.ready 2 false = false ∧ ng q.pdm.ready 2 false = true ∧ q.stuck 23 = false ∧ q.micOn 23 = true ∧ k.stuck 23 = true ∧
    (k.mic 23).wait = 0 ∧ (r.wr (R.pdmClkcfg 2) 0xC0#32).rd (R.pdmClkcfg 2) ≠ (r.wr (R.pdmClkcfg 2) 0xC0#32).pdmCfg 2 ∧
    (r.put (F.pdmChcfgEn 22) 1).micOn 22 = false ∧ (q.put (F.pdmChcfgEn 23) 0).flag (F.pdmChcfgEn 23) = false ∧
    ((r.wr (R.pdmClkcfg 2) 0xC0#32).pdmTakeGroup 2).pdmOn 2 = false ∧
    (((r.put (F.pdmChcfgEn 22) 1).pdmTakeCh 22).mic 22).wait = 20 ∧
    does (.pdmGroupEnable .boot 2 w) s (fun t => t.flag (F.pdmClkcfgEn 2) && t.pdmCfg 2 == s.pdmCfg 2) = true ∧
    does (.pdmGroupEnable .boot 2 w) live (fun t => t.flag F.pdmStatusCfgErr && !t.flag (F.pdmClkcfgEn 2)) = true ∧
    does (.pdmGroupEnable .boot 2 0x800000C1#32) o (fun t => t.flag F.pdmStatusCfgIgn && t.rd (R.pdmClkcfg 2) == w) = true ∧
    does (.pdmGroupEnable .boot 2 0#32) r (fun t => t.pdmOn 2 && !t.flag (F.pdmClkcfgEn 2)) = true ∧
    does (.pdmClockStart 2) o (fun t => t.pdmOn 2 && ng t.pdm.d 2 0 == 64) = true ∧
    does (.pdmWakeExpiry 2) (q.pdmReady 2 false) (fun t => (t.mic 23).ramp.ph == 1) = true ∧
    does (.pdmChannelEnable .boot 22 0x80000000#32) q (fun t => t.flag (F.pdmChcfgEn 22) && !t.micOn 22) = true ∧
    does (.pdmChannelEnable .boot 23 0#32) q (fun t => !t.flag (F.pdmChcfgEn 23) && t.micOn 23) = true ∧
    does (.micStuck 23) q (fun t => t.stuck 23 && t.get (F.pdmStuckEvtBit 23) == 1) = true ∧
    does (.micStuckClear 23) k (fun t => !t.stuck 23 && (t.mic 23).ramp.ph == 1) = true := by
  decide +kernel

/-! ## Clocks and Ochre -/

/-- The bands of both PLLs are stored, so that no free value decides a search, and Ochre runs free. -/
def osc : State := up [(F.ocStateState, ocFreerun), (F.pllBandValid 0 0, 1), (F.pllBandFkey 0 0, live.bandKey 0),
  (F.pllBandValid 1 0, 1), (F.pllBandFkey 1 0, live.bandKey 1)] live
theorem witness_pllLock :
    let s := osc.put (F.pllStatusLocked 0) 0
    let b := { s with boot := { s.boot with step := 5 } }
    let k := (s.put (F.igStatusState 15) 4).setCore 15 (fun c => { c with dbgReq := 1 })
    let a := up [(F.pllStatusLocked 1, 0), (F.pllStatusState 1, plHop)] osc
    let h := a.put F.sysStateState stHalt
    s.pllLocked 0 = false ∧ s.flag F.clkXtalXtalOk = true ∧ s.powered 1 = true ∧ b.boot.step = 5 ∧ b.boot.fromRet.testBit 1 = false ∧
    s.boot.step ≠ 5 ∧ k.igState 15 = 4 ∧ (k.core 15).dbgReq = 1 ∧ b.boot.filled = false ∧
    (let z := { b with boot := { b.boot with filled := true } }
     z.boot.filled = true ∧ does (.pllLock 0) (z.ww 0x100 5#32) (fun t => t.rw 0x100 == 5#32) = true) ∧
    does (.pllLock 0) k (fun t => t.igState 15 == 2) = true ∧
    live.pllLocked 0 = true ∧ a.apllMay = true ∧ live.apllMay = false ∧ h.apllMay = true ∧ h.st = stHalt ∧
    live.get (F.pllStatusState 1) ≠ plOff ∧ live.sys.dueReload = false ∧ a.pllLocked 1 = false ∧
    does (.pllLock 0) s (fun t => t.pllLocked 0) = true ∧
    does (.pllLock 0) b (fun t => t.boot.step == 6) = true ∧
    does (.pllLossOfLock 1) live (fun t => t.st == stHalt && !t.sys.engClk) = true ∧
    does (.pllLossOfLock 0) live (fun t => t.flag (F.pllStatusLol 0) && t.get F.clkXtalSysclk == 1) = true := by decide +kernel
theorem witness_crystal :
    let s := live.put F.clkXtalXtalOk 0
    let b := { State.reset.put (F.pwrStatState 1) 3 with boot := { State.reset.boot with step := 4 } }
    s.flag F.clkXtalXtalOk = false ∧ s.powered 1 = true ∧ 5 ≤ s.boot.step ∧ b.boot.step < 5 ∧ b.flag F.clkXtalXtalOk = false ∧
    b.flag F.clkXtalXtalLoss = false ∧ b.st = stBoot ∧ b.boot.step ≠ 0 ∧
    does .crystalLoss live (fun t => t.flag F.clkXtalXtalLoss && t.ocSt == ocHalt && t.chime.xtal) = true ∧
    (let z := { live with boot := { live.boot with step := 6, ph := 1, tries := 3 } }
     z.boot.step = 6 ∧ does .crystalLoss z (fun t => t.boot.step == 5 && t.boot.tries == 3) = true) ∧
    does .crystalGood s (fun t => t.flag F.clkXtalXtalOk) = true ∧ does .crystalGood b (fun t => t.flag F.clkXtalXtalOk) = true ∧
    does .crystalStartTimeout b (fun t => t.chime.xtal) = true := by decide +kernel
theorem witness_pllWrites :
    let s := osc
    let num := 60000
    let g := s.put (F.pllMdenDen 1) num
    let goal := multOf 96 30000 num
    let nom := nomMult (famOf (cfgFsa g.domAct))
    let r := s.put (F.pllStatusState 1) plRetune
    let c := s.put (F.pllCtrlCompat 1) 1
    let o := (s.put (F.pllOutCfgEn 1 4) 1).put (F.pllOutCfgDiv 1 4) 96
    let j := { o.put (F.pllCtrlCompat 1) 1 with clk := { o.clk with apply := 1 } }
    let div := fun (d : Nat) => (o.ok.put (F.pllOutCfgFmax 1 4) (o.get (F.pllOutCfgFmax 1 4))).put (F.pllOutCfgDiv 1 4) d
    s.ocSt = ocFreerun ∧ (s.put F.ocStateState ocLocked).ocSt ≠ ocFreerun ∧ g.get (F.pllMdenDen 1) ≤ num ∧ 30000 < g.get (F.pllMdenDen 1) ∧
    98 * nom.num * goal.den ≤ 100 * goal.num * nom.den ∧ 100 * goal.num * nom.den ≤ 102 * nom.num * goal.den ∧
    ¬(100 * (multOf 98 30000 num).num * nom.den ≤ 102 * nom.num * (multOf 98 30000 num).den) ∧
    g.ok.putsAbove g.ok 1 g.pllGoal goal = false ∧ g.pllLocked 1 = true ∧ g.pllSeeks 1 = false ∧ goal.fix ≠ g.clk.cur ∧
    r.get (F.pllStatusState 1) = plRetune ∧ c.flag (F.pllCtrlCompat 1) = true ∧ c.mclkJoins = false ∧ j.mclkJoins = true ∧ j.shadowOk 4 1 = false ∧
    live.flag (F.pllOutDlyMoving 1 13) = false ∧ (13 : Nat) < outCount 1 ∧
    o.ok.putsAbove (div 65535) 1 o.pllGoal o.pllGoal = false ∧ o.ok.putsAbove (div 1) 1 o.pllGoal o.pllGoal = true ∧
    does (.pllMultiplierWrite .boot 0x60007530#32) g (fun t => t.get (F.pllStatusState 1) == plRetune && t.pllGoal == goal) = true ∧
    does (.pllMultiplierWrite .boot 0x62007530#32) g (fun t => t.flag (F.pllStatusFmaxErr 1) && t.rd (R.pllMult 1) == g.rd (R.pllMult 1)) = true ∧
    does (.pllMultiplierWrite .boot 0x6000EA60#32) g (fun t => t.flag (F.pllStatusFmaxErr 1)) = true ∧
    does (.pllMultiplierWrite .boot 0x60007530#32) (g.put F.ocStateState ocLocked) (fun t => t.flag (F.pllStatusCfgIgn 1)) = true ∧
    does .retuneStep r (fun t => t.get (F.pllStatusState 1) == plLocked || t.get (F.pllStatusState 1) == plRetune) = true ∧
    does (.pllDividerWrite .boot 1 4 (BitVec.ofNat 32 (s.get (F.pllOutCfgFmax 1 4) * 65536))) s (fun t => t.flag (F.pllStatusFmaxErr 1)) = true ∧
    does (.pllDividerWrite .boot 1 4 (BitVec.ofNat 32 (s.get (F.pllOutCfgFmax 1 4) * 65536 + 65535))) s
      (fun t => t.get (F.pllOutCfgDiv 1 4) == 65535) = true ∧
    does (.pllDividerWrite .boot 1 4 (BitVec.ofNat 32 (2 ^ 31 + o.get (F.pllOutCfgFmax 1 4) * 65536 + 1))) o
      (fun t => t.flag (F.pllStatusFmaxErr 1) && t.get (F.pllOutCfgDiv 1 4) == 96) = true ∧
    does (.pllDividerWrite .boot 1 4 (BitVec.ofNat 32 (s.get (F.pllOutCfgFmax 1 4) * 65536 + 65535))) c
      (fun t => t.flag (F.pllOutCfgDivPend 1 4) && ng t.clk.sh 3 none == some 65535) = true ∧
    does (.outputDelayWrite .boot 1 13 5#32) s (fun t => t.flag (F.pllOutDlyMoving 1 13)) = true ∧
    does (.outputDelayArrival 1 13) (up [(F.pllOutDlyDly 1 13, 5), (F.pllOutDlyMoving 1 13, 1)] s) (fun t => ng t.clk.dly 17 0 == 5) = true := by
  decide +kernel
theorem witness_mclk :
    let s := live
    let e := s.put (F.pllOutCfgEn 1 4) 1
    let low := s.put (F.pllOutCfgFmax 1 4) 1
    let c := s.put (F.pllCtrlCompat 1) 1
    let p := { e with clk := { e.clk with apply := 1, sh := e.clk.sh.set 3 (some 96) } }
    let h := { e with clk := { e.clk with apply := 2 } }
    let z := { c with clk := { c.clk with sh := c.clk.sh.set 3 (some 0) } }
    let w := { c with clk := { c.clk with apply := 2 } }
    s.flag (F.pllOutCfgEn 1 4) = false ∧ s.ok.putsAbove (s.ok.put (F.pllOutCfgEn 1 4) 1) 1 s.pllGoal s.pllGoal = false ∧
    (let l := low.put (F.pllOutCfgDiv 1 4) 1
     l.ok.putsAbove (l.ok.put (F.pllOutCfgEn 1 4) 1) 1 l.pllGoal l.pllGoal = true) ∧
    e.pllLocked 1 = true ∧ e.atEdge = true ∧ e.mclkGated = false ∧ p.mclkJoins = true ∧ h.clk.apply = 2 ∧ w.mclkGated = true ∧ c.flag (F.pllCtrlCompat 1) = true ∧ c.shadowsOk = true ∧ w.shadowsOk = true ∧
    z.shadowsOk = false ∧ z.clk.apply = 0 ∧ ({ s with sys := { s.sys with qt := 1 } } : State).atEdge = false ∧
    does (.mclkEnable .boot 3 true) s (fun t => t.flag (F.pllOutCfgEn 1 4)) = true ∧
    does (.mclkEnable .boot 3 false) e (fun t => !t.flag (F.pllOutCfgEn 1 4)) = true ∧
    does (.mclkOutputStart 3) e (fun t => t.flag (F.pllOutCfgAct 1 4)) = true ∧
    does .mclkDividerBoundary p (fun t => t.get (F.pllOutCfgDiv 1 4) == 96 && t.clk.apply == 2) = true ∧
    does .mclkRestart h (fun t => t.flag (F.pllOutCfgAct 1 4) && t.clk.apply == 0) = true ∧
    does (.pllApply .boot) c (fun t => t.flag (F.pllStatusApplyPend 1)) = true ∧
    does (.pllApply .boot) w (fun t => t.flag (F.pllStatusApplyPend 1) && t.clk.apply == 3) = true ∧
    does (.pllApply .boot) z (fun t => t.flag (F.pllStatusFmaxErr 1)) = true := by decide +kernel

/-- Reference 7 enabled, from port 5 as a slave in RUN. -/
def ref7 (st : Nat) : State := up [(F.ocRefCfgEn 7, 1), (F.ocRefStatState 7, st), (F.ocStateState, ocFreerun)] (tport tpRun)
theorem witness_ochreReferences :
    let s := ref7 rfQual
    let q := s.setRef 7 (fun r => { r with cnt := max 1 (s.get (F.ocRefCfgQualTime 7)) - 1 })
    let l := up [(F.ocStateState, ocLocked), (F.ocStateSel, 7)] ((ref7 rfAvail).setOc (fun o => { o with means := List.replicate 20 (3, 9) }))
    let offs := List.replicate 8 0
    s.ocSt ≠ ocHalt ∧ s.flag (F.ocRefCfgEn 7) = true ∧ s.flag (F.ocRefStatLos 7) = false ∧ (s.ref 7).losWin = false ∧
    offs[7]? = some 0 ∧ 0 ≤ s.refTol 7 ∧ s.refTol 7 < (32767 : Int).natAbs ∧ max 1 (s.get (F.ocRefCfgQualTime 7)) ≤ (q.ref 7).cnt + 1 ∧
    (s.ref 7).cnt + 1 < max 1 (s.get (F.ocRefCfgQualTime 7)) ∧ l.ocSt = ocLocked ∧ l.ocSel = 7 ∧ l.flag F.ocSelForce = false ∧
    l.flag F.ocSelDisAct = false ∧ (List.range 7).all (fun x => l.get (F.ocRefStatState x) != rfAvail) = true ∧ l.hoSecs ≠ [] ∧
    (s.put F.ocStateState ocHalt).ocSt = ocHalt ∧ s.refOk 7 = true ∧ live.refOk 7 = false ∧
    does (.ochreWindowEnd offs) s (fun t => (t.ref 7).cnt == 1 && t.get (F.ocRefStatState 7) == rfQual) = true ∧
    does (.ochreWindowEnd offs) (ref7 rfFailed) (fun t => t.get (F.ocRefStatState 7) == rfQual) = true ∧
    does (.referenceLos 7) s (fun t => t.get (F.ocRefStatState 7) == rfFailed && t.flag (F.ocRefStatLos 7)) = true ∧
    does (.referenceLos 7) l (fun t => t.ocSt == ocHoldover && t.oc.hold == 3 && t.flag F.ocStateHoEntry) = true ∧
    does (.referenceEdgeReturn 7) (s.put (F.ocRefStatLos 7) 1) (fun t => !t.flag (F.ocRefStatLos 7)) = true := by decide +kernel
theorem witness_ochrePhase :
    let l := (live.put F.ocStateState ocLocked).setOc (fun o => { o with sum := 41, n := 10, whole := true })
    let h := live.put F.ocStateState ocHalt
    l.oc.held = false ∧ (l.setOc (fun o => { o with held := true })).oc.held = true ∧ l.ocSt ≠ ocHalt ∧ h.ocSt = ocHalt ∧ l.ocRem = 0 ∧ (0x200000#32 : Word).extractLsb' 0 22 ≠ 0#22 ∧
    does .ochreSecond l (fun t => t.oc.means == [(4, 0)]) = true ∧
    does .ochreSecond (l.setOc (fun o => { o with whole := false })) (fun t => t.oc.means == [] && t.oc.whole) = true ∧
    does .slewEnd (l.setOc (fun o => { o with remS := 9, held := true })) (fun t => t.ocRem == 9) = true ∧
    does .slewEnd (l.setOc (fun o => { o with remS := 9 })) (fun t => t.ocRem == 0) = true ∧
    does (.phaseStep .boot 0x200000#32) l (fun t => t.ocRem == -0x200000 && t.oc.ofs == -0x200000 && t.flag F.ocStateSlewing) = true := by
  decide +kernel

/-! ## Memory, Vermilion, the MRAM store and DMA -/

/-- Host 0. -/
def h0 : Master := .host 0
def sm0 (f : Stores → Stores) : State := { live with sm := f live.sm }
theorem witness_sharedMemory :
    let s := live.ww 0x100 0x11223344#32
    let g := fun (c : Nat) => live.put (F.smemRetStatState 0) c
    s.grpState 0x100 = 0 ∧ (0x100 + 4 ≤ 0xC00000) ∧ (0x100 % 4 = 0) ∧ s.sm.ue = [] ∧ (g 2).grpState 0x100 = 2 ∧ (g 3).grpState 0x100 = 3 ∧
    does (.sharedMemoryAccess h0 0x100#32 true (wordBytes 0xAABBCCDD#32) 0 0) s (fun t => t.rw 0x100 == 0xAABBCCDD#32 && t.rb 0x100 == 0xDD#8) = true ∧
    does (.sharedMemoryAccess h0 0x102#32 false [0#8] 0 5) s (fun t => t.rbytes == [0x22#8] && t.get (F.smemConfCount 0) == 5) = true ∧
    does (.sharedMemoryAccess h0 0x100#32 false (wordBytes 0#32) 2 0) s (fun t => t.resp == .error errEcc && t.rd R.smemUeAddr == 0x100#32) = true ∧
    does (.bitSetWrite h0 0x01000100#32 (wordBytes 0xF0#32) 0) s (fun t => t.rw 0x100 == 0x112233F4#32) = true ∧
    does (.bitClearWrite h0 0x02000100#32 (wordBytes 0x44#32) 0) s (fun t => t.rw 0x100 == 0x11223300#32) = true ∧
    does (.sharedMemoryAccess h0 0x100#32 true (wordBytes 1#32) 0 0) (g 2) (fun t => t.resp == .error errRet && t.rw 0x100 == 0#32) = true ∧
    does (.sharedMemoryAccess h0 0x100#32 true (wordBytes 1#32) 0 0) (g 3) (fun t => t.resp == .held && t.sm.waits.length == 1) = true ∧
    does (.sharedMemoryAccess h0 0x101#32 true (wordBytes 1#32) 0 0) s (fun t => t.resp == .error errAlign) = true ∧
    does (.sharedMemoryAccess h0 0xC00000#32 true (wordBytes 1#32) 0 0) s (fun t => t.resp == .error errDecode) = true := by decide +kernel
theorem witness_retention :
    let g := fun (c r : Nat) => (live.put (F.smemRetStatState 5) c).put F.smemRetRet r
    let w := { g 3 0 with sm := { live.sm with waits := [⟨some h0, 0x500010, 1, 4, wordBytes 7#32⟩] } }
    let gb := (g 1 0x20).setDch 0 (fun k => { k with out := [⟨false, 0x500000, 4, [], 0, true, false⟩] })
    ((g 0 0).get F.smemRetRet).testBit 5 = false ∧ ((g 2 0x20).get F.smemRetRet).testBit 5 = true ∧ 0x500010 / 2 ^ 20 = 5 ∧ (g 3 0).sm.waits = [] ∧ (g 1 0x20).grpBusy 5 = false ∧ gb.grpBusy 5 = true ∧
    does (.retentionRequest h0 5) (g 0 0) (fun t => t.get (F.smemRetStatState 5) == 1) = true ∧
    does (.retentionEntered 5) (g 1 0x20) (fun t => t.get (F.smemRetStatState 5) == 2) = true ∧
    does (.retentionEntered 5) gb (fun t => t.get (F.smemRetStatState 5) == 1) = true ∧
    does (.retentionEntered 5) (g 1 0) (fun t => t.get (F.smemRetStatState 5) == 3) = true ∧
    does (.wakeRequest h0 5) (g 2 0x20) (fun t => t.get (F.smemRetStatState 5) == 3) = true ∧
    does (.groupWakeDone 5) (g 3 0) (fun t => t.get (F.smemRetStatState 5) == 0) = true ∧
    (g 3 0x20).sm.waits = [] ∧ does (.groupWakeDone 5) (g 3 0x20) (fun t => t.get (F.smemRetStatState 5) == 1) = true ∧
    does (.groupWakeDone 5) w (fun t => t.rw 0x500010 == 7#32 && t.sm.waits.isEmpty) = true := by decide +kernel

/-- A device in PRODUCTION with Vermilion locked, whose token slot 0 holds zeros. -/
def lock0 : State := (up [(F.sysStateLc, 2), (F.vermStatusAccess, accLocked)] live).ww 0x03000060 1#32
theorem witness_vermilionAccess :
    let bad := lock0.wr (R.vermToken 3) 9#32
    let o := lock0.put F.vermStatusAccess accUnlocked
    let e := o.put F.vermStatusSealing 1
    let e2 := { e with sm := { e.sm with heldSeal := [(0x03000010, [5#8])] } }
    lock0.cntUe 6 = false ∧ lock0.flag F.vermStatusLockout = false ∧ lock0.verm = accLocked ∧ lock0.tokenOk = true ∧ bad.tokenOk = false ∧
    (bad.put F.vermStatusFail 7).tokenOk = false ∧ o.vermMay h0 = true ∧ lock0.vermMay h0 = false ∧ o.lc ≠ 3 ∧ e.sm.heldSeal = [] ∧
    does (.unlock h0) lock0 (fun t => t.verm == accUnlocked) = true ∧
    does (.unlock h0) bad (fun t => t.verm == accLocked && t.get F.vermStatusFail == 1 && t.rd (R.vermToken 3) == 0#32) = true ∧
    does (.unlock h0) (bad.put F.vermStatusFail 7) (fun t => t.flag F.vermStatusLockout) = true ∧
    does (.lock h0) o (fun t => t.verm == accLocked) = true ∧
    does (.vermSeal h0) o (fun t => t.flag F.vermStatusSealing) = true ∧
    does (.vermSeal h0) lock0 (fun t => t.flag F.vermStatusSealErr) = true ∧
    does .sealDone e (fun t => !t.flag F.vermStatusSealing && t.sm.pageSt == 1#32) = true ∧
    does .sealDone e2 (fun t => t.rb 0x03000010 == 5#8 && t.sm.heldSeal.isEmpty) = true := by decide +kernel
theorem witness_vermilionWipe :
    let w := (lock0.put F.vermStatusWiping 1).put F.vermStatusAccess accBlocked
    let b := { lock0 with sm := { lock0.sm with brown := true } }
    w.cntUe 5 = false ∧ lock0.flag F.vermStatusWiping = false ∧ lock0.sm.brown = false ∧ b.sm.brown = true ∧ w.sm.lcPhase = 0 ∧ w.flag F.vermStatusWipeFail = false ∧ w.lc = 2 ∧
    does .tamper lock0 (fun t => t.verm == accBlocked && t.sm.wcause == 1) = true ∧
    does .voltageGlitch lock0 (fun t => t.sm.wcause == 2) = true ∧ does .clockGlitch lock0 (fun t => t.sm.wcause == 3) = true ∧
    does (.wipe h0) lock0 (fun t => t.flag F.vermStatusWiping && t.sm.wcause == 5) = true ∧ does .tamper b (fun t => t.verm == accLocked) = true ∧
    does (.wipeDone true) w (fun t => t.rw 0x03000060 == 0#32 && t.verm == accLocked && t.flag F.vermStatusWiped) = true ∧
    does (.wipeDone false) w (fun t => t.rw 0x03000060 == 1#32 && t.flag F.vermStatusWipeFail) = true := by decide +kernel
theorem witness_mramStore :
    let w := live.put F.mramcCtrlWsWen 1
    let q := sm0 (fun x => { x with wq := [⟨0x07000004, wordBytes 0xAABBCCDD#32, some h0⟩] })
    let u := { w with sm := { w.sm with ue := [0x07000000] } }
    let cu := sm0 (fun x => { x with ue := [cntAddr 16] })
    u.mramMay h0 0x07000004 = true ∧ u.ueIn 0x07000004 4 8 = some 0x07000000 ∧ isShared 0x07000000 = false ∧ w.ueIn 0x07000004 4 8 = none ∧
    live.boot.wsGo = 0 ∧ cu.cntUe 16 = true ∧ live.cntUe 16 = false ∧
    does (.mramWrite h0 0x07000004#32 4 (wordBytes 7#32)) u (fun t => t.resp == .error errEcc && t.flag F.mramcStatusUe && t.mem == u.mem) = true ∧
    does (.counterIncrement h0 16#32) cu (fun t => t.flag F.mramcStatusUe && t.cntVal 16 == 0) = true ∧
    w.mramMay h0 0x07000004 = true ∧ live.mramMay h0 0x07000004 = false ∧ w.mramMay .boot 0x07077000 = false ∧ q.sm.wq ≠ [] ∧ live.sm.wq = [] ∧
    does (.mramWrite h0 0x07000004#32 4 (wordBytes 7#32)) w (fun t => t.resp == .held && t.sm.wq.length == 1 && t.flag F.mramcStatusBusy) = true ∧
    does (.mramWrite h0 0x07000010#32 16 (List.replicate 16 3#8)) w (fun t => t.sm.wq.map (·.addr) == [0x07000010, 0x07000018]) = true ∧
    does (.mramWrite h0 0x07000004#32 4 (wordBytes 7#32)) live (fun t => t.flag F.mramcStatusProt && t.rd R.mramcErraddr == 0x07000000#32) = true ∧
    does .mramWordWriteDone q (fun t => t.rw 0x07000004 == 0xAABBCCDD#32 && t.sm.wq.isEmpty) = true ∧
    does (.counterIncrement h0 16#32) live (fun t => t.cntVal 16 == 1) = true ∧
    does (.counterIncrement h0 15#32) live (fun t => t.flag F.mramcStatusProt) = true := by decide +kernel

/-- Channel 3 in STATE `st` with run-time state `c`. -/
def dmaIn (st : Nat) (c : DmaCh) : State := (live.put (F.dmaStatusState 3) st).setDch 3 (fun _ => c)
theorem witness_dmaCommands :
    let i := live.put (F.dmaCountCount 3) 64
    let fx := up [(F.dmaSrcAddr 3, 2)] i
    let r := dmaIn dmActive ⟨1, 0, [], [], false, false⟩
    let o := dmaIn dmActive ⟨1, 0, [], [⟨true, 0x100, 4, wordBytes 1#32, 0, true, false⟩], false, false⟩
    let e := dmaIn dmChainEnd ⟨0, 0, [], [], false, false⟩
    let f := dmaIn dmActive ⟨3, 0, [], [⟨true, 0x100, 4, wordBytes 1#32, 0, true, false⟩], false, false⟩
    let g := dmaIn dmChainEnd ⟨6, 0, [], [⟨false, 0x210, 8, [], 0, true, false⟩], false, false⟩
    i.dmaSt 3 = dmIdle ∧ live.get (F.dmaCountCount 3) = 0 ∧ live.get (F.dmaLinkAddr 3) % 32 = 0 ∧ i.dmaOwner 3 ≠ 2 ∧
    (r.dch 3).ph = 1 ∧ (o.dch 3).out ≠ [] ∧
    does (.dmaStart h0 3 0x80000000#32) i (fun t => t.dmaSt 3 == dmActive && (t.dch 3).out.length != 0) = true ∧
    does (.dmaStart h0 3 0x80000000#32) live (fun t => t.dmaSt 3 == dmDone && t.rd R.dmaEvt == 8#32) = true ∧
    does (.dmaStart h0 3 0x80080000#32) live (fun t => (t.dch 3).ph == 5) = true ∧
    does (.dmaStart h0 3 0x80001200#32) fx (fun t => t.flag (F.dmaStatusCfgErr 3)) = true ∧
    does (.dmaStart h0 3 0x80000000#32) r (fun t => t.flag (F.dmaStatusCfgIgn 3)) = true ∧
    does (.dmaAbort h0 3 0x40000000#32) r (fun t => t.dmaSt 3 == dmAborted) = true ∧
    does (.dmaAbort h0 3 0x40000000#32) o (fun t => (t.dch 3).ph == 2) = true ∧
    does (.dmaAbort h0 3 0x40000000#32) e (fun t => t.dmaSt 3 == dmAborted) = true ∧
    does (.dmaAbort h0 3 0x40000000#32) i (fun t => t.dmaSt 3 == dmIdle) = true ∧
    does (.dmaResume h0 3 0x20000000#32) e (fun t => (t.dch 3).ph == 6) = true ∧
    does (.dmaAbort h0 3 0x40000000#32) f (fun t => (t.dch 3).ph == 3) = true ∧
    does (.dmaResume h0 3 0x20000000#32) g (fun t => (t.dch 3).again) = true ∧
    does (.dmaResume h0 3 0x20000000#32) r (fun t => t.flag (F.dmaStatusResumePend 3)) = true ∧
    does (.dmaResume h0 3 0x20000000#32) i (fun t => t.dmaSt 3 == dmIdle) = true ∧
    does (.dmaStart (.host 2) 3 0x80000000#32) i (fun t => t.dmaSt 3 == dmIdle) = true := by decide +kernel
theorem witness_dmaCompletes :
    let w : DmaAcc := ⟨true, 0x100, 4, wordBytes 9#32, 1, true, false⟩
    let r : DmaAcc := ⟨false, 0x200, 4, [], 0, true, false⟩
    let s := (dmaIn dmActive ⟨1, 0, [], [w], false, false⟩).put (F.dmaOwnOwner 3) 0
    let s2 := (dmaIn dmActive ⟨1, 0, [], [r, w], false, false⟩).put (F.dmaOwnOwner 3) 0
    let p := (s.put (F.dmaOwnOwner 3) 1)
    let k := fun (ph : Nat) => (dmaIn dmActive ⟨ph, 0, [],
      [⟨false, if ph == 5 then 0x200 else 0x210, if ph == 5 then 32 else 8, [], 0, true, false⟩], false, false⟩).put (F.dmaLinkAddr 3) 0x200
    let b := s.setDch 4 (fun c => { c with out := [⟨true, 0x104, 4, wordBytes 8#32, 0, true, false⟩] })
    let rp := (k 4).put (F.dmaStatusResumePend 3) 1
    let e := (k 4).ww 0x214 1#32
    let d := (((k 5).ww 0x208 16#32).ww 0x204 0x400#32)
    s.sm.ue = [] ∧ (s.dch 3).out = [w] ∧ (s.dch 3).ph = 1 ∧ s.grpState 0x100 = 0 ∧ s.permits (s.dmaHost 3) 1 0x100 = true ∧
    s2.dmaBehind r = false ∧ s2.permits (s2.dmaHost 3) 0 0x200 = true ∧ (p.setDch 3 (fun c => { c with out := [w, r] })).permits (p.dmaHost 3) 1 0x100 = false ∧
    s.get (F.dmaCountCount 3) = 0 ∧ s.flag (F.dmaCtrlChain 3) = false ∧ s.flag (F.dmaCtrlVatEn 3) = false ∧
    p.permits (p.dmaHost 3) 1 0x100 = false ∧ (k 4).dch 3 = ⟨4, 0, [], [⟨false, 0x210, 8, [], 0, true, false⟩], false, false⟩ ∧ w.queued = false ∧ s.dmaBehind w = false ∧ b.dmaBehind w = true ∧ (k 4).get (F.dmaLinkAddr 3) = 0x200 ∧
    (k 4).rw 0x210 = 0#32 ∧ (k 4).rw 0x214 = 0#32 ∧ e.rw 0x214 = 1#32 ∧ e.flag (F.dmaStatusResumePend 3) = false ∧ rp.flag (F.dmaStatusResumePend 3) = true ∧
    descBad ((List.range 8).map (descWord d 0x200)) = false ∧ descWord d 0x200 2 = 16#32 ∧
    descBad ((List.range 8).map (descWord (d.ww 0x21C 1#32) 0x200)) = true ∧
    does (.dmaAccessComplete ⟨3, 9⟩) b (fun t => t.rw 0x100 == 0#32 && t.sys.cyc == 9) = true ∧
    does (.dmaAccessComplete ⟨3, 0⟩) (p.setDch 3 (fun c => { c with out := [w, r] })) (fun t => t.dmaSt 3 == dmActive && (t.dch 3).ph == 3) = true ∧
    does (.dmaAccessComplete ⟨3, 0⟩) p (fun t => t.dmaSt 3 == dmError && t.rw 0x100 == 0#32) = true := by decide +kernel

/-! ## Host ports -/

/-- The check value that R391 gives for the ASCII string 123456789. -/
theorem test_crc16_check_value : crc16 [0x31#8, 0x32#8, 0x33#8, 0x34#8, 0x35#8, 0x36#8, 0x37#8, 0x38#8, 0x39#8] = 0x29B1#16 := by decide +kernel

/-- A frame with these fields waits on port 0 of `s`. -/
def waits (op words addr : Nat) (pay : List Word) (s : State) : State :=
  s.setHp 0 (fun p => { p with req := some (op, 9, words, addr, pay) })
/-- Port 0 has built this reply. -/
def replied (t : State) (status : Nat) (data : List Word) : Bool :=
  match (t.hport 0).built with
  | some r => r.status == status && r.tag == 9 && r.data == data && (t.hport 0).req == none
  | none => false
theorem witness_linkMemory :
    let s := (live.ww 0x100 5#32).ww 0x104 6#32
    s.powered 1 = true ∧ (s.hport 0).served = 0 ∧ (s.hport 0).data = [] ∧ (s.hport 0).held = false ∧ s.grpState 0x104 = 0 ∧ s.sm.ue = [] ∧
    (0x41 : Nat) % 64 = 1 ∧ (0x41 : Nat).testBit 6 = true := by decide +kernel
theorem witness_linkCommands :
    let off := (live.put (F.pwrStatState 2) 0).wr R.pwrReq 0#32
    let dn := (waits 7 0 0 [] live).setHp 0 (fun p => { p with prior := some ⟨stDenied, 3, 0, []⟩ })
    (((dn.hport 0).prior).getD (dn.resetNow 0)).status = stDenied ∧ ((((waits 7 0 0 [] live).hport 0).prior).getD (live.resetNow 0)).status ≠ stDenied ∧
    live.unpoweredIn 1 = false ∧ live.permCommit 0 1 = true ∧ off.unpoweredIn 1 = true ∧ (live.hport 0).req = none ∧
    vatUp.dscCheck (dscr 2 0) (some 0) = 0 ∧ vatUp.dscCheck (dscr 5 0) (some 0) = 1 ∧
    does (.linkNop 0) (waits 0 0 0 [] live) (fun t => replied t stOk []) = true ∧
    does (.linkCommit ⟨0, 0⟩) (waits 4 0 0x00050001 [] live) (fun t => replied t stOk [] && (t.md.acc.map (·.seq)) == some 5) = true ∧
    does (.linkCommit ⟨0, 0⟩) (waits 4 0 0x00050001 [] off) (fun t => replied t stRefused []) = true ∧
    does (.linkSubmit 0) (waits 5 0 0 (dscr 2 0) vatUp) (fun t => replied t stOk [] && t.vat.pend == [item0]) = true ∧
    does (.linkSubmit 0) (waits 5 0 0 (dscr 5 0) vatUp) (fun t => replied t stRefused [] && t.get F.vatRefuseCntHost == 1) = true ∧
    does (.linkSnapArm 0) (waits 6 0 0 [] live) (fun t => replied t stOk [] && t.flag F.snapSeqArmed) = true ∧
    does (.linkSnapTrigger 0) (waits 6 0 1 [] live) (fun t => replied t stOk []) = true ∧
    does (.linkResend 0) (waits 7 0 0 [] live) (fun t => ((t.hport 0).built.map (·.status)) == some ((resetReply 0 0).status)) = true ∧
    does (.linkResend 0) dn (fun t => t.get (F.hpErrCntDenied 0) == 1 && t.flag (F.hpStatusDenyEvt 0)) = true := by decide +kernel

/-- Port 1 a slave that takes requests. -/
def slv : State := (live.put (F.hpCfgMaster 1) 0).put (F.hpCfgEn 1) 1
/-- A READ of one word at 0x08000000, TAG 9. -/
def rd1 : List Byte := [1#8, 9#8, 0#8, 1#8, 8#8, 0#8, 0#8, 0#8]
theorem witness_linkFrames :
    let s := slv.setHp 1 (fun p => { p with low := true, sel := true, mode := 0 })
    let u := (s.put (F.hpCfgCrcReq 1) 0).put (F.smemRetStatState 0) 0
    let busy := slv.setHp 1 (fun p => { p with
      low := true
      sel := true
      mode := 2
      req := some (1, 9, 1, 0x08000000, []) })
    let off := s.put (F.hpCfgEn 1) 0
    let r := slv.setHp 1 (fun p => { p with built := some ⟨0, 9, 0, []⟩ })
    slv.slave 1 = true ∧ (slv.hport 1).sel = false ∧ u.frameCheck 1 rd1 64 = none ∧ (s.hport 1).mchg = none ∧
    (headOf rd1).op = 1 ∧ (slv.hport 1).low = false ∧ off.slave 1 = false ∧ (off.hport 1).sel = true ∧
    s.frameCheck 1 [0x08#8, 9#8, 0#8, 0#8, 0#8, 0#8, 0#8, 0#8] 64 = some (stBadOp, 0) ∧
    s.frameCheck 1 [0#8, 9#8, 0#8, 2#8, 0#8, 0#8, 0#8, 0#8] 64 = some (stAborted, 64) ∧ s.frameCheck 1 [1#8] 8 = some (stAborted, 8) ∧
    does (.frameStart 1) slv (fun t => (t.hport 1).sel && (t.hport 1).low) = true ∧
    does (.frameStart 1) (slv.put (F.hpCfgEn 1) 0) (fun t => !(t.hport 1).sel && (t.hport 1).low) = true ∧
    does (.frameEnd 1 rd1 0 0) off (fun t => (t.hport 1).req.isNone && !(t.hport 1).low) = true ∧ does (.frameEnd 1 rd1 0 7) slv (fun t => t.sys.cyc == 7) = true ∧
    does (.frameEnd 1 rd1 0 0) u (fun t => (t.hport 1).req == some (1, 9, 1, 0x08000000, [])) = true ∧
    does (.frameEnd 1 [1#8] 0 0) s (fun t => ((t.hport 1).built.map (·.status)) == some stAborted && t.get (F.hpErrCntAborted 1) == 1) = true ∧
    does (.frameEnd 1 rd1 0 0) busy (fun t => t.get (F.hpErrCntBusy 1) == 1 && (t.hport 1).req.isSome) = true ∧
    does (.frameEnd 1 [] 0 0) s (fun t => (t.hport 1).req == none && !(t.hport 1).sel) = true ∧
    does (.replyReady 1) r (fun t => (t.hport 1).ready == some ⟨0, 9, 0, []⟩ && (t.hport 1).built == none) = true := by decide +kernel
theorem witness_masterMode :
    let d := live.put (F.hpHdbellPend 2) 0xFF
    let x := up [(F.hpCfgMaster 2, 1), (F.hpLenLen 2, 64)] live
    let lo := x.put (F.hpLenLen 2) 7
    let b := x.put (F.hpStatusMbusy 2) 1
    let r := b.setHp 2 (fun p => { p with mrun := true })
    let bm := { live with boot := { live.boot with
      step := 6
      ph := 1 } }
    hostOf (.host 2) = some 2 ∧ hostOf .boot ≠ some 2 ∧ (slv.flag (F.hpCfgMaster 1) = false) ∧ x.flag (F.hpStatusMbusy 2) = false ∧
    (x.hport 2).low = false ∧ (x.hport 2).req = none ∧ (x.hport 2).built = none ∧ x.get (F.hpLenLen 2) = 64 ∧ lo.get (F.hpLenLen 2) < 8 ∧
    b.bootMasters 2 = false ∧ bm.bootMasters 0 = true ∧ (r.hport 2).mrun = true ∧
    does (.hostDoorbellWrite (.host 2) 2 0x0F#32) d (fun t => t.get (F.hpHdbellPend 2) == 0xF0) = true ∧
    does (.hostDoorbellWrite .boot 2 0xF00#32) d (fun t => t.get (F.hpHdbellPend 2) == 0xFFF) = true ∧
    does (.masterModeChange h0 1 true) slv (fun t => t.flag (F.hpCfgMaster 1)) = true ∧
    does (.masterModeChange h0 2 false) b (fun t => t.flag (F.hpStatusCfgIgn 2)) = true ∧
    does (.masterModeChange h0 1 true) (slv.setHp 1 (fun p => { p with low := true })) (fun t => (t.hport 1).mchg == some true) = true ∧
    does (.go h0 2) x (fun t => t.flag (F.hpStatusMbusy 2)) = true ∧ does (.go h0 2) lo (fun t => t.flag (F.hpStatusCfgErr 2)) = true ∧
    does (.go h0 2) b (fun t => t.flag (F.hpStatusCfgIgn 2)) = true ∧
    does (.masterFrameStart 2 false) b (fun t => (t.hport 2).mrun) = true ∧
    does (.masterFrameStart 2 true) b (fun t => t.flag (F.hpStatusMmFault 2) && !t.flag (F.hpStatusMbusy 2)) = true ∧
    does (.masterFrameDone 2 [1#32, 2#32]) r (fun t => t.rd (R.hpMrx 2 1) == 2#32 && t.flag (F.hpStatusMdone 2)) = true ∧
    does (.mmFault ⟨2, 0, []⟩) b (fun t => t.flag (F.hpStatusMmFault 2) && (t.hport 2).off) = true ∧
    does (.mmFault ⟨2, 32, [5#32]⟩) r (fun t => t.rd (R.hpMrx 2 0) == 5#32 && t.rd (R.hpMrx 2 1) == 0#32 && !t.flag (F.hpStatusMbusy 2)) = true ∧
    does (.mmFault ⟨0, 0, []⟩) bm (fun t => t.flag (F.hpStatusMmFault 0)) = true := by decide +kernel

/-! ## Vehicle interface, boot, power and policies -/

/-- CRC-32 of the ASCII string 123456789. -/
theorem test_crc32_check_value : crc32 [0x31#8, 0x32#8, 0x33#8, 0x34#8, 0x35#8, 0x36#8, 0x37#8, 0x38#8, 0x39#8] = 0xCBF43926#32 := by decide +kernel

/-- The listener runs; filter 3 takes identifier 0x123, and signal 5 is its second byte, with a time-out and a fallback of 0x55. -/
def lsn : State :=
  (((((up [(F.canStatusState, 2), (F.canCtrlEn, 1)] live).wr 0x080D0418 0x80000123#32).wr 0x080D041C 0x7FF#32).wr 0x080D08A0 0x80070C08#32).wr
    0x080D08AC 100#32).wr 0x080D08B0 0x55#32
/-- A good frame with this identifier and data. -/
def frm (id : Nat) (d : List Byte) : CanFrame := ⟨id, false, false, false, false, d, false, false, false, false⟩
theorem witness_canListener :
    let off := lsn.put F.canCtrlEn 0
    let x := frm 0x123 [1#8, 0xA7#8]
    off.flag F.canCtrlEn = false ∧ (0x80005050#32 : Word).getLsbD 31 = true ∧ canCodesOk 0x80005050#32 = true ∧ canCodesOk 0x80000000#32 = false ∧
    lsn.canMatch 3 x = true ∧ (List.range 64).all (fun f => !lsn.canMatch f (frm 0x124 [])) = true ∧ (List.range 3).all (fun f => !lsn.canMatch f x) = true ∧
    lsn.sigEn 5 = true ∧ lsn.sigF 5 0 10 6 = 3 ∧ lsn.sigRaw 5 x.data = some 0xA7#32 ∧ lsn.sigRaw 5 [1#8] = none ∧ lsn.sigEn 6 = false ∧
    lsn.sigF 5 3 0 16 = 100 ∧ lsn.flag (F.canSigstStale 5) = false ∧ (lsn.put (F.canSigstStale 5) 1).flag (F.canSigstStale 5) = true ∧
    (lsn.atCyc 0).lastWriter (sigRxKey 5) 0 = true ∧
    does (.canFrameReceived x 0) lsn (fun t => !(t.atCyc 0).lastWriter (sigRxKey 5) 0 &&
      does (.signalTimeout 5 0) t (fun u => u.rd (R.canSigval 5) == 0xA7#32)) = true ∧
    does (.canEnable h0 0x80005050#32) off (fun t => t.get F.canStatusState == 1 && t.rd (R.canSigval 5) == 0x55#32 && t.flag (F.canSigstStale 5)) = true ∧
    does (.canEnable h0 0x80000000#32) off (fun t => t.flag F.canStatusCfgErr && !t.flag F.canCtrlEn) = true ∧
    does .canIntegrationDone (lsn.put F.canStatusState 1) (fun t => t.get F.canStatusState == 2) = true ∧
    does (.canFrameReceived x 0) lsn (fun t => t.rd (R.canSigval 5) == 0xA7#32 && t.get F.canRxCntAccepted == 1) = true ∧
    does (.canFrameReceived (frm 0x123 [1#8]) 0) lsn (fun t => t.flag F.canStatusShort) = true ∧
    does (.canFrameReceived (frm 0x124 []) 0) lsn (fun t => t.get F.canRxCntRejected == 1) = true ∧
    does (.canFrameReceived { x with crcErr := true } 0) lsn (fun t => t.get F.canErrCntCrc == 1 && t.rd (R.canSigval 5) == 0#32) = true ∧
    does (.canFrameReceived { x with rtr := true } 0) lsn (fun t => t.get F.canRxCntRejected == 0) = true ∧
    does (.signalTimeout 5 0) lsn (fun t => t.rd (R.canSigval 5) == 0x55#32 && t.rd R.canToEvtLo == 0x20#32) = true := by decide +kernel

/-- Event input 4 enabled, writing override 2 in mode 1 and counting in counter 3. -/
def evt4 : State := up [(F.evtCfgEn 4, 1), (F.evtDestOvEn 4, 1), (F.evtDestOvr 4, 2), (F.evtDestOnMode 4, 1), (F.evtDestOnGain 4, 77),
  (F.evtActCntEn 4, 1), (F.evtActCnt 4, 3), (F.evtCfgInv 4, 0), (F.evtCfgDeb 4, 0)] live
theorem witness_eventInputs :
    let s := evt4.setEvt 4 (fun _ => ⟨false, false, false, false, []⟩)
    let d := s.put (F.evtCfgDeb 4) 5
    let p := d.setEvt 4 (fun e => { e with pin := true })
    let on := s.setEvt 4 (fun _ => ⟨true, true, false, false, [0]⟩)
    let fz := (s.put (F.evtCfgChatK 4) 2).setEvt 4 (fun e => { e with chg := [0, 0] })
    let old := { fz with sys := { fz.sys with ms := 200 } }
    let ch := (up [(F.evtCfgChatK 4, 2), (F.evtCfgFrzLvl 4, 0)] on).setEvt 4 (fun e => { e with chg := [0, 0, 0] })
    let st := up [(F.evtCfgMaxact 4, 1), (F.evtCfgRel 4, 1)] on
    (s.evt 4).pin ≠ true ∧ s.get (F.evtCfgDeb 4) = 0 ∧ s.flag (F.evtCfgEn 4) = true ∧ (s.get F.evtLevelLogical).testBit 4 = false ∧
    s.powered 1 = true ∧ s.flag (F.evtActLwEn 4) = false ∧ s.flag (F.evtActSnap 4) = false ∧ s.flag (F.evtActWake 4) = false ∧
    d.get (F.evtCfgDeb 4) ≠ 0 ∧ (p.evt 4).deb ≠ p.evtRaw 4 ∧ (s.evt 4).deb = s.evtRaw 4 ∧ ch.get (F.evtCfgChatK 4) < (ch.evtChats 4).length ∧
    st.evtLogical 4 = true ∧ s.evtLogical 4 = false ∧ s.get (F.evtCfgChatK 4) = 0 ∧ fz.get (F.evtCfgChatK 4) = 2 ∧
    (s.atCyc 0).lastWriter (R.ovrWord 2) (writerPlace .events + 4) = true ∧
    does (.eventPinChange ⟨4, 0⟩ true) fz (fun t => (t.evt 4).frz && (t.get F.evtStatusChatter).testBit 4 && !(t.get F.evtLevelLogical).testBit 4) = true ∧
    does (.eventPinChange ⟨4, 0⟩ true) old (fun t => !(t.evt 4).frz && (t.evt 4).chg == [200, 0, 0]) = true ∧
    does (.eventPinChange ⟨4, 5⟩ false) s (fun t => t.sys.cyc == 5) = true ∧
    does (.eventPinChange ⟨4, 0⟩ true) s (fun t => t.rd (R.ovrWord 2) == 0x4000004D#32 && t.get (F.vehCntCount 3) == 1) = true ∧
    does (.eventPinChange ⟨4, 0⟩ true) d (fun t => !(t.evt 4).deb && (t.get F.evtLevelRaw).testBit 4) = true ∧
    does (.debounceExpiry 4 0) p (fun t => (t.evt 4).deb && (t.get F.evtLevelLogical).testBit 4) = true ∧
    does (.chatterWindow 4 0) ch (fun t => (t.get F.evtStatusChatter).testBit 4 && (t.evt 4).frz) = true ∧
    does (.chatterWindow 4 0) on (fun t => !(t.evt 4).frz && (t.evt 4).chg == [0]) = true ∧
    does (.stuckTimeout 4 0) st (fun t => (t.get F.evtStatusStuck).testBit 4 && (t.evt 4).rel) = true := by decide +kernel
theorem witness_chimeCommands :
    let s := live.put F.chimeCfgEn 1
    let snd := up [(F.chimeStatusSounding, 1), (F.chimeStatusSrc, 5), (F.chimeStatusPat, 2)] s
    let rq := { snd with chime := { snd.chime with
      test := some 2
      step := 1 } }
    s.flag F.chimeStatusSounding = false ∧ s.st ≠ stSafe ∧ s.chime.pd1 = false ∧ s.chime.xtal = false ∧ s.mig.chimeReq = 0 ∧
    (live.put F.chimeCfgEn 0).flag F.chimeCfgEn = false ∧ snd.chime.reload = false ∧ snd.chimeReqs = [] ∧ rq.chimeReqs = [rq.chimeNow] ∧
    rq.chime.step ≤ rq.chimeSteps.length ∧
    does (.test h0 2) s (fun t => t.flag F.chimeStatusSounding && t.get F.chimeStatusPat == 2 && t.chime.step == 1) = true ∧
    does (.test h0 2) (live.put F.chimeCfgEn 0) (fun t => !t.flag F.chimeStatusSounding && t.chime.test == some 2) = true ∧
    does (.testStop h0) rq (fun t => t.chime.test == none) = true ∧ does (.reload h0) snd (fun t => t.chime.reload) = true ∧
    does (.reload h0) s (fun t => !(t.get F.chimeStatusValid).testBit 0 && ng t.chime.pat 0 [] == builtIn) = true ∧
    does .chimeOvercurrent snd (fun t => t.chime.oc) = true ∧ does .chimeTonePeriod snd (fun t => !t.flag F.chimeStatusSounding) = true ∧
    does .chimeStepEnd rq (fun t => t.chime.step == 2 && t.flag F.chimeStatusSounding) = true := by decide +kernel

/-- The header of an unsigned image of no sections, which asks for PD2; the CRC was worked out with another program. -/
def hdr0 : List Byte := [0x53#8, 0x4C#8, 0x44#8, 0x42#8, 1#8, 0#8, 0#8, 0#8] ++ (List.replicate 5 [0x40#8, 0#8, 0#8, 0#8]).flatten ++
  [0#8, 0#8, 4#8, 0#8] ++ List.replicate 28 0#8 ++ [0xA1#8, 0x4A#8, 0xF8#8, 0x52#8]
/-- Boot step 6 reads a header. -/
def boot6 : State := { live with boot := { live.boot with
  step := 6
  ph := 1
  noWarm := true } }
theorem witness_bootReads :
    let p2 := { boot6 with boot := { boot6.boot with ph := 2 } }
    let w := { boot6 with boot := { boot6.boot with noWarm := false } }
    let wn := (w.ww 0x07000000 0x57444C53#32).ww 0x07000004 1#32
    let w := ((((w.ww 0x07000000 0x57444C53#32).ww 0x07000004 1#32).ww 0x07000008 64#32).ww 0x0700000C 0x2144DF1C#32).wbs 0x07001000 hdr0
    let bk := { live with boot := { live.boot with back := 3 } }
    let st := { live with boot := { live.boot with
      hdr := List.replicate 12 0#8 ++ [0x40#8, 0#8, 0#8, 0#8, 0x80#8, 0#8, 0#8, 0#8, 0x80#8, 0#8, 0#8, 0#8, 0x80#8, 0#8, 0#8, 0#8] ++ List.replicate 36 0#8
      done := 1 } }
    boot6.bootReads = true ∧ boot6.boot.verify = false ∧ boot6.boot.tries < 7 ∧ magicOk hdr0 = true ∧ hcrcOk (hdr0.set 60 0#8) = false ∧
    magicOk (hdr0.set 0 0#8) = false ∧ hdrValid hdr0 = true ∧ w.bootReads = true ∧ w.recordFirst = true ∧ w.warmRecord.1.isSome = true ∧ wn.recordFirst = true ∧ wn.warmRecord.1 = none ∧ wn.bootReads = true ∧
    State.reset.bootReads = false ∧ live.boot.back = 0 ∧ bk.boot.back ≠ 0 ∧ st.nextStage = 1 ∧ st.st ≠ stSafe ∧ st.boot.wsTodo = false ∧
    st.hdrW 0x24 + (st.stageEnd 1 - st.stageEnd 0) ≤ 0xC00000 ∧
    does (.headerReadDone (hdr0.set 60 0#8)) boot6 (fun t => t.boot.back == 1 && t.boot.tries == 1) = true ∧
    does (.headerReadDone (hdr0.set 0 0#8)) boot6 (fun t => t.boot.ph == 2) = true ∧
    does (.headerReadDone (hdr0.set 0 0#8)) p2 (fun t => t.flag F.bootStatusNoimg) = true ∧
    does (.headerReadDone hdr0) boot6 (fun t => t.boot.ph == 3 && t.boot.hdr == hdr0) = true ∧
    does (.headerReadDone []) w (fun t => t.boot.warm && t.boot.hdr == hdr0) = true ∧
    does (.headerReadDone []) wn (fun t => t.boot.noWarm && t.boot.ph == 1 && t.boot.step == 6) = true ∧
    does .bootRetryBackoff bk (fun t => t.boot.ph == 3) = true ∧
    does (.stageReadStart 1) st (fun t => t.boot.ph == 3 && t.boot.stage == 1) = true := by decide +kernel
theorem witness_bootStages :
    let s := { boot6 with boot := { boot6.boot with
      ph := 3
      hdr := hdr0 } }
    let s := (List.range 9).foldl (fun (t : State) d => if 2 ≤ d then t.put (F.pwrStatState d) 3 else t) s
    let key := (s.ww 0x03000020 1#32).put F.sysStateLc 2
    let k := { s with boot := { s.boot with
      step := 11
      stage := 1 } }
    let w := { live with boot := { live.boot with
      hdr := hdr0
      wsTodo := true
      wsEn := true } }
    let w := w.wbs 0xBC0000 hdr0
    let v := fun (c : Nat) => { live with boot := { live.boot with
      verify := true
      cmp := c } }
    let u := (s.put (F.pwrStatState 2) 0).wr R.pwrReq 4#32
    let x := { w with
      boot := { w.boot with wsGo := 1 }
      sm := { w.sm with wq := [⟨0x07000004, [1#8, 0#8, 0#8, 0#8], some .boot⟩] } }
    let y := { x with
      boot := { x.boot with wsRest := [(0x07000010, [7#8])] }
      sm := { x.sm with wq := List.replicate 8 ⟨0x07000004, [1#8, 0#8, 0#8, 0#8], some .boot⟩ } }
    let gw := s.put (F.smemRetStatState 11) 3
    let gr := s.put (F.smemRetStatState 11) 2
    s.bootReads = true ∧ s.boot.warm = false ∧ s.boot.verify = false ∧ s.boot.stage = 0 ∧ hdrStart s.boot.hdr = 0x40 ∧
    s.stageEnd 0 - 64 = 0 ∧ s.stagingIn 0 (s.stageEnd 0) [1, 2, 3] = false ∧ k.stagingIn 1 0 [1, 2, 3] = false ∧
    gw.stagingIn 0 (s.staging 0).2 [3] = true ∧ gr.stagingIn 0 (s.staging 0).2 [3] = false ∧ gr.stagingRefused 0 (s.staging 0).2 = true ∧ s.pdWaits = false ∧ u.pdWaits = true ∧ stageSects s.boot.hdr 0 s.boot.sects [] = some [] ∧ s.authOf s.boot.hdr [] 0 [] false = 0 ∧
    (s.boot.hdr ++ []).length ≤ 262144 ∧ s.boot.starts = [] ∧ key.authOf key.boot.hdr [] 0 [] false = 2 ∧
    k.bootReads = true ∧ k.stageEnd 1 - k.stageFrom 1 = 0 ∧ stageSects k.boot.hdr 1 k.boot.sects [] = some [] ∧ k.boot.pol = [] ∧
    k.authOf k.boot.hdr k.boot.tags 1 [] false ≠ 2 ∧ w.stageEnd 0 ≤ 262144 ∧ live.boot.wsTodo = false ∧
    w.sm.wq.isEmpty = true ∧ w.boot.wsGo = 0 ∧ w.boot.step = 11 ∧ w.stagingIn 0 (w.stageEnd 0) [1, 2, 3] = false ∧ w.sm.ue = [] ∧
    does .warmStartWrite w (fun t => t.boot.wsGo == 1 && t.sm.wq.length == 8 && t.boot.wsRest.length == 5) = true ∧
    does .mramWordWriteDone x (fun t => t.flag F.bootStatusWsWritten && !t.boot.wsTodo && t.rw 0x07000004 == 1#32) = true ∧
    does .mramWordWriteDone y (fun t => t.sm.wq.length == 8 && t.boot.wsRest.isEmpty) = true ∧
    does (.bootReadDone ⟨[], 0⟩) gw (fun t => t.boot.memOld == 0x800) = true ∧
    does (.bootReadDone ⟨[], 0⟩) gr (fun t => t.flag F.smemErrRet && t.boot.back == 3 && t.boot.tries == 1) = true ∧
    does (.warmVerifyDone 0) (v 1) (fun t => t.flag F.bootStatusWsVerified) = true ∧
    does (.warmVerifyDone 0) (v 2) (fun t => t.flag F.bootStatusWsMismatch && t.sys.dueReload) = true ∧
    does (.warmVerifyDone 0) (v 3) (fun t => t.flag F.bootStatusFlashErr) = true := by decide +kernel
theorem witness_powerDomains :
    let u := (live.put (F.pwrStatState 2) 2).wr R.pwrReq 4#32
    let u4 := (live.put (F.pwrStatState 4) 2).wr R.pwrReq 0x10#32
    let u8 := { u.put (F.pllStatusLocked 1) 0 with boot := { u.boot with
      step := 8
      hdr := hdr0 } }
    let d := (live.put (F.pwrStatState 2) 4).wr R.pwrReq 0#32
    let ret := (live.put (F.pwrStatState 2) 1).wr R.pwrReq 0#32
    live.pwr 1 = 3 ∧ live.safeHeld = false ∧ u.pwr 2 = 2 ∧ (u.rd R.pwrReq).getLsbD 2 = true ∧ u.parked 2 = false ∧ live.pwr 2 ≠ 2 ∧
    d.pwr 2 = 4 ∧ d.released 2 = true ∧ u.boot.fromRet.testBit 2 = false ∧
    does (.powerRequest h0 4#32) live (fun t => t.pwr 2 == 3 && t.pwr 5 == 4) = true ∧
    does (.powerDomainUp 2) u (fun t => t.pwr 2 == 3 && t.dlyRd 0 9 == 0#32) = true ∧
    u8.pwr 2 = 2 ∧ u8.parked 2 = false ∧ u8.pllLocked 1 = false ∧ (List.range 6).all (fun i => i == 0 || !((u8.boot.hdr[0x1E]?).getD 0#8).getLsbD (i + 2)) = true ∧
    does (.powerDomainUp 2) u8 (fun t => t.pwr 2 == 3 && t.boot.step == 9) = true ∧
    does (.powerDomainUp 4) u4 (fun t => t.igState 0 == 1 && t.pwr 4 == 3) = true ∧
    does (.powerDomainDown 2) (d.ww (pmBase 0) 7#32) (fun t => t.pwr 2 == 0 && t.rw (pmBase 0) == 0#32) = true ∧
    does (.powerDomainDown 2) (d.wr R.pwrReq 0x400#32) (fun t => t.pwr 2 == 1) = true ∧ ret.pwr 2 = 1 ∧ d.parked 2 = false ∧
    does (.powerDomainDown 2) (ret.ww (pmBase 0) 7#32) (fun t => t.pwr 2 == 0 && t.rw (pmBase 0) == 0#32) = true := by decide +kernel
theorem witness_faultsAndSleep :
    let b := { live with sm := { live.sm with brown := true } }
    let f := { live with boot := { live.boot with fault := true } }
    let sl := { live with boot := { live.boot with
      slp := 1
      ended := true } }
    let dn := (List.range 8).foldl (fun (t : State) d => t.put (F.pwrStatState d) (if d = 1 then 4 else if d < 2 then 3 else 0)) sl
    let rt := dn.put (F.pwrStatState 2) 1
    rt.pwr 2 = 1 ∧ rt.boot.slp = 1 ∧ live.pwr 1 = 3 ∧ live.sm.brown = false ∧ 5 ≤ live.boot.step ∧ b.sm.brown = true ∧ f.boot.fault = true ∧ sl.st = stRun ∧ sl.atCommon = true ∧ sl.stagesOver = true ∧
    dn.pwr 1 = 4 ∧ dn.pwr 5 = 0 ∧ live.boot.slp = 0 ∧
    does (.pd1Fault false) live (fun t => t.pwr 1 == 0 && t.pwr 5 == 0 && t.boot.fault && t.st == stBoot) = true ∧
    does .pd1FaultRetry f (fun t => t.pwr 1 == 2) = true ∧ does (.sleepRetain h0) live (fun t => t.boot.slp == 1) = true ∧
    does (.sleepAonOnly h0) live (fun t => t.boot.slp == 2) = true ∧
    does .sleepEntry sl (fun t => t.st == stDrain && t.pwr 1 == 4 && t.pwr 5 == 4) = true ∧
    does (.powerDomainDown 1) rt (fun t => t.pwr 1 == 1 && t.pwr 2 == 1) = true ∧
    does (.powerDomainDown 1) dn (fun t => t.pwr 1 == 1 && t.boot.asleep) = true := by decide +kernel
theorem witness_supplyAndReset :
    let z := { live with boot := { live.boot with step := 0 } }
    let v := { z with boot := { z.boot with vin := true } }
    let m := live.wb 0x07000000 5#8
    let q := { live with sm := { live.sm with wq := [⟨0x07000000, [1#8], none⟩, ⟨0x07000008, [2#8], none⟩] } }
    z.boot.step = 0 ∧ q.sm.wq.length = 2 ∧ v.sm.ue = [] ∧
    does (.resetPin true) q (fun t => t.sm.wq.isEmpty && t.rb 0x07000000 == 1#8 && t.rb 0x07000008 == 0#8) = true ∧ v.boot.vin = true ∧ v.boot.pin = false ∧ live.boot.step ≠ 0 ∧
    does .vinValid z (fun t => t.boot.vin) = true ∧
    does (.resetPin true) m (fun t => t.rb 0x07000000 == 5#8 && t.boot.step == 0 && t.pwr 1 == 0) = true ∧
    does .vinBrownOut m (fun t => t.sm.brown && t.rb 0x07000000 == 5#8) = true ∧
    does (.resetPin false) v (fun t => !t.boot.pin) = true ∧
    does .powerOnReset v (fun t => t.boot.step == State.reset.boot.step && t.rd (R.pllStatus 0) == regReset (R.pllStatus 0)) = true := by decide +kernel
theorem witness_thermalPolicy :
    let hot := { live with boot := { live.boot with hot := true } }
    let c := up [(F.thermStatusCritAct, 1), (F.thermCfgPark 0, 2)] (live.wr R.pwrReq 0xFC#32)
    let p := { live.put F.thermStatusParked 2 with boot := { live.boot with
      parked := [1]
      cool := live.parkTime } }
    let x := { live.put F.sysStateState stSafe with boot := { live.boot with
      cold := 10000
      filled := true } }
    let early := { hot.put (F.pwrStatState 1) 2 with boot := { hot.boot with step := 2 } }
    x.pwr 1 = 3 ∧ early.pwr 1 = 2 ∧
    does (.thermalEvaluation 1080 0 0 0) early (fun t => t.st == stSafe && t.boot.step == 11) = true ∧
    hot.safeHeld = false ∧ hot.pwr 1 = 3 ∧ 2 ≤ hot.boot.step ∧ live.boot.warned = false ∧ c.flag F.thermStatusCritAct = true ∧ c.toPark = some 2 ∧
    c.pwr 6 = 3 ∧ p.flag F.thermStatusCritAct = false ∧ p.parkTime ≤ p.boot.cool ∧ p.boot.parked = [1] ∧ live.boot.cool < live.parkTime ∧
    x.safeHeld = true ∧ x.get F.bootStatusStep ≠ 5 ∧ x.pllLocked 0 = true ∧ live.boot.cold < 10000 ∧
    does (.thermalEvaluation 1080 0 0 (-8)) hot (fun t => t.st == stSafe && t.pwr 5 == 0 && t.getS (F.thermTempTemp 3) == -8) = true ∧
    does (.thermalEvaluation 1079 0 0 0) hot (fun t => t.st == hot.st && !t.boot.hot) = true ∧
    does .parkInterval c (fun t => t.parked 6 && t.boot.parked == [2] && t.pwr 6 == 4) = true ∧
    does .parkInterval p (fun t => !t.parked 5 && t.boot.parked.isEmpty) = true ∧
    does .safeStateExit x (fun t => t.boot.step == 6 && t.boot.ph == 1) = true := by decide +kernel
theorem witness_lifeCycleAndSnapshot :
    let o := live.put F.vermStatusAccess accOpen
    let p := { live with sm := { live.sm with
      lcPhase := 2
      lcTgt := 1 } }
    let a := up [(F.snapCtrlEn, 1), (F.snapSeqArmed, 1), (F.pllStatusState 0, 0), (F.pllStatusState 1, 0)] live
    let n := live.put F.snapCtrlEn 1
    (0x4C430001#32 : Word).extractLsb' 16 16 = 0x4C43#16 ∧ o.lc < 1 ∧ o.verm = accOpen ∧ o.flag F.otpStatusBusy = false ∧ o.sm.brown = false ∧
    a.sys.trig = 0 ∧ (a.get F.snapCtrlEn).testBit 0 = true ∧ a.flag F.snapSeqArmed = true ∧ n.flag F.snapSeqArmed = false ∧
    ((live.put F.snapCtrlEn 0).get F.snapCtrlEn).testBit 0 = false ∧
    does (.lifeCycleRequest h0 0x4C430001#32) o (fun t => t.sm.lcPhase == 1 && t.sm.lcTgt == 1 && t.flag F.otpStatusBusy) = true ∧
    host0Only (.core 3) = none ∧ does (.lifeCycleRequest (.core 3) 0x4C430001#32) o (fun t => t.flag F.otpStatusReqErr && t.resp == .ok) = true ∧
    does (.lifeCycleRequest h0 0x4C430000#32) o (fun t => t.flag F.otpStatusReqErr) = true ∧
    (live.put F.vermStatusAccess 0).verm ≠ accOpen ∧ (live.put F.vermStatusAccess 0).verm ≠ accUnlocked ∧
    does (.lifeCycleRequest h0 0x4C430001#32) (live.put F.vermStatusAccess 0) (fun t => t.flag F.otpStatusReqErr && t.sm.lcPhase == 0) = true ∧
    does (.lifeCycleRequest h0 0x4C430001#32) (o.put F.otpStatusBusy 1) (fun t => t.flag F.otpStatusReqErr && t.sm.lcPhase == 0) = true ∧
    does (.lifeCycleRequest (.host 1) 0x4C430001#32) o (fun t => t.flag F.otpStatusReqErr && t.resp == .denied) = true ∧
    does .otpProgrammingDone p (fun t => t.sm.otp == 1 && t.flag F.otpStatusDone) = true ∧
    does (.arm h0) n (fun t => t.flag F.snapSeqArmed) = true ∧
    does (.trig h0) a (fun t => !t.flag F.snapSeqArmed && t.get F.snapSeqSeq == 1) = true ∧
    does (.trig h0) n (fun t => t.get F.snapSeqMissed == 1) = true := by decide +kernel

end Sys2Proof.Tests
end

section
/-! PROOF. The interpolated read (R75, R94): what ends a format-D slot with no product, and the bounds of the sum. -/

namespace Sys2Proof.Machine

/-! ## Engines and registers after an update -/

theorem State.eng_setEng (s : State) {e : Nat} (he : e < 8) (g : Engine → Engine) : (s.setEng e g).eng e = g (s.eng e) := by
  simp [State.setEng, State.eng, ng, ns, he]

/-- Only what a change makes of the engine as it stands counts. -/
theorem State.setEng_congr (s : State) (e : Nat) {g h : Engine → Engine} (H : g (s.eng e) = h (s.eng e)) :
    s.setEng e g = s.setEng e h := by
  simp only [State.setEng, H]

@[simp] theorem State.setEng_get (s : State) (e : Nat) (g : Engine → Engine) (f : Fld) : (s.setEng e g).get f = s.get f := rfl
@[simp] theorem State.setEng_teS (s : State) (e k : Nat) (g : Engine → Engine) : (s.setEng e g).teS k = s.teS k := rfl
@[simp] theorem State.slotDone_get (s : State) (e : Nat) (f : Fld) : (s.slotDone e).get f = s.get f := rfl
@[simp] theorem State.slotDone_mem (s : State) (e : Nat) : (s.slotDone e).mem = s.mem := rfl

theorem State.eng_slotDone (s : State) {e : Nat} (he : e < 8) :
    (s.slotDone e).eng e = { s.eng e with slot := (s.eng e).slot + 1 } := s.eng_setEng he _

theorem State.get_le (s : State) (f : Fld) : s.get f ≤ 2 ^ f.w - 1 :=
  Nat.le_sub_one_of_lt (fieldOf_lt (s.rd f.addr).toNat f.lo f.w)

/-- A counter that is bumped stops at its field's greatest value. -/
theorem State.get_bump (s : State) (f : Fld) (n : Nat) (h : f.ok) : (s.bump f n).get f = min (s.get f + n) (2 ^ f.w - 1) := by
  have hp := Nat.two_pow_pos f.w
  rw [State.bump, State.get_put s f _ h, Nat.mod_eq_of_lt (by omega)]

/-- R70: a clip counts once, and the counter stops at its greatest value. -/
theorem State.get_satCount (s : State) (e : Nat) (c : Bool) :
    (s.satCount e c).get (F.teSatCntCount e) = min (s.get (F.teSatCntCount e) + b2n c) 0xFFFFFFFF := by
  cases c
  case true => exact s.get_bump _ 1 (by decide : 0 + 32 ≤ 32)
  case false => exact (Nat.min_eq_left (s.get_le (F.teSatCntCount e))).symm

@[simp] theorem State.satCount_mem (s : State) (e : Nat) (c : Bool) : (s.satCount e c).mem = s.mem := by cases c <;> rfl
@[simp] theorem State.satCount_eng (s : State) (e k : Nat) (c : Bool) : (s.satCount e c).eng k = s.eng k := by cases c <;> rfl

@[simp] theorem dstPut_acc (g : Engine) (c : Nat) (v : Word) : (dstPut g c v).acc = g.acc := by
  unfold dstPut; split_ifs <;> rfl

@[simp] theorem dstPut_slot (g : Engine) (c : Nat) (v : Word) : (dstPut g c v).slot = g.slot := by
  unfold dstPut; split_ifs <;> rfl

@[simp] theorem afterClear_slot (x : Xfer) (g : Engine) : (afterClear x g).slot = g.slot := by unfold afterClear; split <;> rfl

@[simp] theorem afterMove_slot (s : State) (e : Nat) (x : Xfer) (g : Engine) : (afterMove s e x g).slot = g.slot := by
  unfold afterMove; split
  · rfl
  · exact dstPut_slot g x.dst _

/-! ## The slot that a command executes -/

theorem State.runSlot_of_slotIs {s : State} {e : Fin 8} {kind : DWord → Bool} (act : State → Nat → DWord → State)
    (h : SlotIs s e kind) : s.runSlot e kind act = (act s e (s.nextSlot e)).slotDone e := by
  obtain ⟨hready, hlegal, hkind, hpred⟩ := h
  simp [State.runSlot, hready, hlegal, hkind, hpred]

/-! ## Values held within bounds -/

theorem satTo_fst (w : Nat) (i : Int) : (satTo w i).1 = max (-2 ^ (w - 1)) (min (2 ^ (w - 1) - 1) i) := by
  have hp : (0 : Int) < 2 ^ (w - 1) := by positivity
  unfold satTo
  push_cast
  split
  · simp only; omega
  · split <;> simp only <;> omega

theorem satTo_snd (w : Nat) (i : Int) : (satTo w i).2 = !decide (-2 ^ (w - 1) ≤ i ∧ i ≤ 2 ^ (w - 1) - 1) := by
  unfold satTo
  push_cast
  split
  · simp; omega
  · split <;> simp <;> omega

/-- R69, R70: holding at 32 bits, in the words of the statements. -/
theorem sat32_eq (i : Int) : sat32 i = (heldWord i, decide (clipOf i = 1)) := by
  have hclip : (!decide (-2 ^ 31 ≤ i ∧ i ≤ 2 ^ 31 - 1)) = decide (clipOf i = 1) := by
    unfold clipOf; split <;> simp <;> omega
  rw [sat32, satTo_fst, satTo_snd, heldWord, hclip]

theorem b2n_clipOf (i : Int) : b2n (decide (clipOf i = 1)) = clipOf i := by
  unfold clipOf; split <;> rfl

/-- A value within the bounds of R67 is not held. -/
theorem accSat_toInt (a : BitVec 72) : accSat a.toInt = (a, false) := by
  have hlo := BitVec.le_toInt a
  have hhi := BitVec.toInt_lt (x := a)
  have hfst : (satTo 72 a.toInt).1 = a.toInt := by rw [satTo_fst]; omega
  have hsnd : (satTo 72 a.toInt).2 = false := by rw [satTo_snd]; simp; omega
  rw [accSat, hfst, hsnd, BitVec.ofInt_toInt]

/-- The greatest two's-complement value of `w` bits (R6). -/
theorem sx_lt (w x : Nat) : sx w x < 2 ^ (w - 1) := by
  have hlt := Nat.mod_lt x (Nat.two_pow_pos w)
  have hp : (0 : Int) < 2 ^ (w - 1) := by positivity
  unfold sx
  split
  case isTrue h => exact_mod_cast h
  case isFalse => omega

/-! ## The end of a format-D slot -/

/-- R69: a move shifts by some places at every S and every slot shift, so it always rounds. -/
theorem State.moveShift_pos (s : State) (e sh : Nat) : 0 < (30 - (s.teS e + sx 3 sh)).toNat := by
  have hS : s.teS e < 8 := sx_lt 4 _
  have hsh : sx 3 sh < 4 := sx_lt 3 sh
  omega

/-- R69, R70: the scaled move gives the scaled accumulator held at 32 bits, and says whether it had to be held. -/
theorem State.scaleMove_eq (s : State) (e k sh : Nat) :
    scaleMove (ng (s.eng e).acc k 0#72) (s.teS e) (slotShift sh) =
      (heldWord (scaledBy s e k sh), decide (clipOf (scaledBy s e k sh) = 1)) := by
  have hn := s.moveShift_pos e sh
  have hr : rnd (ng (s.eng e).acc k 0#72).toInt (30 - (s.teS e + sx 3 sh)).toNat = scaledBy s e k sh := by
    simp [rnd, asr, scaledBy, Nat.ne_of_gt hn]
  rw [scaleMove, slotShift, hr, sat32_eq]

/-- Without products an accumulator ends a slot as it was, or at 0 where move-and-clear names it. -/
theorem accEnd_nil (g : Engine) (x : Xfer) (k : Nat) :
    accEnd g x [] k = (if x.top = 2 ∧ x.acc = k then 0#72 else ng g.acc k 0#72, false) := by
  have h : accEnd g x [] k = accSat (if x.top = 2 ∧ x.acc = k then 0#72 else ng g.acc k 0#72).toInt := by
    simp only [accEnd, List.filter_nil, List.any_nil, List.foldl_nil, Bool.false_or, Bool.and_eq_true, beq_iff_eq]
    split <;> rfl
  rw [h, accSat_toInt]

/-- The array whose four elements are set to those of `f`. -/
theorem ns_four {α : Type} (v : Vector α 4) (f : Nat → α) :
    ns (ns (ns (ns v 0 (f 0)) 1 (f 1)) 2 (f 2)) 3 (f 3) = Vector.ofFn (fun k : Fin 4 => f k) := by
  ext k hk
  obtain rfl | rfl | rfl | rfl : k = 0 ∨ k = 1 ∨ k = 2 ∨ k = 3 := by omega
  all_goals simp [ns]

/-- The accumulators with the one that `k` names at 0 where `c` holds. -/
theorem ofFn_clear (v : Vector (BitVec 72) 4) (c : Prop) [Decidable c] (k : Nat) :
    Vector.ofFn (fun i : Fin 4 => if c ∧ k = i then 0#72 else ng v i 0#72) = if c then ns v k 0#72 else v := by
  ext i hi
  by_cases hc : c <;> simp [hc, ns, ng, Vector.getElem_setIfInBounds]

/-- R92, R97: the accumulator step of a slot without products is move-and-clear alone. -/
theorem State.accStep_nil (s : State) (e : Nat) (g : Engine) (x : Xfer) (hacc : (s.eng e).acc = g.acc) :
    s.accStep e g x [] = s.setEng e (afterClear x) := by
  simp only [State.accStep, accEnd_nil, Bool.or_self, State.setIf, Bool.false_eq_true, if_false]
  apply State.setEng_congr
  rw [ns_four _ (fun k => if x.top = 2 ∧ x.acc = k then 0#72 else ng g.acc k 0#72), ofFn_clear, ← hacc, afterClear]
  split <;> rfl

/-- `t` is `s` after the transfer `x` of a slot of engine `e` that began in `s0`: the move finds the engine as `g`, its clip counts
(R70), and memory is that of `s`. -/
structure Moved (s0 s : State) (e : Nat) (x : Xfer) (g : Engine) (t : State) : Prop where
  eng : t.eng e = afterMove s0 e x g
  clips : t.get (F.teSatCntCount e) = min (s.get (F.teSatCntCount e) + moveClips s0 e x) 0xFFFFFFFF
  mem : t.mem = s.mem

/-- R92: the transfer of a slot, whose accumulators are those of its start. -/
theorem State.transfer_moved (s0 s : State) {e : Nat} (he : e < 8) (x : Xfer) (hS : s.teS e = s0.teS e) :
    Moved s0 s e x (s.eng e) (s.transfer e (s0.eng e) x) := by
  by_cases htop : x.top = 0
  case pos =>
    have hle : s.get (F.teSatCntCount e) ≤ 0xFFFFFFFF := s.get_le (F.teSatCntCount e)
    constructor <;> simp [State.transfer, afterMove, moveClips, htop, Nat.min_eq_left hle]
  case neg =>
    constructor <;>
      simp [State.transfer, afterMove, moveClips, htop, hS, State.scaleMove_eq, State.get_satCount, State.eng_setEng s he, b2n_clipOf]

/-- R92, R94, R97: the end of a format-D slot that began in `s0`, from a state `s` with the accumulators and S of `s0`: the clear,
then the transfer. -/
theorem State.slotDEnd_moved (s0 s : State) {e : Nat} (he : e < 8) (w : DWord) (hacc : (s.eng e).acc = (s0.eng e).acc)
    (hS : s.teS e = s0.teS e) : Moved s0 s e (xferD w) (afterClear (xferD w) (s.eng e)) (s.slotDEnd e (s0.eng e) w) := by
  have hend : s.slotDEnd e (s0.eng e) w = (s.setEng e (afterClear (xferD w))).transfer e (s0.eng e) (xferD w) := by
    rw [State.slotDEnd, State.accStep_nil s e _ _ hacc]
  obtain ⟨heng, hclips, hmem⟩ := State.transfer_moved s0 (s.setEng e (afterClear (xferD w))) he (xferD w) hS
  rw [s.eng_setEng he] at heng
  rw [hend]
  exact ⟨heng, hclips, hmem⟩

/-! ## The interpolated sum -/

/-- The weighted difference, rounded, lies between 0 and the difference. -/
theorem interp_delta_between (d : Int) {f : Nat} (hf : f < 2 ^ 16) :
    min 0 d ≤ (d * f + 0x8000) / 2 ^ 16 ∧ (d * f + 0x8000) / 2 ^ 16 ≤ max 0 d := by
  have hf' : (f : Int) ≤ 65535 := by omega
  rcases le_total 0 d with hd | hd
  · have hlo : 0 ≤ d * f := by positivity
    have hhi : d * f ≤ d * 65535 := mul_le_mul_of_nonneg_left hf' hd
    omega
  · have hlo : d * 65535 ≤ d * f := mul_le_mul_of_nonpos_left hf' hd
    have hhi : d * f ≤ 0 := mul_nonpos_of_nonpos_of_nonneg hd (by positivity)
    omega

/-- R75: the result of an interpolation is the sum as it stands: it lies between the two words, so that it never wraps. -/
theorem interp_spec (x0 x1 : Word) {f : Nat} (hf : f < 2 ^ 16) :
    (interp x0 x1 f).toInt = x0.toInt + ((x1.toInt - x0.toInt) * f + 0x8000) / 2 ^ 16 ∧
    min x0.toInt x1.toInt ≤ (interp x0 x1 f).toInt ∧ (interp x0 x1 f).toInt ≤ max x0.toInt x1.toInt := by
  have hb := interp_delta_between (x1.toInt - x0.toInt) hf
  have h0 := x0.toInt_lt
  have h0' := x0.le_toInt
  have h1 := x1.toInt_lt
  have h1' := x1.le_toInt
  have hsum : (interp x0 x1 f).toInt = x0.toInt + ((x1.toInt - x0.toInt) * f + 0x8000) / 2 ^ 16 := by
    rw [interp, wrap32, asr, BitVec.toInt_ofInt_eq_self (by decide)] <;> push_cast <;> omega
  omega

/-! ## The interpolated read -/

/-- R72, R75: the physical words of two adjacent logical addresses are an even and an odd one, at the wrap too. -/
theorem physOf_succ_parity (wp l : Nat) : physOf wp l % 2 ≠ physOf wp (l + 1) % 2 := by
  unfold physOf
  omega

theorem dlyAddr_eq (g : Engine) (w : DWord) :
    dlyAddr g w = (slF w 34 18 + (if slF w 55 1 = 1 then aInt g (slF w 52 3) else 0)) % 262144 := by
  have h : slF w 34 18 < 262144 := fieldOf_lt w.toNat 34 18
  unfold dlyAddr
  split <;> simp_all [Nat.mod_eq_of_lt]

theorem aFrac_lt (g : Engine) (i : Nat) : aFrac g i < 2 ^ 16 := Nat.mod_lt _ (by decide)

/-- The weight of an interpolated read: AF of AN, or 0 with AEN = 0. -/
def interpFrac (g : Engine) (w : DWord) : Nat := if slF w 55 1 = 1 then aFrac g (slF w 52 3) else 0

theorem interpFrac_lt (g : Engine) (w : DWord) : interpFrac g w < 2 ^ 16 := by
  unfold interpFrac
  split
  · exact aFrac_lt g _
  · decide

/-- The result of an interpolated read (R75). -/
def State.interpRes (s : State) (e : Nat) (w : DWord) : Word :=
  interp (s.dlySeen e (physOf (s.engWp e) (dlyAddr (s.eng e) w))) (s.dlySeen e (physOf (s.engWp e) (dlyAddr (s.eng e) w + 1)))
    (interpFrac (s.eng e) w)

theorem State.slotInterp_eq (s : State) (e : Nat) (w : DWord) :
    s.slotInterp e w = (s.setEng e (fun h => dstPut h (slF w 26 7) (s.interpRes e w))).slotDEnd e (s.eng e) w := by
  simp only [State.slotInterp, State.interpRes, interpFrac, beq_iff_eq]

/-- R75, R94: an interpolated read puts its result into DX and then ends as every format-D slot. -/
theorem State.slotInterp_moved (s : State) {e : Nat} (he : e < 8) (w : DWord) :
    Moved s s e (xferD w) (afterClear (xferD w) (dstPut (s.eng e) (slF w 26 7) (s.interpRes e w))) (s.slotInterp e w) := by
  have hput := s.eng_setEng he (fun h => dstPut h (slF w 26 7) (s.interpRes e w))
  obtain ⟨heng, hclips, hmem⟩ :=
    State.slotDEnd_moved s (s.setEng e (fun h => dstPut h (slF w 26 7) (s.interpRes e w))) he w (by rw [hput, dstPut_acc]) rfl
  rw [hput] at heng
  rw [State.slotInterp_eq]
  exact ⟨heng, hclips, hmem⟩

/-- Settles O18: the read ends as `State.slotInterp_moved` says, with the result that `interp_spec` bounds. -/
theorem interpolatedRead : Obligations.InterpolatedRead := by
  unfold Obligations.InterpolatedRead
  intro e s
  simp only [← dlyAddr_eq]
  refine ⟨physOf_succ_parity _ _, fun hslot => ?_⟩
  obtain ⟨heng, hclips, hmem⟩ := s.slotInterp_moved e.isLt (s.nextSlot e)
  obtain ⟨hsum, hlo, hhi⟩ := interp_spec _ _ (interpFrac_lt (s.eng e) (s.nextSlot e))
  refine ⟨(s.slotInterp e (s.nextSlot e)).slotDone e, s.interpRes e (s.nextSlot e),
    congrArg Host.Outcome.next (State.runSlot_of_slotIs _ hslot), hsum, hlo, hhi, ?_, hclips, hmem⟩
  rw [State.eng_slotDone _ e.isLt, heng, afterMove_slot, afterClear_slot, dstPut_slot]

end Sys2Proof.Machine
end

section
/-! PROOF. Illegal and suppressed slots (R102, R106): they take their cycle, and only an illegal one leaves a mark. -/

namespace Sys2Proof.Machine

/-- R106: an illegal slot sets ILLEGAL and takes its cycle. -/
theorem State.runIllegal_of_illegal {s : State} {e : Nat} (hready : s.slotReady e = true)
    (hillegal : slotLegal (s.eng e).slot (s.nextSlot e) = false) :
    s.runIllegal e = (s.put (F.teStatusIllegal e) 1).slotDone e := by
  simp [State.runIllegal, hready, hillegal]

/-- R102: a legal slot whose predicate does not hold takes its cycle; its operation `act` is not reached. -/
theorem State.runSlot_of_suppressed {s : State} {e : Nat} {kind : DWord → Bool} (act : State → Nat → DWord → State)
    (hready : s.slotReady e = true) (hlegal : slotLegal (s.eng e).slot (s.nextSlot e) = true)
    (hpred : predHolds (slPred (s.nextSlot e)) (s.eng e).f = false) (hkind : kind (s.nextSlot e) = true) :
    s.runSlot e kind act = s.slotDone e := by
  simp [State.runSlot, hready, hlegal, hpred, hkind]

/-- Command `p.1` executes engine `e`'s next slot when it is of the kind `p.2`, by one operation for all states. -/
def RunsSlotOfKind (e : Fin 8) (p : Instr × (DWord → Bool)) : Prop :=
  ∃ act : State → Nat → DWord → State, ∀ s : State, exec p.1 s = .next (s.runSlot e p.2 act)

/-- Every command of `slotCommands` goes through `State.runSlot`, where the predicate is looked at (R101, R102). -/
theorem runsSlotOfKind_of_mem_slotCommands (e : Fin 8) : ∀ p ∈ slotCommands e, RunsSlotOfKind e p := by
  simp only [slotCommands, List.cons_append, List.nil_append, List.forall_mem_cons, List.not_mem_nil,
    IsEmpty.forall_iff, implies_true, and_true]
  and_intros
  all_goals exact ⟨_, fun _ => rfl⟩

/-- A command of `slotCommands` whose slot is legal but suppressed only takes its cycle. -/
theorem RunsSlotOfKind.exec_of_suppressed {s : State} {e : Fin 8} {p : Instr × (DWord → Bool)} (hruns : RunsSlotOfKind e p)
    (hready : s.slotReady e = true) (hlegal : slotLegal (s.eng e).slot (s.nextSlot e) = true)
    (hpred : predHolds (slPred (s.nextSlot e)) (s.eng e).f = false) (hkind : p.2 (s.nextSlot e) = true) :
    exec p.1 s = .next (s.slotDone e) := by
  obtain ⟨act, hexec⟩ := hruns
  rw [hexec, State.runSlot_of_suppressed act hready hlegal hpred hkind]

/-- Settles O20: an illegal slot by `State.runIllegal_of_illegal`; a suppressed one through `RunsSlotOfKind`. -/
theorem teIllegalAndSuppressed : Obligations.TeIllegalAndSuppressed := by
  unfold Obligations.TeIllegalAndSuppressed
  intro e s hready
  refine ⟨fun hillegal => ?_, fun hlegal hpred p hp hkind => ?_⟩
  · exact congrArg Host.Outcome.next (State.runIllegal_of_illegal hready hillegal)
  · exact (runsSlotOfKind_of_mem_slotCommands e p hp).exec_of_suppressed hready hlegal hpred hkind

end Sys2Proof.Machine
end
